-- ==== Sys2Proof/Word.lean ====
section
/-! DEFINITION. The words of the part, the numbers of its stations, sectors and slots, and tables of fixed size. -/

namespace Sys2Proof

/-- One byte of the Exchange Window or of a level bus frame. -/
abbrev Byte := BitVec 8

/-- One 32-bit word of the Exchange Window, a port register, fine time or site seconds (08 R144, 01 R10, R11). -/
abbrev Word := BitVec 32

/-- A jack station, 0 to 63 (00, Terms). -/
abbrev Station := Fin 64

/-- A wall sector, 0 to 15 (00, Terms). -/
abbrev Sector := Fin 16

/-- A slot of the Batch Board, 0 to 47 (11, The Exchange Window). -/
abbrev BatchSlot := Fin 48

/-- A slot of the Order Board, 0 to 15 (11, The Exchange Window). -/
abbrev OrderSlot := Fin 16

/-- A portion entry of a batch, 0 to 7 (07 R119). -/
abbrev PortionIndex := Fin 8

/-- A mix class, 0 to 3 (01 R8). -/
abbrev MixClass := Fin 4

/-- A fixed number of like things, indexed by `Fin n`. -/
abbrev Table (α : Type) (n : Nat) := Vector α n

end Sys2Proof
end

