-- ==== Sys2Proof/Names.lean ====
section
/-! DEFINITION. The names the spec gives to states, kinds, outcomes and records that pass between the blocks. -/

namespace Sys2Proof

/-- The nine blocks of the part (00, Blocks of the Part). -/
inductive Block where
  | exc | tmb | ssu | vdu | wvc | lbp | ltr | fds | psv
  deriving DecidableEq, Repr

/-- The seven part states (09, table before R162). -/
inductive PartState where
  | bench | config | run | stopping | powerDown | recovery | halted
  deriving DecidableEq, Repr

/-- The commands of the CONTROL register (09 R164). -/
inductive Command where
  | start | stop | clear | reset | lineModeRestart | lineModeHold
  deriving DecidableEq, Repr

/-- The outcomes of a command (09 R163). -/
inductive CommandOutcome where
  | done | waiting | wrongState | busy | rigInvalid | rigChanged | unknown
  deriving DecidableEq, Repr

/-- How the part takes its reset line (09 R168, R169). -/
inductive LineMode where
  | restart | hold
  deriving DecidableEq, Repr

/-- The bench result (09 R171). -/
inductive BenchResult where
  | none | running | pass | clockFault | matrixFault | storeFault
  deriving DecidableEq, Repr

/-- The two kinds of retention store error (09 R172). -/
inductive StoreFailure where
  | read | write
  deriving DecidableEq, Repr

/-- The three cabinet lamps (09 R170). -/
inductive LampName where
  | green | amber | red
  deriving DecidableEq, Repr

/-- The kinds of an edge (02 R21). -/
inductive EdgeKind where
  | extend | retract
  deriving DecidableEq, Repr

/-- The kinds an edge window accepts (02 R23). -/
inductive WindowKinds where
  | extendOnly | retractOnly | both
  deriving DecidableEq, Repr

/-- An edge record: its kind and its edge time in fine time (02, terms; R21). -/
structure EdgeRecord where
  kind : EdgeKind
  time : Word
  deriving DecidableEq, Repr

/-- The causes of a mark request (04 R75). -/
inductive MarkCause where
  | stray | deviation
  deriving DecidableEq, Repr

/-- The run request of the directive (08 R154). -/
inductive RunRequest where
  | hold | climb
  deriving DecidableEq, Repr

/-- The directive values of the Wave Controller (04 R53). -/
structure ClimbValues where
  runRequest : RunRequest
  riseRate : Nat
  topElevation : Nat
  trims : Table Int 64
  deriving DecidableEq, Repr

/-- The batch slot states (07 R123, 11 Codes). -/
inductive BatchState where
  | free | posted | lined | pouring | casting | spent | refused
  deriving DecidableEq, Repr

/-- The order slot states (08 R150, 11 Codes). -/
inductive OrderState where
  | free | posted | taken | answered
  deriving DecidableEq, Repr

/-- The refusal reasons of a batch (07 R120, R139). -/
inductive Reason where
  | none | stale | badVolume | badAge | badMix | badMask | tooOld | cancelled
  deriving DecidableEq, Repr

/-- The waste causes of a batch (07 R118). -/
inductive WasteCause where
  | none | aged | cancelled | remainder
  deriving DecidableEq, Repr

/-- The outcomes of an order (11 Codes). -/
inductive OrderOutcome where
  | done | badKind | badArgument | wrongState | busy | notCancellable | past | full
  deriving DecidableEq, Repr

/-- What an owner hands back for an order: its outcome with the detail, or word that it is taken (08 R150). -/
inductive OrderAnswer where
  | outcome (result : OrderOutcome) (detail : Word)
  | taken
  deriving DecidableEq, Repr

/-- The disposition of a portion entry (07 R119). -/
inductive Disposition where
  | new | merged
  deriving DecidableEq, Repr

/-- A portion entry of a batch (07 R119). -/
structure PortionEntry where
  sector : Sector
  disposition : Disposition
  volume : Nat
  firstPlaced : Word
  exit : Option Word
  deriving DecidableEq, Repr

/-- The report fields of a batch slot (07 R142). -/
structure BatchReport where
  reason : Reason
  takeTime : Word
  delivered : Nat
  wasted : Nat
  remaining : Nat
  cause : WasteCause
  toWaste : Bool
  entries : List PortionEntry
  deriving DecidableEq, Repr

/-- The request fields of a batch slot handed over with it (08 R149). -/
structure BatchRequest where
  postNumber : Word
  volume : Word
  ageAtPost : Word
  mixClass : Word
  destination : BitVec 16
  deriving DecidableEq, Repr

/-- A request to write a slot (08 R148): of a batch slot its report fields and, when it changes, its state;
of an order slot its outcome and detail and, when it changes, its state. -/
inductive SlotWrite where
  | batch (slot : BatchSlot) (state : Option BatchState) (report : BatchReport)
  | order (slot : OrderSlot) (state : Option OrderState) (result : Option OrderOutcome) (detail : Word)
  deriving DecidableEq, Repr

/-- A pour plan request (06 R103). -/
structure PlanRequest where
  sector : Sector
  slot : BatchSlot
  mix : MixClass
  origin : Word
  newIndex : Option PortionIndex
  /-- Of a remainder request: the portion of the layer it is to merge into. -/
  remainder : Option PortionIndex
  deriving DecidableEq, Repr

/-- The answer to a pour plan request (06 R103). -/
inductive PlanAnswer where
  | merge | new | refused
  deriving DecidableEq, Repr

/-- The answer to a placement (06 R104, R105). -/
inductive PlacementResult where
  | new (index : PortionIndex)
  | merged (index : PortionIndex)
  | nothingPlaced
  deriving DecidableEq, Repr

/-- The six attention sources (08, Attention). -/
inductive AttnSource where
  | batch | order | event | hold | publish | fault
  deriving DecidableEq, Repr

end Sys2Proof
end

