-- ==== Sys2Proof/Syntax.lean ====
section
/-! DEFINITION. The commands of the part: one constructor for each row of the spec's table of operations and events. -/

namespace Sys2Proof

/-- One row of spec/opcode_table.json each, with the operands the row's rule names. -/
inductive Instr where
  -- the CONTROL register (09 R163 to R168)
  | start
  | stop
  | clear
  | reset
  | lineModeRestart
  | lineModeHold
  | unknownCommand (code : Byte)
  -- the other port registers and the window (08 R144, R158, R159)
  | attnWrite (value : Word)
  | attnMaskWrite (value : Word)
  | attnPaceWrite (value : Word)
  | ignoredRegisterWrite (offset : Nat) (value : Word)
  | hostWindowWrite (offset : Nat) (value : Word)
  -- faults, supply, reset line
  | retentionStoreError (failure : StoreFailure)
  | powerOn (backupHeld : Bool)
  | lineResetRestart
  | lineResetHold
  | resetRelease (strapHigh : Bool)
  | supplyLow
  | supplyGood
  | returnOfGoodSupply
  | powerDownActionsDone
  | feedStopped
  | waveEnded
  | siteSecondAdvance
  | siteSecondNotice (receiver : Block)
  | lampFlashToggle (lamp : LampName)
  -- stroke sensing (02)
  | rowRead (columns : Byte)
  | lampTestExpiry
  | openWindow (station : Station) (kinds : WindowKinds) (notices : Bool)
  | closeWindow (station : Station)
  | drainQueue (station : Station)
  | strayReset (station : Station)
  | firstOfKindNotice (station : Station) (kind : EdgeKind) (time : Word)
  | drainAnswer (station : Station) (records : List EdgeRecord) (overflow : Bool)
  | markRequest (station : Station) (cause : MarkCause)
  | coilFaultNotice (station : Station)
  | eventRequest (station : Station)
  -- valve drive (03)
  | openValve (station : Station)
  | closeValve (station : Station)
  | restValve (station : Station)
  | offValve (station : Station)
  | faultReset (station : Station)
  | wake
  | rampEnd (station : Station)
  | coilTest (station : Station) (current : Nat)
  | partStateNotice (receiver : Block) (state : PartState)
  -- waves (04)
  | dwellExpiry
  | risePermissionRequest
  | risePermissionAnswer (age : BitVec 16) (fill : BitVec 16)
  | driveTimerExpiry
  | settleTimerExpiry
  | fallTimerExpiry
  | waveStop
  | feedStop
  | lineHoldNotice (receiver : Block)
  | wavePowerDown
  | feedPowerDown
  | feedPauseRequest
  | clearNotice (receiver : Block)
  | clearDone (sender : Block)
  -- orders (04, 06, 07, 08)
  | requalify (slot : OrderSlot) (station : Word) (count : Word)
  | retire (slot : OrderSlot) (station : Word)
  | clearEventsStation (slot : OrderSlot) (index : Word) (events : Word)
  | clearEventsSector (slot : OrderSlot) (index : Word) (events : Word)
  | clearEventsRig (slot : OrderSlot) (events : Word)
  | addOpening (slot : OrderSlot) (sector : Word) (lower : Word) (upper : Word)
  | dropOpening (slot : OrderSlot) (sector : Word) (position : Word)
  | cancelBatch (slot : OrderSlot) (batch : Word) (image : BatchState)
  | orderOutcome (slot : OrderSlot) (answer : OrderAnswer)
  -- level probes (05)
  | motionOnNotice
  | motionOffNotice
  | transactionBegin
  | querySent
  | replyFrame (bytes : List Byte) (framingError : Bool)
  | replyTimeout
  | readingMadeAbsent (station : Station)
  | settleHoldEnd
  | readingNotice (station : Station)
  | recoveryWindowExpiry
  -- layers and feed (06, 07)
  | countsChanged
  | exitNotice (slot : BatchSlot) (index : PortionIndex) (time : Word)
  | feedView (slot : BatchSlot) (destination : BitVec 16) (portionCount : Nat)
  | pourPlanRequest (request : PlanRequest)
  | pourPlanAnswer (answer : PlanAnswer)
  | placement (sector : Sector) (slot : BatchSlot) (volume : Nat)
  | placementAnswer (result : PlacementResult)
  | deficitNotice
  | dropPlan
  | gateClose
  | wasteGateClose
  -- the exchange (08)
  | climbDirective (values : ClimbValues)
  | flowDirective (flow : Nat)
  | feedMaskDirective (mask : BitVec 16)
  | exchangeScan
  | batchHandover (slot : BatchSlot) (request : BatchRequest)
  | slotWriteRequest (write : SlotWrite)
  | attentionSetRequest (source : AttnSource)
  | publishTimerExpiry
  | publicationEnd
  | supplyDies
  deriving DecidableEq, Repr

end Sys2Proof
end

