-- ==== Sys2Proof/Decode.lean ====
section
/-! DEFINITION. The command a word spells. No row of the spec's table gives bits, so no word spells one (log 42). -/

namespace Sys2Proof

/-- The command read from a word by the bits the table gives its rows: none, since no row gives bits. -/
def decodeTableWord (_nbits _w : Nat) : Option Instr := none

end Sys2Proof
end

