-- ==== Sys2Proof/Config.lean ====
section
/-! DEFINITION. What the manual fixes for every part, and the three values it leaves open. -/

namespace Sys2Proof.Config

/-- FREE VALUE (log 3): the revision the ID register reads (11, Port Registers), which the spec does not give. -/
opaque revision : BitVec 8

/-- FREE VALUE (log 4): what STATE reads while the part is held in reset, where 'the port registers read their
reset values' (09 R168) and no rule gives that of STATE. -/
opaque stateInReset : Word

/-- FREE VALUE (log 75): whether the store still fails at the read of the job mark by the n-th RESET, where it is out of HALTED (09 R172),
which nothing but the store decides. -/
opaque storeStillFails : Nat → Bool

/-- FREE VALUE (log 15): whether the release of the n-th RESET finds the test strap high (09 R162), a pin that the outside
alone sets. -/
opaque strapHighAtReset : Nat → Bool

/-- The vendor code of the ID register (11, Port Registers). -/
def vendorCode : BitVec 16 := 0x3C71#16

/-- The part code of the ID register (11, Port Registers). -/
def partCode : BitVec 8 := 0x40#8

/-- The limit of the dwell counter in milliseconds (04 R55). -/
def dwellLimit : Nat := 180000000

/-- Period of the exchange scan in milliseconds (08 R145). -/
def scanPeriod : Nat := 100

/-- Length of the good-supply timer in milliseconds (10 R173). -/
def goodSupplyTime : Nat := 200

/-- Length of the lamp test in milliseconds (09 R171). -/
def lampTestTime : Nat := 2000

/-- How long lit and how long dark in slow flash, in milliseconds (09 R170). -/
def slowFlash : Nat := 1000

/-- How long lit and how long dark in fast flash, in milliseconds (09 R170). -/
def fastFlash : Nat := 250

/-- The reply's first byte begins within this many milliseconds of the end of the query (05 R85). -/
def replyBegin : Nat := 4

/-- The reply's seventh byte has been received within this many milliseconds of the beginning of its first (05 R85). -/
def replyEnd : Nat := 2

/-- The bytes of a reply frame (05 R85). -/
def replyLength : Nat := 7

/-- The pause between two transactions in milliseconds (05 R86). -/
def transactionPause : Nat := 1

/-- The misses in a row at which PROBE_LOST is asked for (05 R88). -/
def missLimit : Nat := 8

/-- The seconds after a recovery end within which a warning is a repeated outage (10 R175). -/
def repeatedOutageTime : Nat := 120

/-- Most entries of an edge queue (02 R26). -/
def queueDepth : Nat := 4

/-- Most layers of a sector stack (06 R98). -/
def stackDepth : Nat := 10

/-- Most pending openings of a sector (06 R106). -/
def openingDepth : Nat := 2

/-- Most batches of the feed line (07 R122). -/
def lineDepth : Nat := 4

/-- Most portion entries of a batch (07 R119). -/
def entryDepth : Nat := 8

/-- The marks at which a station is barred (04 R71). -/
def markLimit : Nat := 3

/-- The clean waves that take one mark away (04 R72). -/
def cleanLimit : Nat := 16

/-- The greatest stroke count and the greatest last stroke duration held (04 R48). -/
def countLimit : Nat := 65535

end Sys2Proof.Config
end

