-- ==== Sys2Proof/Machine/State.lean ====
section
/-! DEFINITION. The state of the part, block by block, the state right after reset, and the reasons a step can stop. -/

namespace Sys2Proof.Machine

open Sys2Proof

/-! ## Time Base (01) -/

/-- The Time Base (01 R10 to R12). -/
structure Tmb where
  fineTime : Word
  siteSeconds : Word
  clockValid : Bool
  /-- The saved site seconds word; none in a store that has never held one (01 R12). -/
  savedWord : Option Word
  clockLost : Bool
  deriving DecidableEq, Repr

/-- A timer that runs with fine time: its start and its length in milliseconds. -/
structure Timer where
  start : Word
  length : Nat
  deriving DecidableEq, Repr

/-! ## Stroke Sensing Unit (02) -/

/-- The level of a stroke switch (02, terms). -/
inductive SwitchLevel where
  | opened | closed
  deriving DecidableEq, Repr

/-- An open edge window's accepted kinds and notice setting (02 R23). -/
structure Window where
  kinds : WindowKinds
  notices : Bool
  deriving DecidableEq, Repr

/-- What the Stroke Sensing Unit keeps for one station (02, table of items). -/
structure SsuStation where
  level : SwitchLevel
  run : Nat
  runFirst : Word
  window : Option Window
  armedExtend : Bool
  armedRetract : Bool
  queue : List EdgeRecord
  overflow : Bool
  strays : Nat
  deriving DecidableEq, Repr

/-- The scan (02 R19, R34): running, ending with the row now driven, or stopped. -/
inductive ScanMode where
  | running | ending | stopped
  deriving DecidableEq, Repr

/-- What the matrix drives: a row, or no row between scans of the bench matrix pass (02 R17, 09 R171). -/
inductive ScanPosition where
  | row (r : Fin 8)
  | idle
  deriving DecidableEq, Repr

/-- The Stroke Sensing Unit (02). -/
structure Ssu where
  stations : Table SsuStation 64
  scan : ScanMode
  position : ScanPosition
  adopting : Bool
  /-- The row time of the scan in progress, in milliseconds (02 R18). -/
  rowTime : Nat
  view : PartState
  deriving DecidableEq, Repr

/-! ## Valve Drive Unit (03) -/

/-- The states of a valve channel (03, table of items). -/
inductive ChannelState where
  | idle | opening | opened | closing
  deriving DecidableEq, Repr

/-- The progress of a ramp: start level, start time in fine time, duration in milliseconds (03 R36). -/
structure Ramp where
  level : Nat
  start : Word
  duration : Nat
  deriving DecidableEq, Repr

/-- One valve channel (03, table of items). `level` is the present level while no ramp is in progress. -/
structure Channel where
  state : ChannelState
  level : Nat
  target : Nat
  ramp : Option Ramp
  coilFault : Bool
  testRun : Nat
  deriving DecidableEq, Repr

/-- The Valve Drive Unit (03). -/
structure Vdu where
  channels : Table Channel 64
  quiet : Bool
  pumpEnable : Bool
  view : PartState
  deriving DecidableEq, Repr

/-! ## Wave Controller (04) -/

/-- The standing of a station in the Jack Table (04 R49). -/
inductive ServiceState where
  | absent | active | barred | retired
  deriving DecidableEq, Repr

/-- A station record of the Jack Table (04 R48). -/
structure StationRecord where
  service : ServiceState
  count : Nat
  marks : Nat
  cleanRun : Nat
  inDoubt : Bool
  lastStroke : Option Nat
  events : BitVec 9
  retirePending : Option OrderSlot
  deriving DecidableEq, Repr

/-- The verdict of the DRIVE judgement (04, terms). -/
inductive Verdict where
  | extended | missing | inDoubt
  deriving DecidableEq, Repr

/-- What the Wave Controller keeps of a station for the wave in flight (04 R48). -/
structure WaveItem where
  participant : Bool
  awaited : Bool
  reportedExtend : Bool
  reportedRetract : Bool
  /-- A late EXTEND was notified during SETTLE (04 R66). -/
  lateExtend : Bool
  /-- It had not reported EXTEND at the take of a STOP or a line hold (04 R77). -/
  unreported : Bool
  verdict : Option Verdict
  /-- Its drained DRIVE answer ended with a RETRACT (04 R64). -/
  retracted : Bool
  cleanDrive : Bool
  cleanSettle : Bool
  marked : Bool
  deriving DecidableEq, Repr

/-- The climb states (04, Holding the Climb). -/
inductive Climb where
  | held | dwell | drive | settle
  deriving DecidableEq, Repr

/-- What a drain was sent for, and so what its answer means (04 R63, R67, R73, R74, 10 R176, R177, R187). -/
inductive DrainPurpose where
  | driveEnd | settleEnd | barDrive | barSettle | powerDown | discard
  deriving DecidableEq, Repr

/-- A drain sent and not yet answered. -/
structure Drain where
  station : Station
  purpose : DrainPurpose
  deriving DecidableEq, Repr

/-- The end of a phase whose drains are being answered. -/
inductive WaveEnding where
  | driveEnd | settleEnd | powerDown
  deriving DecidableEq, Repr

/-- The Wave Controller (04). -/
structure Wvc where
  table : Table StationRecord 64
  wave : Table WaveItem 64
  waveNumber : Word
  values : ClimbValues
  climb : Climb
  holds : BitVec 6
  dwell : Nat
  /-- A rise-permission request is outstanding (04 R56). -/
  permission : Bool
  driveStart : Word
  driveTimer : Option Timer
  settleTimer : Option Timer
  fallTimer : Option Timer
  ending : Option WaveEnding
  drains : List Drain
  /-- A counts changed notice is owed (04 R70). -/
  countsDirty : Bool
  /-- The stations whose windows were opened at the entry into RECOVERY (10 R183). -/
  recoveryWindows : List Station
  view : PartState
  deriving DecidableEq, Repr

/-! ## Level Bus Poller (05) -/

/-- The status of a reading (05 R85). -/
inductive CellStatus where
  | good | cellFault
  deriving DecidableEq, Repr

/-- A reading (05 R90). -/
structure Reading where
  elevation : BitVec 24
  status : CellStatus
  taken : Word
  inMotion : Bool
  deriving DecidableEq, Repr

/-- The first or the second attempt of a transaction (05 R87). -/
inductive Attempt where
  | first | second
  deriving DecidableEq, Repr

/-- The states of a transaction (05 R87). -/
inductive Transaction where
  | idle
  | query (station : Station)
  | await (station : Station) (attempt : Attempt) (since : Word)
  | retry (station : Station)
  deriving DecidableEq, Repr

/-- A reply whose first byte has begun: when that was, and the bytes received so far (05 R85, log 61). -/
structure Incoming where
  begun : Word
  bytes : List Byte
  deriving DecidableEq, Repr

/-- The Level Bus Poller (05). -/
structure Lbp where
  readings : Table (Option Reading) 64
  missRuns : Table Nat 64
  episodes : Table Bool 64
  pollPosition : Option Station
  roundHeard : Bool
  transaction : Transaction
  /-- The fine time at which the last transaction ended, while its 1 ms pause counts (05 R86). -/
  lastEnd : Option Word
  /-- The bytes the poller drives on the level bus; none while the line is released (05 R84). -/
  bus : List Byte
  /-- The reply being received in AWAIT; none until its first byte has begun (05 R85). -/
  incoming : Option Incoming
  motion : Bool
  settleHold : Option Word
  probeBus : Bool
  view : PartState
  deriving DecidableEq, Repr

/-! ## Layer Tracker (06) -/

/-- What a CONCRETE layer holds beside its place (06 R99). -/
structure Concrete where
  slot : BatchSlot
  index : PortionIndex
  placed : Word
  origin : Word
  mix : MixClass
  jointReported : Bool
  deriving DecidableEq, Repr

/-- The kind of a layer (06 R99). -/
inductive LayerKind where
  | concrete (c : Concrete)
  | gap
  deriving DecidableEq, Repr

/-- A layer record (06 R99). -/
structure Layer where
  bottom : Int
  thickness : Nat
  kind : LayerKind
  deriving DecidableEq, Repr

/-- A pending opening: its from and to elevations (06 R106). -/
structure Opening where
  lower : Int
  upper : Int
  deriving DecidableEq, Repr

/-- How a pour plan was answered (06 R103). -/
inductive PlanKind where
  | merge (index : PortionIndex)
  | new (index : PortionIndex)
  deriving DecidableEq, Repr

/-- A pour plan (06 R103). -/
structure Plan where
  sector : Sector
  slot : BatchSlot
  mix : MixClass
  origin : Word
  kind : PlanKind
  deriving DecidableEq, Repr

/-- What the feed view answers of one sector (06 R102). -/
structure SectorView where
  eligible : Bool
  deficitVolume : Nat
  urgent : Bool
  openAge : Option Nat
  merges : Bool
  deriving DecidableEq, Repr

/-- The Layer Tracker (06). -/
structure Ltr where
  stack : Table (List Layer) 16
  openings : Table (List Opening) 16
  bottoms : Table Int 16
  events : Table (BitVec 4) 16
  age : BitVec 16
  fill : BitVec 16
  feedMask : BitVec 16
  plan : Option Plan
  /-- The model's own field (log 13): the last feed view answered (06 R102). -/
  lastView : Option (Table SectorView 16)
  view : PartState
  deriving DecidableEq, Repr

/-! ## Feed Distributor (07) -/

/-- A live batch record (07 R118), with the state its slot stands in (07 R123). -/
structure BatchRecord where
  postNumber : Word
  volume : Nat
  ageAtPost : Nat
  mix : MixClass
  destination : BitVec 16
  takeTime : Word
  origin : Word
  delivered : Nat
  wasted : Nat
  remaining : Nat
  cause : WasteCause
  toWaste : Bool
  entries : List PortionEntry
  lastPortion : Option PortionIndex
  state : BatchState
  deriving DecidableEq, Repr

/-- What the gate record holds with an open gate (07 R125). `passed` is the volume of the placement that was sent when the
gate closed, V or the cut volume, until the record becomes IDLE (07 R131); `cut` is the cut volume recorded, which a close at
B does not record (07 R135, 10 R179). -/
structure GateRun where
  slot : BatchSlot
  volume : Nat
  openedAt : Word
  flow : Nat
  closeAt : Word
  passed : Option Nat
  cut : Option Nat
  deriving DecidableEq, Repr

/-- The gate record (07 R125). -/
inductive Gate where
  | idle
  | drop (sector : Sector) (run : GateRun)
  | waste (run : GateRun) (cause : WasteCause)
  deriving DecidableEq, Repr

/-- The plan request: none, asked and outstanding (07 R130), or granted and being ended with a volume of 0. -/
inductive PlanStage where
  | none
  | asked (sector : Sector) (slot : BatchSlot) (volume : Nat) (remainder : Bool)
  | ending
  deriving DecidableEq, Repr

/-- The Feed Distributor (07). -/
structure Fds where
  records : Table (Option BatchRecord) 48
  line : List BatchSlot
  lastPost : Word
  gate : Gate
  plan : PlanStage
  flow : Nat
  paused : Bool
  /-- The feed-stopped report is owed to the Part Supervisor (07 R136, 10 R178). -/
  owesReport : Bool
  view : PartState
  deriving DecidableEq, Repr

/-! ## Exchange Controller (08) -/

/-- The board of a misuse record (08 R147). -/
inductive Board where
  | order | batch
  deriving DecidableEq, Repr

/-- How far the Exchange Controller is with a CLEAR (09 R167): not clearing; told that one has begun; its slots
written and its publication waiting for one in progress; its publication in progress. -/
inductive ClearStage where
  | none | begun | waiting | publishing
  deriving DecidableEq, Repr

/-- The Exchange Controller (08). -/
structure Exc where
  orderImages : Table OrderState 16
  batchImages : Table BatchState 48
  /-- The order is handed over and not yet answered (08 R145). -/
  orderHanded : Table Bool 16
  /-- The batch is handed over and not yet answered (08 R145). -/
  batchHanded : Table Bool 48
  /-- The candidates of the present scan still to be handed over (08 R149). -/
  candidates : List BatchSlot
  edition : Word
  lastRejected : Word
  badField : Nat
  statusEdition : Word
  misuse : Option (Board × Nat)
  misuseEvent : Bool
  directiveBad : Bool
  scanTimer : Option Word
  publishTimer : Option Timer
  deferred : Bool
  publication : Option Word
  postscaler : Nat
  clearStage : ClearStage
  attn : BitVec 6
  attnMask : BitVec 6
  attnPace : Nat
  /-- The ATTN line (08 R159). -/
  attnLine : Bool
  view : PartState
  deriving DecidableEq, Repr

/-! ## Part Supervisor (09, 10) -/

/-- The limits of a mix class (01 R8). -/
structure MixLimits where
  minExit : Nat
  warnOpen : Nat
  maxOpen : Nat
  maxPlacement : Nat
  deriving DecidableEq, Repr

/-- The fields of the Rig Page (01, Rig Page fields). -/
structure RigValues where
  fitted : BitVec 64
  strokeLength : Nat
  formHeight : Nat
  targetFill : Nat
  maxFill : Nat
  minLayer : Nat
  levelBand : Nat
  minActive : Nat
  driveTimeout : Nat
  settleTimeout : Nat
  strayLimit : Nat
  rowTime : Nat
  debounceScans : Nat
  riseRamp : Nat
  onLevel : Nat
  fallRamp : Nat
  restLevel : Nat
  probeTolerance : Nat
  freshnessLimit : Nat
  probeSettle : Nat
  recoveryWindow : Nat
  mergeWindow : Nat
  maxPortion : Nat
  publishInterval : Nat
  areas : Table Nat 16
  mixes : Table MixLimits 4
  deriving DecidableEq, Repr

/-- The rig snapshot: the geometry fields (01 R9). -/
structure Snapshot where
  fitted : BitVec 64
  strokeLength : Nat
  formHeight : Nat
  areas : Table Nat 16
  deriving DecidableEq, Repr

/-- What CONTROL shows (09 R163). Code 0 is no command. -/
structure Control where
  code : Byte
  outcome : CommandOutcome
  detail : Nat
  waiting : Bool
  dropped : Bool
  deriving DecidableEq, Repr

/-- Where the bench self-check stands and what its passes note (09 R171). -/
inductive BenchPhase where
  | none
  | lampTest (since : Word)
  | storePass
  /-- Fine time at the noted advance, and the advances counted after it. -/
  | clockPass (noted : Word) (count : Nat)
  /-- Whether one of the sixteen scans is being made, the idle reads made, and the columns of the last of them. -/
  | matrixPass (inScan : Bool) (reads : Nat) (last : Byte)
  | done
  deriving DecidableEq, Repr

/-- The power monitor states (10 R173). -/
inductive Monitor where
  | normal | actions | wait
  deriving DecidableEq, Repr

/-- The recovery phases (10, Part Supervisor state). -/
inductive RecoveryPhase where
  | none | settling | ready | checked
  deriving DecidableEq, Repr

/-- A lamp's pattern (09 R170). -/
inductive LampPattern where
  | dark | steady | slow | fast
  deriving DecidableEq, Repr

/-- A lamp: its pattern, whether it is lit, and the fine time of its last change. -/
structure Lamp where
  pattern : LampPattern
  lit : Bool
  since : Word
  deriving DecidableEq, Repr

/-- A reset taken while the power-down actions go on (10 R180): the RESET command, or the line in RESTART mode with
whether it has been released meanwhile and the strap found then (log 91). -/
inductive DeferredReset where
  | command
  | line (released : Option Bool)
  deriving DecidableEq, Repr

/-- The Part Supervisor (09, 10). -/
structure Psv where
  state : PartState
  jobMark : Bool
  rig : RigValues
  snapshot : Option Snapshot
  control : Control
  lineMode : LineMode
  bench : BenchResult
  benchPhase : BenchPhase
  haltCause : Option StoreFailure
  rigCheck : Option (CommandOutcome × Nat)
  monitor : Monitor
  supplyGood : Bool
  goodTimer : Option Word
  deferredReset : Option DeferredReset
  /-- The supply has died in ACTIONS; power goes when the power-down actions are complete (10 R173, log 59). -/
  dying : Bool
  recovery : RecoveryPhase
  recoveryTimer : Option Timer
  lastRecoveryEnd : Option Word
  repeatedOutage : Bool
  /-- The wave-ended notice of a STOP has been taken (09 R166). -/
  waveEnded : Bool
  /-- The feed-stopped notice of a STOP has been taken (09 R166). -/
  feedStopped : Bool
  /-- The Wave Controller's power-down report has been taken (10 R174). -/
  waveDone : Bool
  /-- The Feed Distributor's power-down report has been taken (10 R174). -/
  feedDone : Bool
  /-- The blocks whose report of a CLEAR is still awaited (09 R167). -/
  clearing : List Block
  green : Lamp
  amber : Lamp
  red : Lamp
  deriving DecidableEq, Repr

/-! ## The part -/

/-- What put the part into reset (09, terms; R168). -/
inductive ResetCause where
  | powerOn | line | command
  deriving DecidableEq, Repr

/-- Whether the part has no power, is held in reset, or acts. -/
inductive Power where
  | off
  | held (cause : ResetCause)
  | on
  deriving DecidableEq, Repr

/-- The state of the part. -/
structure State where
  /-- The commands that wait, first in first out. -/
  pending : List Instr
  /-- The messages the blocks have sent and that have not been taken, oldest first (log 5). -/
  mail : List Instr
  power : Power
  /-- The level of the test strap found at the last reset release, true for high (09 R162, log 15). -/
  strap : Bool
  /-- The store was found to fail while the part is held in reset, so that its release cannot read the job mark (09 R172,
  log 60). -/
  storeFails : Option StoreFailure
  /-- The model's own field (logs 15, 75): how many RESETs have been carried out, which numbers the free values that their
  releases find: the level of the test strap, and whether the store still fails. -/
  resetReads : Nat
  tmb : Tmb
  ssu : Ssu
  vdu : Vdu
  wvc : Wvc
  lbp : Lbp
  ltr : Ltr
  fds : Fds
  exc : Exc
  psv : Psv
  /-- The bytes of the Exchange Window, strictly rising, none 0 (log 2). -/
  window : List Host.Cell
  deriving DecidableEq, Repr

/-! ## Reset -/

/-- The standby values (01 R1): no station fitted, every other field the lowest of its range. -/
def RigValues.standby : RigValues where
  fitted := 0
  strokeLength := 20
  formHeight := 900
  targetFill := 50
  maxFill := 100
  minLayer := 50
  levelBand := 1
  minActive := 1
  driveTimeout := 2
  settleTimeout := 2
  strayLimit := 1
  rowTime := 1
  debounceScans := 1
  riseRamp := 0
  onLevel := 1
  fallRamp := 0
  restLevel := 0
  probeTolerance := 2
  freshnessLimit := 1
  probeSettle := 2
  recoveryWindow := 10
  mergeWindow := 0
  maxPortion := 50
  publishInterval := 1
  areas := Vector.replicate 16 5
  mixes := Vector.replicate 4 ⟨600, 60, 300, 600⟩

/-- A station of the Stroke Sensing Unit after reset (02 R32). -/
def SsuStation.reset : SsuStation where
  level := .opened
  run := 0
  runFirst := 0
  window := none
  armedExtend := false
  armedRetract := false
  queue := []
  overflow := false
  strays := 0

/-- The Stroke Sensing Unit after reset, with the row time of the rig values then in force (02 R32). -/
def Ssu.reset (rowTime : Nat) (view : PartState) : Ssu where
  stations := Vector.replicate 64 SsuStation.reset
  scan := .running
  position := .row 0
  adopting := true
  rowTime := rowTime
  view := view

/-- A channel after reset (03 R47). -/
def Channel.reset : Channel where
  state := .idle
  level := 0
  target := 0
  ramp := none
  coilFault := false
  testRun := 0

/-- The Valve Drive Unit after reset (03 R47). -/
def Vdu.reset (view : PartState) : Vdu where
  channels := Vector.replicate 64 Channel.reset
  quiet := true
  pumpEnable := false
  view := view

/-- A station record of a table that has not been set up (04 R50). -/
def StationRecord.blank : StationRecord where
  service := .absent
  count := 0
  marks := 0
  cleanRun := 0
  inDoubt := false
  lastStroke := none
  events := 0
  retirePending := none

/-- The per-wave items cleared (04 R48). -/
def WaveItem.clear : WaveItem where
  participant := false
  awaited := false
  reportedExtend := false
  reportedRetract := false
  lateExtend := false
  unreported := false
  verdict := none
  retracted := false
  cleanDrive := false
  cleanSettle := false
  marked := false

/-- The default directive values (04 R53). -/
def ClimbValues.defaults : ClimbValues where
  runRequest := .hold
  riseRate := 0
  topElevation := 0
  trims := Vector.replicate 64 0

/-- The Wave Controller after a cold start (04 R50). -/
def Wvc.cold (view : PartState) : Wvc where
  table := Vector.replicate 64 StationRecord.blank
  wave := Vector.replicate 64 WaveItem.clear
  waveNumber := 0
  values := ClimbValues.defaults
  climb := .held
  holds := 1
  dwell := Config.dwellLimit
  permission := false
  driveStart := 0
  driveTimer := none
  settleTimer := none
  fallTimer := none
  ending := none
  drains := []
  countsDirty := false
  recoveryWindows := []
  view := view

/-- The Level Bus Poller after reset (05 R96); the settle hold and PROBE_BUS as given. -/
def Lbp.reset (settleHold : Option Word) (probeBus : Bool) (view : PartState) : Lbp where
  readings := Vector.replicate 64 none
  missRuns := Vector.replicate 64 0
  episodes := Vector.replicate 64 false
  pollPosition := none
  roundHeard := false
  transaction := .idle
  lastEnd := none
  bus := []
  incoming := none
  motion := false
  settleHold := settleHold
  probeBus := probeBus
  view := view

/-- The Layer Tracker after a cold start (06 R116). -/
def Ltr.cold (view : PartState) : Ltr where
  stack := Vector.replicate 16 []
  openings := Vector.replicate 16 []
  bottoms := Vector.replicate 16 0
  events := Vector.replicate 16 0
  age := 0
  fill := 0
  feedMask := 0
  plan := none
  lastView := none
  view := view

/-- The Feed Distributor after a cold start (07 R143). -/
def Fds.cold (view : PartState) : Fds where
  records := Vector.replicate 48 none
  line := []
  lastPost := 0
  gate := .idle
  plan := .none
  flow := 0
  paused := false
  owesReport := false
  view := view

/-- The Exchange Controller of a new part after a cold start, at fine time 0 (08 R160). -/
def Exc.cold (view : PartState) : Exc where
  orderImages := Vector.replicate 16 .free
  batchImages := Vector.replicate 48 .free
  orderHanded := Vector.replicate 16 false
  batchHanded := Vector.replicate 48 false
  candidates := []
  edition := 0
  lastRejected := 0
  badField := 0
  statusEdition := 0
  misuse := none
  misuseEvent := false
  directiveBad := false
  scanTimer := some 0
  publishTimer := some ⟨0, 1000⟩
  deferred := false
  publication := none
  postscaler := 0
  clearStage := .none
  attn := 0
  attnMask := 0x3F
  attnPace := 1
  attnLine := false
  view := view

/-- CONTROL at power-on and at a line reset in RESTART mode: no command, DONE, detail 0, flags clear (09 R163). -/
def Control.reset : Control where
  code := 0
  outcome := .done
  detail := 0
  waiting := false
  dropped := false

/-- A dark lamp. -/
def Lamp.off : Lamp where
  pattern := .dark
  lit := false
  since := 0

/-- The Part Supervisor of a new part after a cold start (09 R162 to R165, 10). -/
def Psv.cold : Psv where
  state := .config
  jobMark := false
  rig := RigValues.standby
  snapshot := none
  control := Control.reset
  lineMode := .restart
  bench := .none
  benchPhase := .none
  haltCause := none
  rigCheck := none
  monitor := .normal
  supplyGood := true
  goodTimer := none
  deferredReset := none
  dying := false
  recovery := .none
  recoveryTimer := none
  lastRecoveryEnd := none
  repeatedOutage := false
  waveEnded := false
  feedStopped := false
  waveDone := false
  feedDone := false
  clearing := []
  green := ⟨.slow, true, 0⟩
  amber := Lamp.off
  red := Lamp.off

/-- The part right after reset (log 1): a new part, powered and released from reset with the test strap low, which is
a cold start into CONFIG (09 R162), each block having taken the values its chapter gives. The publication that a cold
start makes at once (08 R160) is the one thing still to do. -/
def State.reset : State where
  pending := []
  mail := [.publishTimerExpiry]
  power := .on
  strap := false
  storeFails := none
  resetReads := 0
  tmb := { fineTime := 0, siteSeconds := 0, clockValid := true, savedWord := none, clockLost := false }
  ssu := Ssu.reset 1 .config
  vdu := Vdu.reset .config
  wvc := Wvc.cold .config
  lbp := Lbp.reset (some 0) false .config
  ltr := Ltr.cold .config
  fds := Fds.cold .config
  exc := Exc.cold .config
  psv := Psv.cold
  window := []

/-! ## Why a step can stop -/

/-- A fault of the model. -/
inductive Fault where
  /-- Raised by HOST_WINDOW_WRITE alone: the offset names no word of the 32 KiB window, or is not aligned to a word
  (08 R144, 11). Safe: the spec gives such an access no meaning. -/
  | noSuchWord
  deriving DecidableEq, Repr

/-- A refusal of the model. -/
inductive Refusal where
  /-- Raised by an arm of `exec` alone, for a command that has no meaning yet. Safe. No arm raises it at present. -/
  | notModelled (mnemonic : String)
  deriving DecidableEq, Repr

end Sys2Proof.Machine
end

