-- ==== Sys2Proof/Machine/Lamps.lean ====
section
/-! DEFINITION. The three cabinet lamps: their patterns by the state they show, and their flashing (09 R170, R171). -/

namespace Sys2Proof.Machine

open Sys2Proof

/-- The patterns of the green, the amber and the red lamp. -/
structure LampPatterns where
  green : LampPattern
  amber : LampPattern
  red : LampPattern
  deriving DecidableEq, Repr

/-- The patterns in BENCH (R171): all steady in the lamp test, then by the bench result. -/
def benchPatterns (p : Psv) : LampPatterns :=
  match p.benchPhase, p.bench with
  | .lampTest _, _ => ⟨.steady, .steady, .steady⟩
  | _, .running => ⟨.dark, .slow, .dark⟩
  | _, .pass => ⟨.steady, .dark, .dark⟩
  | _, .clockFault => ⟨.dark, .dark, .slow⟩
  | _, .matrixFault => ⟨.dark, .dark, .fast⟩
  | _, _ => ⟨.dark, .dark, .dark⟩

/-- The amber lamp in RUN (R170). -/
def runAmber (climb : Climb) (paused : Bool) : LampPattern :=
  if climb = .held then .steady else if paused then .slow else .dark

/-- The patterns of the lamps (R170); all dark while the part has no power or is held in reset (R168). -/
def lampPatterns (s : State) : LampPatterns :=
  match s.power with
  | .on =>
    match s.psv.state with
    | .config => ⟨.slow, .dark, .dark⟩
    | .run => ⟨.steady, runAmber s.wvc.climb s.fds.paused, .dark⟩
    | .stopping => ⟨.fast, .dark, .dark⟩
    | .powerDown => ⟨.dark, .dark, .dark⟩
    | .recovery => ⟨.dark, .fast, .dark⟩
    | .halted => ⟨.dark, .dark, .steady⟩
    | .bench => benchPatterns s.psv
  | _ => ⟨.dark, .dark, .dark⟩

/-- A lamp shows a pattern: one it shows already goes on, a new one begins lit unless it is dark (log 37). -/
def Lamp.show (l : Lamp) (p : LampPattern) (at_ : Word) : Lamp :=
  if l.pattern = p then l else ⟨p, decide (p ≠ .dark), at_⟩

/-- Each lamp shows the pattern of the state it shows (R170). -/
def refreshLamps (s : State) : State :=
  let p := lampPatterns s
  { s with psv := { s.psv with
    green := s.psv.green.show p.green s.tmb.fineTime
    amber := s.psv.amber.show p.amber s.tmb.fineTime
    red := s.psv.red.show p.red s.tmb.fineTime } }

/-- How long a pattern stays lit, and how long dark, in milliseconds (R170). -/
def flashTime : LampPattern → Option Nat
  | .slow => some Config.slowFlash
  | .fast => some Config.fastFlash
  | _ => none

/-- A flashing lamp changes between lit and dark (R170). -/
def Lamp.toggle (l : Lamp) (at_ : Word) : Lamp :=
  if (flashTime l.pattern).isSome then { l with lit := !l.lit, since := at_ } else l

/-- One of the three lamps. -/
def lampOf (s : State) : LampName → Lamp
  | .green => s.psv.green
  | .amber => s.psv.amber
  | .red => s.psv.red

/-- One of the three lamps replaced. -/
def setLamp (s : State) (name : LampName) (l : Lamp) : State :=
  match name with
  | .green => { s with psv := { s.psv with green := l } }
  | .amber => { s with psv := { s.psv with amber := l } }
  | .red => { s with psv := { s.psv with red := l } }

end Sys2Proof.Machine
end

