-- ==== Sys2Proof/Machine/Memory.lean ====
section
/-! DEFINITION. The memory of the Exchange Window: bytes in one canonical form, words with the least significant byte
lowest (11 R190). -/

namespace Sys2Proof.Machine

open Sys2Proof

/-- The bytes of the Exchange Window, in rising order of offset. -/
abbrev Memory := List Host.Cell

/-- What an offset that is not listed reads as (log 2). -/
def Memory.unlisted : Byte := 0

/-- The canonical form: offsets strictly rising, and nothing listed that reads as an unlisted offset does. -/
abbrev Memory.wf (m : Memory) : Prop :=
  m.Pairwise (fun a b => a.1 < b.1) ∧ ∀ c ∈ m, c.2 ≠ Memory.unlisted

/-- The byte at an offset. -/
def readByte : Memory → Nat → Byte
  | [], _ => Memory.unlisted
  | c :: m, a => if c.1 = a then c.2 else readByte m a

/-- The memory with the byte at an offset replaced. -/
def writeByte : Memory → Nat → Byte → Memory
  | [], a, b => if b = Memory.unlisted then [] else [(a, b)]
  | c :: m, a, b =>
    if c.1 < a then c :: writeByte m a b
    else if c.1 = a then (if b = Memory.unlisted then m else (a, b) :: m)
    else if b = Memory.unlisted then c :: m else (a, b) :: c :: m

/-- The half word at an offset (11 R190). -/
def readHalf (m : Memory) (o : Nat) : BitVec 16 := readByte m (o + 1) ++ readByte m o

/-- The word at an offset (11 R190). -/
def readWord (m : Memory) (o : Nat) : Word := readHalf m (o + 2) ++ readHalf m o

/-- Byte `i` of a word, 0 the least significant. -/
def wordByte (w : Word) (i : Nat) : Byte := w.extractLsb' (8 * i) 8

/-- The memory with the word at an offset replaced (11 R190). -/
def writeWord (m : Memory) (o : Nat) (w : Word) : Memory :=
  writeByte (writeByte (writeByte (writeByte m (o + 3) (wordByte w 3)) (o + 2) (wordByte w 2)) (o + 1) (wordByte w 1))
    o (wordByte w 0)

/-- The listed bytes of a run of words laid out from an offset on. -/
def wordCells : Nat → List Word → Memory
  | _, [] => []
  | o, w :: ws =>
    ([(o, wordByte w 0), (o + 1, wordByte w 1), (o + 2, wordByte w 2), (o + 3, wordByte w 3)].filter
      fun c => c.2 != Memory.unlisted) ++ wordCells (o + 4) ws

/-- The memory with a run of words from an offset on replaced. -/
def writeWords (m : Memory) (o : Nat) (ws : List Word) : Memory :=
  (m.filter fun c => decide (c.1 < o)) ++ wordCells o ws
    ++ m.filter fun c => decide (o + 4 * ws.length ≤ c.1)

/-- The memory with every byte from `o` on, `n` of them, written 0. -/
def clearBytes (m : Memory) (o n : Nat) : Memory :=
  m.filter fun c => decide (c.1 < o) || decide (o + n ≤ c.1)

end Sys2Proof.Machine
end

