-- ==== Sys2Proof/Machine/Tables.lean ====
section
/-! DEFINITION. Tables of fixed size: building one, changing one entry, changing all, and asking about all. -/

namespace Sys2Proof.Machine

open Sys2Proof

/-- The table whose entry `i` is `f i`. -/
def tabulate {α : Type} {n : Nat} (f : Fin n → α) : Table α n := Vector.ofFn f

/-- The table with one entry replaced. -/
def put {α : Type} {n : Nat} (t : Table α n) (i : Fin n) (x : α) : Table α n := t.set i.1 x i.2

/-- The table with one entry changed by `f`. -/
def modify {α : Type} {n : Nat} (t : Table α n) (i : Fin n) (f : α → α) : Table α n := put t i (f t[i])

/-- The table with every entry changed by `f`. -/
def mapAll {α β : Type} {n : Nat} (t : Table α n) (f : α → β) : Table β n := tabulate fun i => f t[i]

/-- Some entry has the property. -/
def anyOf {α : Type} {n : Nat} (t : Table α n) (p : α → Bool) : Bool := (List.finRange n).any fun i => p t[i]

/-- Every entry has the property. -/
def allOf {α : Type} {n : Nat} (t : Table α n) (p : α → Bool) : Bool := (List.finRange n).all fun i => p t[i]

end Sys2Proof.Machine
end

