-- ==== Sys2Proof/Machine/Ops.lean ====
section
/-! DEFINITION. What every meaning rests on: acting or not, taking and sending messages, the clocks, and which
stations and sectors the rig has (01). -/

namespace Sys2Proof.Machine

open Sys2Proof

/-- What a command answers. -/
abbrev Result := Host.Outcome State Fault Refusal

/-! ## Acting -/

/-- The part has power and is released from reset (09 R162, R168). -/
def acting (s : State) : Bool :=
  match s.power with
  | .on => true
  | _ => false

/-- A command of the host, of the field or of a timer: it has its effect while the part acts, none otherwise (log 31).
Each lamp then shows the state as it has become (09 R170). -/
def whileActing (f : State → State) (s : State) : Result := .next (if acting s then refreshLamps (f s) else s)

/-- The state with a message taken from those that wait, if it waits (log 5). -/
def took (c : Instr) (s : State) : State := { s with mail := s.mail.erase c }

/-- A message of one block to another: it is taken and has its effect while the part acts, none otherwise. -/
def taking (c : Instr) (f : State → State) (s : State) : Result := whileActing (fun t => f (took c t)) s

/-! ## Sending -/

/-- A message sent (log 5). -/
def send (c : Instr) (s : State) : State := { s with mail := s.mail ++ [c] }

/-- Messages sent, in this order. -/
def sendAll (cs : List Instr) (s : State) : State := { s with mail := s.mail ++ cs }

/-- A request to set an attention source (08 R158). -/
def requestAttn (source : AttnSource) (s : State) : State := send (.attentionSetRequest source) s

/-- An effect that depends on a condition. -/
def when (b : Bool) (f : State → State) (s : State) : State := if b then f s else s

/-! ## Clocks (01) -/

/-- Fine time now (01 R10). -/
def now (s : State) : Word := s.tmb.fineTime

/-- Site seconds now (01 R11). -/
def site (s : State) : Word := s.tmb.siteSeconds

/-- The later stamp minus the earlier, modulo 2³² (01 R10, R16). -/
def since (later earlier : Word) : Nat := (later - earlier).toNat

/-- The timer has run its length. -/
def Timer.isDue (t : Timer) (at_ : Word) : Bool := decide (t.length ≤ since at_ t.start)

/-! ## Stations and sectors (01 R3) -/

/-- The station is fitted under a mask (01 R3). -/
def fittedIn (mask : BitVec 64) (st : Station) : Bool := mask.getLsbD st.1

/-- The station is fitted under the rig values in force. -/
def fitted (s : State) (st : Station) : Bool := fittedIn s.psv.rig.fitted st

/-- Every station number, in ascending order. -/
def allStations : List Station := List.finRange 64

/-- Every sector number, in ascending order. -/
def allSectors : List Sector := List.finRange 16

/-- Station `j` of a sector (01 R3). -/
def stationAt (k : Sector) (j : Fin 4) : Station := ⟨4 * k.1 + j.1, by omega⟩

/-- The four stations of a sector (01 R3). -/
def stationsOf (k : Sector) : List Station := (List.finRange 4).map (stationAt k)

/-- The sector a station stands in (01 R3). -/
def sectorOf (st : Station) : Sector := ⟨st.1 / 4, by omega⟩

/-- The sector has a fitted station under a mask (01 R3). -/
def usedIn (mask : BitVec 64) (k : Sector) : Bool := (stationsOf k).any (fittedIn mask)

/-- The sector is used under the rig values in force. -/
def used (s : State) (k : Sector) : Bool := usedIn s.psv.rig.fitted k

/-- The used sectors, in ascending order. -/
def usedSectors (s : State) : List Sector := allSectors.filter (used s)

/-! ## Masks -/

/-- The mask with bit `i` set. -/
def bit (w i : Nat) : BitVec w := (1#w) <<< i

/-- The mask with bit `i` set beside what it has. -/
def setBit {w : Nat} (m : BitVec w) (i : Nat) : BitVec w := m ||| bit w i

/-- The mask with bit `i` cleared. -/
def clearBit {w : Nat} (m : BitVec w) (i : Nat) : BitVec w := m &&& ~~~ bit w i

/-- The mask with bit `i` set or cleared. -/
def assignBit {w : Nat} (m : BitVec w) (i : Nat) (b : Bool) : BitVec w := if b then setBit m i else clearBit m i

/-- A truth value as a number. -/
def flagNat (b : Bool) : Nat := if b then 1 else 0

end Sys2Proof.Machine
end

