-- ==== Sys2Proof/Machine/Codes.lean ====
section
/-! DEFINITION. The code tables and set positions of the Data Layouts chapter (11, Codes; R190, R191). -/

namespace Sys2Proof.Machine

open Sys2Proof

/-! ## Positions in sets -/

/-- Hold reasons (11, Codes). -/
def holdDirective : Nat := 0
/-- Hold reason TOP. -/
def holdTop : Nat := 1
/-- Hold reason AGE. -/
def holdAge : Nat := 2
/-- Hold reason FILL. -/
def holdFill : Nat := 3
/-- Hold reason SHORT. -/
def holdShort : Nat := 4
/-- Hold reason RESUME. -/
def holdResume : Nat := 5

/-- Station events (11, Codes; 04 R51). -/
def evMissedExtend : BitVec 9 := bit 9 0
/-- Station event MISSED_RETRACT. -/
def evMissedRetract : BitVec 9 := bit 9 1
/-- Station event CHATTER. -/
def evChatter : BitVec 9 := bit 9 2
/-- Station event STRAY. -/
def evStray : BitVec 9 := bit 9 3
/-- Station event DEVIATION. -/
def evDeviation : BitVec 9 := bit 9 4
/-- Station event COIL. -/
def evCoil : BitVec 9 := bit 9 5
/-- Station event DOUBT. -/
def evDoubt : BitVec 9 := bit 9 6
/-- Station event BARRED. -/
def evBarred : BitVec 9 := bit 9 7
/-- Station event PROBE_LOST. -/
def evProbeLost : BitVec 9 := bit 9 8

/-- Sector events (11, Codes; 06 R113). -/
def evColdJoint : BitVec 4 := bit 4 0
/-- Sector event OPENING_SET. -/
def evOpeningSet : BitVec 4 := bit 4 1
/-- Sector event OPENING_MISSED. -/
def evOpeningMissed : BitVec 4 := bit 4 2
/-- Sector event STACK_FULL. -/
def evStackFull : BitVec 4 := bit 4 3

/-- The position of an attention source (11, Port Registers). -/
def attnPosition : AttnSource → Nat
  | .batch => 0
  | .order => 1
  | .event => 2
  | .hold => 3
  | .publish => 4
  | .fault => 5

/-! ## Codes the part shows -/

/-- Part state. -/
def partStateCode : PartState → Nat
  | .bench => 1
  | .config => 2
  | .run => 3
  | .stopping => 4
  | .powerDown => 5
  | .recovery => 6
  | .halted => 7

/-- Climb state. -/
def climbCode : Climb → Nat
  | .held => 0
  | .dwell => 1
  | .drive => 2
  | .settle => 3

/-- Service state. -/
def serviceCode : ServiceState → Nat
  | .absent => 0
  | .active => 1
  | .barred => 2
  | .retired => 3

/-- Batch slot state. -/
def batchStateCode : BatchState → Word
  | .free => 0
  | .posted => 1
  | .lined => 2
  | .pouring => 3
  | .casting => 4
  | .spent => 5
  | .refused => 6

/-- The batch slot state a word names. -/
def batchStateOf (w : Word) : Option BatchState :=
  match w.toNat with
  | 0 => some .free
  | 1 => some .posted
  | 2 => some .lined
  | 3 => some .pouring
  | 4 => some .casting
  | 5 => some .spent
  | 6 => some .refused
  | _ => none

/-- Order slot state. -/
def orderStateCode : OrderState → Word
  | .free => 0
  | .posted => 1
  | .taken => 2
  | .answered => 3

/-- The order slot state a word names. -/
def orderStateOf (w : Word) : Option OrderState :=
  match w.toNat with
  | 0 => some .free
  | 1 => some .posted
  | 2 => some .taken
  | 3 => some .answered
  | _ => none

/-- Refusal reason. -/
def reasonCode : Reason → Word
  | .none => 0
  | .stale => 1
  | .badVolume => 2
  | .badAge => 3
  | .badMix => 4
  | .badMask => 5
  | .tooOld => 6
  | .cancelled => 7

/-- Waste cause. -/
def wasteCauseCode : WasteCause → Word
  | .none => 0
  | .aged => 1
  | .cancelled => 2
  | .remainder => 3

/-- Portion disposition. -/
def dispositionCode : Disposition → Nat
  | .new => 1
  | .merged => 2

/-- Order outcome; 0 is none. -/
def orderOutcomeCode : Option OrderOutcome → Word
  | none => 0
  | some .done => 1
  | some .badKind => 2
  | some .badArgument => 3
  | some .wrongState => 4
  | some .busy => 5
  | some .notCancellable => 6
  | some .past => 7
  | some .full => 8

/-- Command (09 R164). -/
def commandCode : Command → Byte
  | .start => 1
  | .stop => 2
  | .clear => 3
  | .reset => 4
  | .lineModeRestart => 5
  | .lineModeHold => 6

/-- Command outcome. -/
def commandOutcomeCode : CommandOutcome → Nat
  | .done => 0
  | .waiting => 1
  | .wrongState => 2
  | .busy => 3
  | .rigInvalid => 4
  | .rigChanged => 5
  | .unknown => 6

/-- Bench result. -/
def benchCode : BenchResult → Nat
  | .none => 0
  | .running => 1
  | .pass => 2
  | .clockFault => 3
  | .matrixFault => 4
  | .storeFault => 5

/-- Halt cause; 0 is none. -/
def haltCode : Option StoreFailure → Nat
  | none => 0
  | some .read => 1
  | some .write => 2

/-! ## Words the part writes -/

/-- A word of four bytes, byte 0 first (11 R190). -/
def bytesWord (b0 b1 b2 b3 : Nat) : Word := BitVec.ofNat 8 b3 ++ BitVec.ofNat 8 b2 ++ BitVec.ofNat 8 b1 ++ BitVec.ofNat 8 b0

/-- An unsigned count as a word. -/
def natWord (n : Nat) : Word := BitVec.ofNat 32 n

/-- A signed quantity as a word, in two's complement (11 R190). -/
def intWord (z : Int) : Word := BitVec.ofInt 32 z

/-- A word field that is absent (11 R190). -/
def absentWord : Word := 0xFFFFFFFF#32

/-- A byte field that is absent (11 R190). -/
def absentByte : Nat := 0xFF

end Sys2Proof.Machine
end

