-- ==== Sys2Proof/Machine/Wave.lean ====
section
/-! DEFINITION. The Wave Controller: the Jack Table, the hold reasons, the waves, marks and bars, and the station
orders (04; 10 R176, R177). -/

namespace Sys2Proof.Machine

open Sys2Proof

/-! ## The Jack Table -/

/-- The record of a station (R48). -/
def recordOf (s : State) (st : Station) : StationRecord := s.wvc.table[st]

/-- What is kept of a station for the wave in flight (R48). -/
def itemOf (s : State) (st : Station) : WaveItem := s.wvc.wave[st]

/-- The state with a station's record replaced. -/
def setRecord (s : State) (st : Station) (r : StationRecord) : State :=
  { s with wvc := { s.wvc with table := put s.wvc.table st r } }

/-- The state with a station's per-wave items replaced. -/
def setItem (s : State) (st : Station) (i : WaveItem) : State :=
  { s with wvc := { s.wvc with wave := put s.wvc.wave st i } }

/-- The station is ACTIVE (R49). -/
def isActive (s : State) (st : Station) : Bool := decide ((recordOf s st).service = .active)

/-- The ACTIVE stations, in ascending order, in which like messages to several of them go out (DESIGN CHOICE, log 78). -/
def activeStations (s : State) : List Station := allStations.filter (isActive s)

/-- The ACTIVE stations of a sector. -/
def activeIn (s : State) (k : Sector) : List Station := (stationsOf k).filter (isActive s)

/-- The effective count of a station (01 R13). -/
def effectiveCount (s : State) (st : Station) : Int := ((recordOf s st).count : Int) - s.wvc.values.trims[st]

/-- The least of a list of integers, none for an empty list. -/
def leastOf : List Int → Option Int
  | [] => none
  | z :: zs => match leastOf zs with
    | none => some z
    | some m => some (min z m)

/-- The greatest of a list of integers, none for an empty list. -/
def greatestOf : List Int → Option Int
  | [] => none
  | z :: zs => match greatestOf zs with
    | none => some z
    | some m => some (max z m)

/-- The minimum effective count of the ACTIVE stations (R60). -/
def minEffective (s : State) : Option Int := leastOf ((activeStations s).map (effectiveCount s))

/-- The maximum effective count of the ACTIVE stations (R52). -/
def maxEffective (s : State) : Option Int := greatestOf ((activeStations s).map (effectiveCount s))

/-- Station events are set; attention source EVENT is asked for, once for them all, when one was clear (R51, log 54). -/
def addEvents (st : Station) (events : BitVec 9) (s : State) : State :=
  let r := recordOf s st
  if r.events ||| events = r.events then s
  else requestAttn .event (setRecord s st { r with events := r.events ||| events })

/-! ## Climb state and hold reasons (R54, R58, R59) -/

/-- The climb takes a state; entering or leaving HELD asks for attention source HOLD (R58). -/
def setClimb (c : Climb) (s : State) : State :=
  let t : State := { s with wvc := { s.wvc with climb := c } }
  if (s.wvc.climb = .held) = (c = .held) then t else requestAttn .hold t

/-- A hold reason joins the set; a climb in DWELL becomes HELD at once (R59). -/
def addHold (position : Nat) (s : State) : State :=
  let t : State := { s with wvc := { s.wvc with holds := setBit s.wvc.holds position } }
  if s.wvc.climb = .dwell then setClimb .held t else t

/-- RESUME is in the hold reason set. -/
def resumeHeld (s : State) : Bool := s.wvc.holds.getLsbD holdResume

/-- The sector has fewer ACTIVE stations than the minimum (R57). -/
def shortIn (s : State) (k : Sector) : Bool := used s k && decide ((activeIn s k).length < s.psv.rig.minActive)

/-- SHORT joins when a station's sector has been left short (R59). -/
def evaluateShort (st : Station) (s : State) : State := when (shortIn s (sectorOf st)) (addHold holdShort) s

/-- A wave is in flight. -/
def inWave (s : State) : Bool := decide (s.wvc.climb = .drive) || decide (s.wvc.climb = .settle)

/-- The station is a participant of the wave in flight. -/
def isParticipant (s : State) (st : Station) : Bool := inWave s && (itemOf s st).participant

/-- The participants of the wave in flight, in ascending order. Like messages to several of them (the drains, CLOSE,
CLOSE_WINDOW and REST of a phase end) go out in this order, and the answers come to be judged in it; R63 and R67 name no
order of stations (DESIGN CHOICE, log 78). -/
def participants (s : State) : List Station := allStations.filter (isParticipant s)

/-- The await set of the present phase is empty (R62, R65). -/
def awaitEmpty (s : State) : Bool := !anyOf s.wvc.wave fun i => i.participant && i.awaited

/-! ## Counts (R64, R70) -/

/-- Whether a drain may credit a stroke. -/
def DrainPurpose.credits : DrainPurpose → Bool
  | .discard => false
  | _ => true

/-- The counts changed notice owed is sent, once no phase end and no drain that may credit a stroke is open
(R70, log 24). -/
def flushCounts (s : State) : State :=
  if s.wvc.countsDirty && s.wvc.ending.isNone && !(s.wvc.drains.any fun d => d.purpose.credits) then
    send .countsChanged { s with wvc := { s.wvc with countsDirty := false } }
  else s

/-- A counts changed notice is owed (R70). -/
def oweCounts (s : State) : State := { s with wvc := { s.wvc with countsDirty := true } }

/-- The time of the first EXTEND record (R64). -/
def firstExtend (records : List EdgeRecord) : Option Word :=
  (records.find? fun e => decide (e.kind = .extend)).map EdgeRecord.time

/-- A stroke is credited, with its duration from the DRIVE start (R48, R64). An edge that lies before the start has a
difference modulo 2³² beyond the greatest duration held (log 51). -/
def creditStroke (st : Station) (edgeTime : Word) (s : State) : State :=
  let r := recordOf s st
  let t := setRecord s st { r with count := min Config.countLimit (r.count + 1),
                                   lastStroke := some (min Config.countLimit (since edgeTime s.wvc.driveStart)) }
  if r.count < Config.countLimit then oweCounts t else t

/-! ## Drains, phase ends and bars -/

/-- DRAIN_QUEUE is sent, the answer being awaited for a purpose. -/
def sendDrain (purpose : DrainPurpose) (st : Station) (s : State) : State :=
  send (.drainQueue st) { s with wvc := { s.wvc with drains := s.wvc.drains ++ [⟨st, purpose⟩] } }

/-- DRAIN_QUEUE and then CLOSE_WINDOW are sent. -/
def sendDrainClose (purpose : DrainPurpose) (st : Station) (s : State) : State :=
  send (.closeWindow st) (sendDrain purpose st s)

/-- An operation on every station of a list, in order. -/
def forEach (sts : List Station) (f : Station → State → State) (s : State) : State :=
  sts.foldl (fun t st => f st t) s

/-- The await flag of every station is changed by `f`. -/
def mapItems (f : WaveItem → WaveItem) (s : State) : State :=
  { s with wvc := { s.wvc with wave := mapAll s.wvc.wave f } }

/-- No drain of a purpose is outstanding. -/
def noDrain (purpose : DrainPurpose) (s : State) : Bool := !(s.wvc.drains.any fun d => decide (d.purpose = purpose))

/-- The SETTLE await set (R65), with the late EXTENDs that have joined it (R66). -/
def WaveItem.awaitSettle (i : WaveItem) : WaveItem :=
  { i with awaited := i.awaited || (i.participant && decide (i.verdict = some .extended) && !i.retracted) }

/-- What follows when every DRIVE answer has been judged (R63). -/
def finishDriveEnd (s : State) : State :=
  let t := mapItems WaveItem.awaitSettle { s with wvc := { s.wvc with ending := none } }
  let u := sendAll ((participants t).map Instr.closeValve) t
  flushCounts { u with wvc := { u.wvc with
    settleTimer := some ⟨now u, 1000 * u.psv.rig.settleTimeout⟩,
    fallTimer := some ⟨now u, u.psv.rig.fallRamp⟩ } }

/-- DRIVE ends: the climb is SETTLE and each remaining participant is drained for judgement (R63). A participant that
has not reported is noted when a STOP or a line hold ends the phase (R77). -/
def beginDriveEnd (woundDown : Bool) (s : State) : State :=
  let t := mapItems (fun i => { i with awaited := false, unreported := woundDown && i.participant && i.awaited })
    { s with wvc := { s.wvc with climb := .settle, driveTimer := none, ending := some .driveEnd } }
  let u := forEach (participants t) (sendDrain .driveEnd) t
  if noDrain .driveEnd u then finishDriveEnd u else u

/-- The station is taken out of service as RETIRED (R81). -/
def carryOutRetire (st : Station) (s : State) : State :=
  let r := recordOf s st
  let t := setRecord s st { r with service := .retired, marks := 0, cleanRun := 0 }
  if r.service = .active then
    oweCounts (evaluateShort st (send (.offValve st) (sendDrainClose .discard st t)))
  else evaluateShort st t

/-- A deferred RETIRE is carried out and its outcome handed over (R82). -/
def carryOutDeferred (st : Station) (s : State) : State :=
  match (recordOf s st).retirePending with
  | none => s
  | some slot =>
    send (.orderOutcome slot (.outcome .done 0))
      (carryOutRetire st (setRecord s st { recordOf s st with retirePending := none }))

/-- Every deferred RETIRE is carried out (R82), and answered, in ascending station number; the spec names no order among
several (DESIGN CHOICE, log 79). -/
def carryOutAllDeferred (s : State) : State := forEach allStations carryOutDeferred s

/-- A participant's wave was clean (R72). -/
def WaveItem.clean (i : WaveItem) : Bool :=
  i.cleanDrive && i.cleanSettle && !i.marked && decide (i.verdict ≠ some .inDoubt)

/-- A clean wave in a station's record (R72). -/
def StationRecord.cleanWave (r : StationRecord) : StationRecord :=
  if Config.cleanLimit ≤ r.cleanRun + 1 then { r with cleanRun := 0, marks := r.marks - 1 }
  else { r with cleanRun := r.cleanRun + 1 }

/-- A remaining participant's clean run is updated (R72). -/
def updateClean (st : Station) (s : State) : State :=
  if (itemOf s st).clean then setRecord s st (recordOf s st).cleanWave else s

/-- The climb after the wave, by the part state at SETTLE end (R69). Where a STOP has been taken and its WAVE_STOP is still on
its way, the climb is HELD, and the WAVE_STOP tells the supervisor (R54, log 62). -/
def climbAfterWave (s : State) : State :=
  match s.wvc.view with
  | .run => setClimb (if s.psv.state = .run ∧ s.wvc.holds = 0 then .dwell else .held) s
  | .stopping => send .waveEnded (setClimb .held s)
  | _ => setClimb .held s

/-- The valve command of SETTLE end: OFF for a station with a retire pending, REST otherwise (R67). -/
def settleCommand (s : State) (st : Station) : Instr :=
  if (recordOf s st).retirePending.isSome then .offValve st else .restValve st

/-- What follows when every SETTLE answer has been judged (R67). -/
def finishSettleEnd (s : State) : State :=
  let ps := participants s
  let t := sendAll (ps.map Instr.closeWindow ++ ps.map (settleCommand s)) { s with wvc := { s.wvc with ending := none } }
  climbAfterWave (flushCounts (carryOutAllDeferred (forEach ps updateClean t)))

/-- SETTLE ends: the motion-off notice goes out and each remaining participant is drained for judgement (R67,
05 R91, log 25). -/
def beginSettleEnd (s : State) : State :=
  let t := send .motionOffNotice { s with wvc := { s.wvc with
    settleTimer := none, fallTimer := none, ending := some .settleEnd } }
  let u := forEach (participants t) (sendDrain .settleEnd) t
  if noDrain .settleEnd u then finishSettleEnd u else u

/-- A phase whose await set has become empty ends (R62, R65). -/
def checkPhase (s : State) : State :=
  if s.wvc.ending.isSome then s
  else match s.wvc.climb with
    | .drive => if awaitEmpty s then beginDriveEnd false s else s
    | .settle => if awaitEmpty s && s.wvc.fallTimer.isNone then beginSettleEnd s else s
    | _ => s

/-- A station's window at a bar: a participant leaves the wave and is drained, its window staying open until the answer has
been acted on (R74, log 76); another station is drained and closed, the answer being discarded (R73). -/
def barStops (st : Station) (s : State) : State :=
  if isParticipant s st then
    let t := setItem s st { itemOf s st with participant := false, awaited := false }
    sendDrain (if s.wvc.climb = .drive then .barDrive else .barSettle) st t
  else sendDrainClose .discard st s

/-- A bar of an ACTIVE station with the events of its cause, the counts changed notice being owed (R73). -/
def barOwing (events : BitVec 9) (st : Station) (s : State) : State :=
  let t := addEvents st (events ||| evBarred) (setRecord s st { recordOf s st with service := .barred })
  oweCounts (evaluateShort st (send (.offValve st) (barStops st t)))

/-- A bar, and the end of a phase it leaves with nothing to wait for (R73, R74). -/
def bar (events : BitVec 9) (st : Station) (s : State) : State := flushCounts (checkPhase (barOwing events st s))

/-- A mark due to a station, with the events named with it (R71). -/
def giveMark (events : BitVec 9) (st : Station) (s : State) : State :=
  let r := recordOf s st
  if r.service = .active then
    let t := setRecord s st { r with marks := min Config.markLimit (r.marks + 1), cleanRun := 0 }
    let u := if isParticipant t st then setItem t st { itemOf t st with marked := true } else t
    let v := addEvents st events u
    if Config.markLimit ≤ r.marks + 1 then bar events st v else v
  else addEvents st events s

/-! ## Judgements (R64, R68, R77) -/

/-- The records hold an EXTEND. -/
def hasExtend (records : List EdgeRecord) : Bool := records.any fun e => decide (e.kind = .extend)

/-- The answer is one record of a kind, with the overflow flag clear. -/
def isOne (kind : EdgeKind) (records : List EdgeRecord) (overflow : Bool) : Bool :=
  match records with
  | [e] => decide (e.kind = kind) && !overflow
  | _ => false

/-- The records end with a RETRACT (R64). -/
def endsRetracted (records : List EdgeRecord) : Bool :=
  match records.getLast? with
  | some e => decide (e.kind = .retract)
  | none => false

/-- The in-doubt flag and the event DOUBT are set (R77, 10 R176). -/
def setDoubt (st : Station) (s : State) : State :=
  addEvents st evDoubt (setRecord s st { recordOf s st with inDoubt := true })

/-- The stroke of the first EXTEND of an answer is credited (R64). -/
def creditFirst (st : Station) (records : List EdgeRecord) (s : State) : State :=
  match firstExtend records with
  | some t => creditStroke st t s
  | none => s

/-- The DRIVE judgement of a participant (R64, R77). -/
def judgeDrive (st : Station) (records : List EdgeRecord) (overflow : Bool) (s : State) : State :=
  let i := { itemOf s st with retracted := endsRetracted records }
  if hasExtend records then
    let t := creditFirst st records (setItem s st { i with
      verdict := some .extended, cleanDrive := isOne .extend records overflow })
    if isOne .extend records overflow then t else giveMark evChatter st t
  else if i.unreported then
    setDoubt st (setItem s st { i with verdict := some .inDoubt })
  else
    giveMark (if records.isEmpty then evMissedExtend else evMissedExtend ||| evChatter) st
      (setItem s st { i with verdict := some .missing })

/-- A late stroke is credited, and clears the in-doubt flag of an IN_DOUBT participant (R68); a MISSING one keeps a flag
it has from an earlier wave (log 52). -/
def creditLate (st : Station) (records : List EdgeRecord) (s : State) : State :=
  let t := creditFirst st records s
  if (itemOf s st).verdict = some .inDoubt then setRecord t st { recordOf t st with inDoubt := false } else t

/-- The fault an awaited station's SETTLE answer shows: none, MISSED_RETRACT or CHATTER (R68, first three rows). -/
def awaitedFault (records : List EdgeRecord) (overflow : Bool) : BitVec 9 :=
  if isOne .retract records overflow then 0
  else if records.isEmpty && !overflow then evMissedRetract
  else evChatter

/-- The records after the first EXTEND. -/
def afterExtend (records : List EdgeRecord) : List EdgeRecord :=
  (records.dropWhile fun e => decide (e.kind ≠ .extend)).drop 1

/-- A RETRACT stands before the first EXTEND. -/
def retractFirst (records : List EdgeRecord) : Bool :=
  match records with
  | [] => false
  | e :: _ => decide (e.kind = .retract)

/-- The faults a late stroke's answer shows (R68). -/
def lateFault (records : List EdgeRecord) (overflow : Bool) : BitVec 9 :=
  awaitedFault (afterExtend records) overflow
    ||| (if retractFirst records || overflow then evChatter else 0)

/-- A mark with the events of a judgement, if it names any (R71). -/
def markIf (events : BitVec 9) (st : Station) (s : State) : State := if events = 0 then s else giveMark events st s

/-- The SETTLE judgement of a participant (R68). -/
def judgeSettle (st : Station) (records : List EdgeRecord) (overflow : Bool) (s : State) : State :=
  let i := itemOf s st
  match i.verdict with
  | some .extended =>
    if i.retracted then markIf (if records.isEmpty then 0 else evChatter) st s
    else
      markIf (awaitedFault records overflow) st
        (setItem s st { i with cleanSettle := isOne .retract records overflow })
  | some _ =>
    if hasExtend records then markIf (lateFault records overflow) st (creditLate st records s)
    else markIf (if records.isEmpty then 0 else evChatter) st s
  | none => s

/-- What the answer to a drain of a power-down settles: by the verdict, none before the DRIVE judgement
(10 R176, R177). -/
def settlePowerDown (st : Station) (records : List EdgeRecord) (s : State) : State :=
  match (itemOf s st).verdict with
  | none => if hasExtend records then creditFirst st records s else setDoubt st s
  | some .extended => s
  | some _ => if hasExtend records then creditLate st records s else s

/-- What the answer to a bar's drain credits (R74). -/
def settleBar (st : Station) (records : List EdgeRecord) (s : State) : State :=
  match (itemOf s st).verdict with
  | some .extended => s
  | some _ => if hasExtend records then creditLate st records s else s
  | none => s

/-- An answer acted on by the purpose of its drain. A station drained at a phase end is judged with the others, a bar taken
since then notwithstanding (R74). -/
def actOnAnswer (purpose : DrainPurpose) (st : Station) (records : List EdgeRecord) (overflow : Bool) (s : State) :
    State :=
  match purpose with
  | .driveEnd => judgeDrive st records overflow s
  | .settleEnd => judgeSettle st records overflow s
  | .barDrive => creditFirst st records s
  | .barSettle => settleBar st records s
  | .powerDown => settlePowerDown st records s
  | .discard => s

/-- What the Wave Controller does once its power-down drains are settled (10 R176). -/
def finishPowerDown (s : State) : State :=
  let t := flushCounts (carryOutAllDeferred { s with wvc := { s.wvc with ending := none } })
  send .powerDownActionsDone (setClimb .held (addHold holdResume t))

/-- A phase end or a wind-down whose last answer has been acted on goes on. -/
def checkEnding (s : State) : State :=
  match s.wvc.ending with
  | some .driveEnd => if noDrain .driveEnd s then finishDriveEnd s else s
  | some .settleEnd => if noDrain .settleEnd s then finishSettleEnd s else s
  | some .powerDown => if noDrain .powerDown s then finishPowerDown s else s
  | none => flushCounts s

/-- The Wave Controller takes nothing in HALTED (09 R172, log 36). -/
def unlessHaltedWave (f : State → State) (s : State) : State := if s.wvc.view = .halted then s else f s

/-- CLOSE_WINDOW follows once the answer has been acted on: at the bar of a participant (R74). -/
def DrainPurpose.closesAfter : DrainPurpose → Bool
  | .barDrive | .barSettle => true
  | _ => false

/-- DRAIN_ANSWER: the oldest drain outstanding for the station is answered (R64, R68, R74). An answer to a phase end's drain
that a warning has overtaken is judged as its phase has it, its marks given (10 R177, log 71). -/
def takeDrainAnswer (st : Station) (records : List EdgeRecord) (overflow : Bool) : State → State :=
  unlessHaltedWave fun s =>
    match s.wvc.drains.find? fun d => decide (d.station = st) with
    | none => s
    | some d =>
      checkEnding (when d.purpose.closesAfter (send (.closeWindow st)) (actOnAnswer d.purpose st records overflow
        { s with wvc := { s.wvc with drains := s.wvc.drains.erase d } }))

/-! ## Notices during a wave (R62, R66, R75) -/

/-- FIRST_OF_KIND_NOTICE (R62, R66). -/
def takeFirstOfKind (st : Station) (kind : EdgeKind) : State → State :=
  unlessHaltedWave fun s =>
    let i := itemOf s st
    if i.participant then
      match s.wvc.climb, kind with
      | .drive, .extend =>
        if i.awaited then checkPhase (setItem s st { i with reportedExtend := true, awaited := false }) else s
      | .settle, .retract =>
        if i.awaited then checkPhase (setItem s st { i with reportedRetract := true, awaited := false }) else s
      | .settle, .extend =>
        if i.verdict = some .missing ∨ i.verdict = some .inDoubt then
          setItem s st { i with lateExtend := true, awaited := true } else s
      | _, _ => s
    else s

/-- The event a mark request names (R75). -/
def markEvent : MarkCause → BitVec 9
  | .stray => evStray
  | .deviation => evDeviation

/-- MARK_REQUEST (R75). -/
def takeMarkRequest (st : Station) (cause : MarkCause) : State → State :=
  unlessHaltedWave (giveMark (markEvent cause) st)

/-- COIL_FAULT_NOTICE (R75); on an ABSENT station too the event is set (log 68). -/
def takeCoilFault (st : Station) : State → State :=
  unlessHaltedWave fun s => if isActive s st then bar evCoil st s else addEvents st evCoil s

/-- EVENT_REQUEST: PROBE_LOST, whatever the service state (R75, log 68). -/
def takeEventRequest (st : Station) : State → State := unlessHaltedWave (addEvents st evProbeLost)

/-! ## Hold evaluation and DRIVE start (R55 to R61) -/

/-- The wave period in milliseconds, none while the rise rate is 0 (R55). -/
def wavePeriod (s : State) : Option Nat :=
  if s.wvc.values.riseRate = 0 then none else some (s.psv.rig.strokeLength * 3600000 / s.wvc.values.riseRate)

/-- The next start is due (R55). -/
def startDue (s : State) : Bool :=
  match wavePeriod s with
  | none => false
  | some p => decide (p ≤ s.wvc.dwell)

/-- The directive holds the climb (R57). -/
def directiveHolds (s : State) : Bool :=
  decide (s.wvc.values.runRequest = .hold) || decide (s.wvc.values.riseRate = 0)

/-- A hold evaluation begins, unless one has (R56). -/
def beginEvaluation (s : State) : State :=
  if s.wvc.permission then s else send .risePermissionRequest { s with wvc := { s.wvc with permission := true } }

/-- The Wave Controller has been told of RUN, and the part state is RUN still: hold evaluations are made and a wave may
start (R56, R58, log 62). -/
def mayClimb (s : State) : Bool := decide (s.wvc.view = .run) && decide (s.psv.state = .run)

/-- SITE_SECOND_NOTICE at the Wave Controller (R56). -/
def waveSecond (s : State) : State :=
  if mayClimb s = true ∧ (s.wvc.climb = .held ∨ (s.wvc.climb = .dwell ∧ directiveHolds s = true)) then
    beginEvaluation s else s

/-- DWELL_EXPIRY (R55, R56). -/
def takeDwellExpiry : State → State :=
  unlessHaltedWave fun s => if s.wvc.climb = .dwell ∧ s.wvc.values.riseRate ≠ 0 then beginEvaluation s else s

/-- The lowest ACTIVE station has reached the top elevation (R57). -/
def topReached (s : State) : Bool :=
  match leastOf ((activeStations s).map fun st => ((recordOf s st).count : Int)) with
  | none => false
  | some c => decide ((s.wvc.values.topElevation : Int) ≤ c * s.psv.rig.strokeLength)

/-- The hold reason set rebuilt at an answer (R57). -/
def rebuiltHolds (s : State) (age fill : BitVec 16) : BitVec 6 :=
  assignBit (assignBit (assignBit (assignBit (assignBit (assignBit 0
    holdResume (resumeHeld s))
    holdDirective (directiveHolds s))
    holdTop (topReached s))
    holdAge (decide (age ≠ 0)))
    holdFill (decide (fill ≠ 0)))
    holdShort ((usedSectors s).any (shortIn s))

/-- The station is chosen at a DRIVE start (R60). -/
def chosen (s : State) (st : Station) : Bool :=
  isActive s st &&
    match minEffective s with
    | none => false
    | some m => decide (effectiveCount s st < m + s.psv.rig.levelBand)

/-- The next wave number; it wraps to 1 (R61). -/
def nextWaveNumber (n : Word) : Word := if n + 1 = 0 then 1 else n + 1

/-- A DRIVE start (R61). -/
def startDrive (s : State) : State :=
  let ps := allStations.filter (chosen s)
  let t : State := { s with wvc := { s.wvc with
    waveNumber := nextWaveNumber s.wvc.waveNumber
    dwell := 0
    wave := tabulate fun st => { WaveItem.clear with participant := chosen s st, awaited := chosen s st }
    driveTimer := some ⟨now s, 1000 * s.psv.rig.driveTimeout⟩
    driveStart := now s } }
  setClimb .drive (sendAll (.motionOnNotice :: (ps.map fun st => Instr.openWindow st .both true) ++ ps.map Instr.openValve) t)

/-- RISE_PERMISSION_ANSWER (R57, R58). -/
def takePermission (age fill : BitVec 16) : State → State :=
  unlessHaltedWave fun s =>
    if inWave s then { s with wvc := { s.wvc with permission := false } }
    else
      let t : State := { s with wvc := { s.wvc with permission := false, holds := rebuiltHolds s age fill } }
      if mayClimb t ∧ t.wvc.holds = 0 then
        if startDue t then startDrive t else setClimb .dwell t
      else setClimb .held t

/-- DRIVE_TIMER_EXPIRY; the expiry of a cancelled timer does not come (R62, 10 R176, log 7). -/
def takeDriveTimer : State → State :=
  unlessHaltedWave fun s =>
    if s.wvc.climb = .drive ∧ s.wvc.driveTimer.isSome = true ∧ s.wvc.ending = none then beginDriveEnd false s else s

/-- SETTLE_TIMER_EXPIRY (R65). -/
def takeSettleTimer : State → State :=
  unlessHaltedWave fun s =>
    if s.wvc.climb = .settle ∧ s.wvc.settleTimer.isSome = true ∧ s.wvc.ending = none then beginSettleEnd s else s

/-- FALL_TIMER_EXPIRY (R65). -/
def takeFallTimer : State → State :=
  unlessHaltedWave fun s =>
    if s.wvc.climb = .settle ∧ s.wvc.fallTimer.isSome = true ∧ s.wvc.ending = none then
      checkPhase { s with wvc := { s.wvc with fallTimer := none } } else s

/-! ## Directive, STOP, line hold and warning -/

/-- CLIMB_DIRECTIVE: WAKE and the RESTs go out by the part state as it stands (R53, log 62). -/
def takeClimbDirective (values : ClimbValues) : State → State :=
  unlessHaltedWave fun s =>
    let t : State := { s with wvc := { s.wvc with values := values, holds := clearBit s.wvc.holds holdResume } }
    if resumeHeld s ∧ (s.psv.state = .run ∨ s.psv.state = .stopping) then
      sendAll (.wake :: ((activeStations t).filter fun st => !isParticipant t st).map Instr.restValve) t
    else t

/-- DRIVE is wound down, unless a warning is settling the wave already (R77, 10 R176). -/
def windDown (s : State) : State := if s.wvc.ending = none then beginDriveEnd true s else s

/-- WAVE_STOP (R54, R77). -/
def takeWaveStop : State → State :=
  unlessHaltedWave fun s =>
    let t : State := if s.wvc.view = .run then { s with wvc := { s.wvc with view := .stopping } } else s
    match t.wvc.climb with
    | .drive => windDown t
    | .settle => t
    | .dwell | .held => send .waveEnded (setClimb .held t)

/-- LINE_HOLD_NOTICE at the Wave Controller (R78). -/
def waveLineHold : State → State :=
  unlessHaltedWave fun s =>
    let t := addHold holdResume s
    if t.wvc.climb = .drive then windDown t else t

/-- The windows opened for RECOVERY are drained and closed, the answers being discarded (10 R177, R187). -/
def closeRecoveryWindows (s : State) : State :=
  forEach s.wvc.recoveryWindows (sendDrainClose .discard) { s with wvc := { s.wvc with recoveryWindows := [] } }

/-- WAVE_POWER_DOWN; a rise-permission request stays outstanding until its answer, and so do the drains of a phase end
(R56, 10 R176, R177, log 71). -/
def takeWavePowerDown : State → State :=
  unlessHaltedWave fun s =>
    let t := closeRecoveryWindows { s with wvc := { s.wvc with
      view := .powerDown, driveTimer := none, settleTimer := none, fallTimer := none } }
    if inWave t then
      let u := forEach (participants t) (sendDrainClose .powerDown)
        { t with wvc := { t.wvc with ending := some .powerDown } }
      if noDrain .powerDown u then finishPowerDown u else u
    else finishPowerDown t

/-! ## Part states, set-up and reset -/

/-- The commands sent at an entry into RUN (R54). -/
def enterRunCommands (s : State) : List Instr :=
  (if resumeHeld s then [] else [.wake]) ++ (activeStations s).map Instr.restValve

/-- The windows opened at an entry into RECOVERY (10 R183). -/
def openRecoveryWindows (s : State) : State :=
  sendAll ((activeStations s).map fun st => Instr.openWindow st .retractOnly false)
    { s with wvc := { s.wvc with recoveryWindows := activeStations s } }

/-- What is in hand is dropped at an entry into HALTED (09 R172). -/
def Wvc.halt (w : Wvc) : Wvc :=
  { w with permission := false, driveTimer := none, settleTimer := none, fallTimer := none, ending := none,
           drains := [], countsDirty := false, recoveryWindows := [] }

/-- The Wave Controller learns of a part state (R54, 09 R172, 10 R183). -/
def waveEnters (p : PartState) (s : State) : State :=
  let t : State := { s with wvc := { s.wvc with view := p } }
  match p with
  | .run => sendAll (enterRunCommands t) t
  | .recovery => openRecoveryWindows t
  | .halted => setClimb .held { t with wvc := t.wvc.halt }
  | _ => t

/-- The record of a station at the first START of a job (R50). -/
def StationRecord.setUp (isFitted : Bool) : StationRecord :=
  { StationRecord.blank with service := if isFitted then .active else .absent }

/-- The Jack Table is set up from a fitted mask at the START that begins a job (R50). No edition has been accepted in the
job yet, so every trim in force is 0; the other directive values stay as they are (01 R13, R53, log 64). -/
def setUpTable (mask : BitVec 64) (s : State) : State :=
  send .countsChanged { s with wvc := { s.wvc with
    table := tabulate fun st => StationRecord.setUp (fittedIn mask st)
    waveNumber := 0
    values := { s.wvc.values with trims := ClimbValues.defaults.trims } } }

/-- CLEAR in the Wave Controller (R50, R53). No counts changed notice is sent, though ACTIVE stations become ABSENT: R50 and
09 R167 name none here, R70 speaks of any change from ACTIVE (DESIGN CHOICE, log 80). -/
def clearWave (s : State) : State := { s with wvc := Wvc.cold s.wvc.view }

/-- The Wave Controller at a warm start: what it retains is kept, the climb is HELD and RESUME is added (R50, log 18). -/
def Wvc.warm (w : Wvc) : Wvc :=
  { Wvc.cold w.view with table := w.table, waveNumber := w.waveNumber, values := w.values,
                         holds := setBit w.holds holdResume }

/-! ## Orders (R79 to R83) -/

/-- An owner's outcome for an order slot. -/
def answerOrder (slot : OrderSlot) (result : OrderOutcome) (s : State) : State :=
  send (.orderOutcome slot (.outcome result 0)) s

/-- A word names a station. -/
def stationOf (w : Word) : Option Station := if h : w.toNat < 64 then some ⟨w.toNat, h⟩ else none

/-- The new effective count lies in the band of the ACTIVE stations, if there is one (R79). -/
def inBand (s : State) (st : Station) (count : Nat) : Bool :=
  match minEffective s with
  | none => true
  | some m =>
    let e : Int := (count : Int) - s.wvc.values.trims[st]
    decide (m ≤ e) && decide (e ≤ m + s.psv.rig.levelBand - 1)

/-- The outcome of a REQUALIFY order (R79). -/
def requalifyOutcome (s : State) (station count : Word) : OrderOutcome :=
  match stationOf station with
  | none => .badArgument
  | some st =>
    if Config.countLimit < count.toNat then .badArgument
    else match (recordOf s st).service with
      | .absent | .active => .wrongState
      | .barred | .retired =>
        if inWave s then .busy else if inBand s st count.toNat then .done else .badArgument

/-- The changes of a REQUALIFY answered DONE (R80). -/
def carryOutRequalify (st : Station) (count : Nat) (s : State) : State :=
  let t := setRecord s st { recordOf s st with
    service := .active, count := count, marks := 0, cleanRun := 0, inDoubt := false, retirePending := none }
  flushCounts (oweCounts (sendAll [.strayReset st, .faultReset st, .restValve st] t))

/-- REQUALIFY (R79, R80). -/
def takeRequalify (slot : OrderSlot) (station count : Word) : State → State :=
  unlessHaltedWave fun s =>
    answerOrder slot (requalifyOutcome s station count)
      (match stationOf station, requalifyOutcome s station count with
       | some st, .done => carryOutRequalify st count.toNat s
       | _, _ => s)

/-- RETIRE (R81, R82). -/
def takeRetire (slot : OrderSlot) (station : Word) : State → State :=
  unlessHaltedWave fun s =>
    match stationOf station with
    | none => answerOrder slot .badArgument s
    | some st =>
      let r := recordOf s st
      match r.service with
      | .absent => answerOrder slot .wrongState s
      | .retired => answerOrder slot .done s
      | .active | .barred =>
        if isParticipant s st then
          if r.retirePending.isSome then answerOrder slot .busy s
          else send (.orderOutcome slot .taken) (setRecord s st { r with retirePending := some slot })
        else answerOrder slot .done (flushCounts (carryOutRetire st s))

/-- An event set names only positions of a table of `w` events (11 R191). -/
def namesOnly (w : Nat) (events : Word) : Bool := decide (events.toNat < 2 ^ w)

/-- CLEAR_EVENTS of scope STATION (R83). -/
def takeClearStation (slot : OrderSlot) (index events : Word) : State → State :=
  unlessHaltedWave fun s =>
    match stationOf index with
    | none => answerOrder slot .badArgument s
    | some st =>
      if namesOnly 9 events then
        let r := recordOf s st
        answerOrder slot .done (setRecord s st { r with events := r.events &&& ~~~ events.setWidth 9 })
      else answerOrder slot .badArgument s

/-! ## Meanings -/

/-- FIRST_OF_KIND_NOTICE (R62). -/
def execFirstOfKindNotice (st : Station) (kind : EdgeKind) (time : Word) (s : State) : Result :=
  taking (.firstOfKindNotice st kind time) (takeFirstOfKind st kind) s

/-- DRAIN_ANSWER (R64). -/
def execDrainAnswer (st : Station) (records : List EdgeRecord) (overflow : Bool) (s : State) : Result :=
  taking (.drainAnswer st records overflow) (takeDrainAnswer st records overflow) s

/-- MARK_REQUEST (R75). -/
def execMarkRequest (st : Station) (cause : MarkCause) (s : State) : Result :=
  taking (.markRequest st cause) (takeMarkRequest st cause) s

/-- COIL_FAULT_NOTICE (R75). -/
def execCoilFaultNotice (st : Station) (s : State) : Result := taking (.coilFaultNotice st) (takeCoilFault st) s

/-- EVENT_REQUEST (R75). -/
def execEventRequest (st : Station) (s : State) : Result := taking (.eventRequest st) (takeEventRequest st) s

/-- DWELL_EXPIRY (R55). -/
def execDwellExpiry (s : State) : Result := whileActing takeDwellExpiry s

/-- RISE_PERMISSION_ANSWER (R57). -/
def execRisePermissionAnswer (age fill : BitVec 16) (s : State) : Result :=
  taking (.risePermissionAnswer age fill) (takePermission age fill) s

/-- DRIVE_TIMER_EXPIRY (R62). -/
def execDriveTimerExpiry (s : State) : Result := whileActing takeDriveTimer s

/-- SETTLE_TIMER_EXPIRY (R65). -/
def execSettleTimerExpiry (s : State) : Result := whileActing takeSettleTimer s

/-- FALL_TIMER_EXPIRY (R65). -/
def execFallTimerExpiry (s : State) : Result := whileActing takeFallTimer s

/-- WAVE_STOP (R77). -/
def execWaveStop (s : State) : Result := taking .waveStop takeWaveStop s

/-- WAVE_POWER_DOWN (10 R176). -/
def execWavePowerDown (s : State) : Result := taking .wavePowerDown takeWavePowerDown s

/-- CLIMB_DIRECTIVE (R53). -/
def execClimbDirective (values : ClimbValues) (s : State) : Result :=
  taking (.climbDirective values) (takeClimbDirective values) s

/-- REQUALIFY (R79). -/
def execRequalify (slot : OrderSlot) (station count : Word) (s : State) : Result :=
  taking (.requalify slot station count) (takeRequalify slot station count) s

/-- RETIRE (R81). -/
def execRetire (slot : OrderSlot) (station : Word) (s : State) : Result :=
  taking (.retire slot station) (takeRetire slot station) s

/-- CLEAR_EVENTS_STATION (R83). -/
def execClearEventsStation (slot : OrderSlot) (index events : Word) (s : State) : Result :=
  taking (.clearEventsStation slot index events) (takeClearStation slot index events) s

end Sys2Proof.Machine
end

