-- ==== Sys2Proof/Machine/Layer.lean ====
section
/-! DEFINITION. The Layer Tracker: sector stacks, exits, pour plans and placements, openings, rise permission and the
cold-joint watch (06; the derived quantities of 01 R14 to R16). -/

namespace Sys2Proof.Machine

open Sys2Proof

/-! ## Stacks and fill quantities (R98, R99, 01 R15) -/

/-- The stack of a sector, bottom layer first (R98). -/
def stackOf (s : State) (k : Sector) : List Layer := s.ltr.stack[k]

/-- The top elevation of a layer (R98). -/
def Layer.top (l : Layer) : Int := l.bottom + l.thickness

/-- What a CONCRETE layer holds; none for a GAP layer (R99). -/
def Layer.concrete? (l : Layer) : Option Concrete :=
  match l.kind with
  | .concrete c => some c
  | .gap => none

/-- The fill top of a stack over a form bottom (01 R15). -/
def fillTopOf (formBottom : Int) (stack : List Layer) : Int :=
  match stack.getLast? with
  | none => formBottom
  | some l => l.top

/-- The state with the tracker changed. -/
def onLtr (f : Ltr → Ltr) (s : State) : State := { s with ltr := f s.ltr }

/-- The form bottom E_k (01 R14). -/
def formBottom (s : State) (k : Sector) : Int := s.ltr.bottoms[k]

/-- The form top (01 R14). -/
def formTop (s : State) (k : Sector) : Int := formBottom s k + s.psv.rig.formHeight

/-- The fill top of a sector (01 R15). -/
def fillTop (s : State) (k : Sector) : Int := fillTopOf (formBottom s k) (stackOf s k)

/-- The fill depth of a sector (01 R15). -/
def fillDepth (s : State) (k : Sector) : Int := formTop s k - fillTop s k

/-- The deficit of a sector (01 R15). -/
def deficit (s : State) (k : Sector) : Int := fillDepth s k - s.psv.rig.targetFill

/-- The deficit volume of a sector (01 R15). -/
def deficitVolume (s : State) (k : Sector) : Nat := (deficit s k).toNat * s.psv.rig.areas[k] / 100

/-- The minimum layer volume of a sector (01 R15). -/
def minLayerVolume (s : State) (k : Sector) : Nat := s.psv.rig.minLayer * s.psv.rig.areas[k] / 100

/-- The thickness a volume gives in a sector (01 R15). -/
def thicknessOf (s : State) (k : Sector) (volume : Nat) : Nat := volume * 100 / s.psv.rig.areas[k]

/-- What a sector's top layer holds, if it is CONCRETE (01 R16). -/
def topConcrete (s : State) (k : Sector) : Option Concrete := (stackOf s k).getLast?.bind Layer.concrete?

/-- The open age of a layer (01 R16). -/
def openAge (s : State) (c : Concrete) : Nat := since (site s) c.placed

/-- The concrete age of a batch or layer of an age origin (01 R16). -/
def concreteAge (s : State) (origin : Word) : Nat := since (site s) origin

/-! ## Sector events (R113) -/

/-- Sector events are set; attention source EVENT is asked for, once for them all, when one was clear (R113, log 54). -/
def addSectorEvents (k : Sector) (events : BitVec 4) (s : State) : State :=
  let old := s.ltr.events[k]
  if old ||| events = old then s
  else requestAttn .event (onLtr (fun l => { l with events := put l.events k (old ||| events) }) s)

/-! ## Form bottoms and exits (R100, R101, 01 R14) -/

/-- The form bottom recomputed from the Jack Table (01 R14). -/
def recomputedBottom (s : State) (k : Sector) : Int :=
  match activeIn s k with
  | [] => formBottom s k
  | sts => ((s.psv.rig.strokeLength * (sts.map fun st => (recordOf s st).count).sum / sts.length : Nat) : Int)

/-- The layer is the one a pour plan will merge into (R103). -/
def isPinned (plan : Option Plan) (k : Sector) (l : Layer) : Bool :=
  match plan, l.concrete? with
  | some p, some c =>
    match p.kind with
    | .merge index => decide (p.sector = k) && decide (c.slot = p.slot) && decide (c.index = index)
    | .new _ => false
  | _, _ => false

/-- The layer leaves at an exit test over a form bottom (R101). -/
def leaves (plan : Option Plan) (k : Sector) (bottom : Int) (l : Layer) : Bool :=
  decide (l.top ≤ bottom) && !isPinned plan k l

/-- The exit notice of a layer that leaves, none for a GAP layer (R101). -/
def exitNoticeOf (time : Word) (l : Layer) : List Instr :=
  match l.concrete? with
  | some c => [.exitNotice c.slot c.index time]
  | none => []

/-- The layers that leave a sector now (R101). -/
def leavingLayers (s : State) (k : Sector) : List Layer :=
  (stackOf s k).takeWhile (leaves s.ltr.plan k (formBottom s k))

/-- The layers leave and their exit notices are sent, bottom layer first (R101). -/
def removeLeaving (k : Sector) (s : State) : State :=
  let gone := leavingLayers s k
  sendAll (gone.flatMap (exitNoticeOf (site s)))
    (onLtr (fun l => { l with stack := put l.stack k ((stackOf s k).drop gone.length) }) s)

/-! ## Conversion of openings (R109) -/

/-- What a try leaves of a stack and an opening list, with the events it sets (R109). -/
def convertOpenings (bottom : Int) (stack : List Layer) : List Opening → List Layer × List Opening × BitVec 4
  | [] => (stack, [], 0)
  | o :: os =>
    let top := fillTopOf bottom stack
    if o.lower ≤ top then
      if o.upper ≤ top then
        let r := convertOpenings bottom stack os
        (r.1, r.2.1, r.2.2 ||| evOpeningMissed)
      else if stack.length < Config.stackDepth then
        let r := convertOpenings bottom (stack ++ [⟨top, (o.upper - top).toNat, .gap⟩]) os
        (r.1, r.2.1, r.2.2 ||| evOpeningSet)
      else (stack, o :: os, 0)
    else (stack, o :: os, 0)

/-- A pour plan names the sector (R109). -/
def planned (s : State) (k : Sector) : Bool :=
  match s.ltr.plan with
  | some p => decide (p.sector = k)
  | none => false

/-- What a try of conversion would leave of a sector (R109). -/
def conversionOf (s : State) (k : Sector) : List Layer × List Opening × BitVec 4 :=
  convertOpenings (formBottom s k) (stackOf s k) s.ltr.openings[k]

/-- A try of conversion in a sector (R109). -/
def tryConversion (k : Sector) (s : State) : State :=
  if planned s k then s
  else
    let r := conversionOf s k
    addSectorEvents k r.2.2
      (onLtr (fun l => { l with stack := put l.stack k r.1, openings := put l.openings k r.2.1 }) s)

/-- A try in a sector would convert an opening into a GAP layer (R109). One that only drops an opening the fill has passed does
not count as converting it (DESIGN CHOICE, log 86). -/
def converts (s : State) (k : Sector) : Bool :=
  !planned s k && decide ((conversionOf s k).1.length ≠ (stackOf s k).length)

/-- The exit test of a sector, with the conversion that follows when a layer left, whatever called for the test (R101, R109,
log 74). -/
def exitTest (k : Sector) (s : State) : State :=
  if (leavingLayers s k).isEmpty then s else tryConversion k (removeLeaving k s)

/-- A deficit notice (R100, R105). -/
def noticeDeficit (s : State) : State := send .deficitNotice s

/-- The tracker takes nothing in HALTED (R117, log 36). -/
def unlessHaltedLayer (f : State → State) (s : State) : State := if s.ltr.view = .halted then s else f s

/-- An operation on every sector of a list, in order. -/
def forSectors (ks : List Sector) (f : Sector → State → State) (s : State) : State :=
  ks.foldl (fun t k => f k t) s

/-- Every used sector's form bottom recomputed (R100). -/
def recomputeBottoms (s : State) : State :=
  onLtr (fun l => { l with bottoms := tabulate fun k => if used s k then recomputedBottom s k else l.bottoms[k] }) s

/-- COUNTS_CHANGED; the sectors are gone through in ascending order (R100, log 53). One deficit notice follows them all,
which stands for the notice of each conversion in them too (R109, log 73). -/
def takeCountsChanged : State → State :=
  unlessHaltedLayer fun s =>
    let t := recomputeBottoms s
    let u := forSectors (usedSectors t) exitTest t
    if t.ltr.bottoms ≠ s.ltr.bottoms ∨ (usedSectors t).any (fun k => !(leavingLayers t k).isEmpty) = true then
      noticeDeficit u
    else u

/-! ## Feed view and pour plans (R102, R103) -/

/-- The merge test: the top layer is CONCRETE of the batch and was placed within the merge window (R103, case 4). -/
def mergesWith (s : State) (k : Sector) (slot : BatchSlot) : Option PortionIndex :=
  match topConcrete s k with
  | some c => if c.slot = slot ∧ openAge s c ≤ s.psv.rig.mergeWindow then some c.index else none
  | none => none

/-- The first four conditions of eligibility (R102). -/
def wantsConcrete (s : State) (destination : BitVec 16) (k : Sector) : Bool :=
  used s k && s.ltr.feedMask.getLsbD k.1 && destination.getLsbD k.1
    && decide ((s.psv.rig.minLayer : Int) ≤ deficit s k)

/-- The stack has room for a layer (R98). -/
def hasRoom (s : State) (k : Sector) : Bool := decide ((stackOf s k).length < Config.stackDepth)

/-- The sector is eligible for a batch (R102). -/
def isEligible (s : State) (destination : BitVec 16) (k : Sector) : Bool :=
  wantsConcrete s destination k && hasRoom s k

/-- The sector is urgent (R111). -/
def isUrgent (s : State) (k : Sector) : Bool :=
  used s k &&
    match topConcrete s k with
    | some c => decide ((s.psv.rig.mixes[c.mix]).warnOpen ≤ openAge s c)
    | none => false

/-- The feed view of one sector (R102). The deficit volume of an unused one, which R15 leaves undefined, is 0 (DESIGN CHOICE,
log 85). -/
def viewOf (s : State) (slot : BatchSlot) (destination : BitVec 16) (k : Sector) : SectorView where
  eligible := isEligible s destination k
  deficitVolume := if used s k then deficitVolume s k else 0
  urgent := isUrgent s k
  openAge := (topConcrete s k).map (openAge s)
  merges := (mergesWith s k slot).isSome

/-- FEED_VIEW: the view is answered, and STACK_FULL is set where a sector wants concrete and is full (R102). -/
def takeFeedView (slot : BatchSlot) (destination : BitVec 16) : State → State :=
  unlessHaltedLayer fun s =>
    forSectors (allSectors.filter fun k => wantsConcrete s destination k && !hasRoom s k)
      (fun k => addSectorEvents k evStackFull)
      (onLtr (fun l => { l with lastView := some (tabulate (viewOf s slot destination)) }) s)

/-- How a pour plan request is decided (R103). -/
def decidePlan (s : State) (r : PlanRequest) : Option PlanKind :=
  if s.ltr.plan.isSome then none
  else if !used s r.sector then none
  else match r.remainder with
    | some index =>
      match topConcrete s r.sector with
      | some c => if c.slot = r.slot ∧ c.index = index then some (.merge index) else none
      | none => none
    | none =>
      match mergesWith s r.sector r.slot with
      | some index => some (.merge index)
      | none => if hasRoom s r.sector then r.newIndex.map PlanKind.new else none

/-- The answer a decision gives (R103). -/
def planAnswerOf : Option PlanKind → PlanAnswer
  | none => .refused
  | some (.merge _) => .merge
  | some (.new _) => .new

/-- POUR_PLAN_REQUEST (R103). -/
def takePlanRequest (r : PlanRequest) : State → State :=
  unlessHaltedLayer fun s =>
    let d := decidePlan s r
    send (.pourPlanAnswer (planAnswerOf d))
      (match d with
       | none => s
       | some kind => onLtr (fun l => { l with plan := some ⟨r.sector, r.slot, r.mix, r.origin, kind⟩ }) s)

/-! ## Placements (R104, R105) -/

/-- The layer a plan answered NEW makes (R104). -/
def newLayer (s : State) (p : Plan) (index : PortionIndex) (volume : Nat) : Layer where
  bottom := fillTop s p.sector
  thickness := thicknessOf s p.sector volume
  kind := .concrete ⟨p.slot, index, site s, p.origin, p.mix, false⟩

/-- A layer after a merge (R105). -/
def Layer.merge (l : Layer) (thickness : Nat) (time : Word) : Layer :=
  match l.kind with
  | .concrete c => { l with thickness := l.thickness + thickness,
                            kind := .concrete { c with placed := time, jointReported := false } }
  | .gap => l

/-- The stack after a placement of a volume above 0 under a plan (R104, R105). -/
def placedStack (s : State) (p : Plan) (volume : Nat) : List Layer :=
  match p.kind with
  | .new index => stackOf s p.sector ++ [newLayer s p index volume]
  | .merge _ => (stackOf s p.sector).map fun l =>
      if isPinned (some p) p.sector l then l.merge (thicknessOf s p.sector volume) (site s) else l

/-- The answer to a placement of a volume above 0 under a plan (R104, R105). -/
def PlanKind.result : PlanKind → PlacementResult
  | .new index => .new index
  | .merge index => .merged index

/-- What follows the end of a plan in its sector: conversion, exit test and a deficit notice (R105). -/
def afterPlan (k : Sector) (s : State) : State := noticeDeficit (exitTest k (tryConversion k s))

/-- A placement under its plan, which ends the plan (R104, R105). -/
def placeUnder (p : Plan) (volume : Nat) (s : State) : State :=
  let ended := onLtr (fun l => { l with plan := none }) s
  if volume = 0 then afterPlan p.sector (send (.placementAnswer .nothingPlaced) ended)
  else
    afterPlan p.sector (send (.placementAnswer p.kind.result)
      (onLtr (fun l => { l with stack := put l.stack p.sector (placedStack s p volume) }) ended))

/-- PLACEMENT (R104, R105). -/
def takePlacement (sector : Sector) (slot : BatchSlot) (volume : Nat) : State → State :=
  unlessHaltedLayer fun s =>
    match s.ltr.plan with
    | some p =>
      if p.sector = sector ∧ p.slot = slot then placeUnder p volume s
      else send (.placementAnswer .nothingPlaced) s
    | none => send (.placementAnswer .nothingPlaced) s

/-- DROP_PLAN (R116). -/
def takeDropPlan : State → State :=
  unlessHaltedLayer fun s =>
    match s.ltr.plan with
    | some p => afterPlan p.sector (onLtr (fun l => { l with plan := none }) s)
    | none => s

/-! ## Opening orders (R106 to R108) -/

/-- A word names a sector. -/
def sectorOfWord (w : Word) : Option Sector := if h : w.toNat < 16 then some ⟨w.toNat, h⟩ else none

/-- Two openings overlap (R106). -/
def overlaps (a b : Opening) : Bool := decide (a.lower < b.upper) && decide (b.lower < a.upper)

/-- The list with an opening inserted at its place (R106). -/
def insertOpening (o : Opening) : List Opening → List Opening
  | [] => [o]
  | p :: ps => if o.lower < p.lower then o :: p :: ps else p :: insertOpening o ps

/-- The outcome of an ADD_OPENING for a sector (R107). -/
def addOpeningOutcome (s : State) (k : Sector) (o : Opening) : OrderOutcome :=
  if !used s k then .badArgument
  else if o.upper ≤ o.lower ∨ (s.psv.rig.formHeight : Int) < o.upper - o.lower then .badArgument
  else if o.lower < fillTop s k then .past
  else if Config.openingDepth ≤ (s.ltr.openings[k]).length then .full
  else if (s.ltr.openings[k]).any (overlaps o) then .badArgument
  else .done

/-- ADD_OPENING (R107). -/
def takeAddOpening (slot : OrderSlot) (sector lower upper : Word) : State → State :=
  unlessHaltedLayer fun s =>
    match sectorOfWord sector with
    | none => answerOrder slot .badArgument s
    | some k =>
      let o : Opening := ⟨lower.toInt, upper.toInt⟩
      match addOpeningOutcome s k o with
      | .done =>
        let t := answerOrder slot .done
          (onLtr (fun l => { l with openings := put l.openings k (insertOpening o l.openings[k]) }) s)
        when (converts t k) noticeDeficit (tryConversion k t)
      | result => answerOrder slot result s

/-- DROP_OPENING (R108). -/
def takeDropOpening (slot : OrderSlot) (sector position : Word) : State → State :=
  unlessHaltedLayer fun s =>
    match sectorOfWord sector with
    | none => answerOrder slot .badArgument s
    | some k =>
      if position.toNat < (s.ltr.openings[k]).length then
        answerOrder slot .done
          (onLtr (fun l => { l with openings := put l.openings k (l.openings[k].eraseIdx position.toNat) }) s)
      else answerOrder slot .badArgument s

/-- CLEAR_EVENTS of scope SECTOR (R113). In HALTED it has no effect, as R117 has it, though R113 has it answered in every part
state (DEDUCED, log 84). -/
def takeClearSector (slot : OrderSlot) (index events : Word) : State → State :=
  unlessHaltedLayer fun s =>
    match sectorOfWord index with
    | none => answerOrder slot .badArgument s
    | some k =>
      if namesOnly 4 events then
        answerOrder slot .done
          (onLtr (fun l => { l with events := put l.events k (l.events[k] &&& ~~~ events.setWidth 4) }) s)
      else answerOrder slot .badArgument s

/-! ## Rise permission and the cold-joint watch (R110, R112) -/

/-- A layer would be exposed too young by a rise of one stroke (R110). -/
def tooYoung (s : State) (k : Sector) (l : Layer) : Bool :=
  match l.concrete? with
  | some c =>
    decide (l.bottom < formBottom s k + s.psv.rig.strokeLength)
      && decide (concreteAge s c.origin < (s.psv.rig.mixes[c.mix]).minExit)
  | none => false

/-- The AGE flag of a sector (R110). -/
def ageFlag (s : State) (k : Sector) : Bool := used s k && (stackOf s k).any (tooYoung s k)

/-- The FILL flag of a sector (R110). -/
def fillFlag (s : State) (k : Sector) : Bool :=
  used s k && decide ((s.psv.rig.maxFill : Int) < fillDepth s k + s.psv.rig.strokeLength)

/-- The set of sectors with a property, as a word of 16 bits. -/
def sectorSet (p : Sector → Bool) : BitVec 16 :=
  allSectors.foldl (fun m k => if p k then setBit m k.1 else m) 0

/-- RISE_PERMISSION_REQUEST (R110). -/
def takePermissionRequest : State → State :=
  unlessHaltedLayer fun s =>
    let age := sectorSet (ageFlag s)
    let fill := sectorSet (fillFlag s)
    send (.risePermissionAnswer age fill) (onLtr (fun l => { l with age := age, fill := fill }) s)

/-- The top layer of a sector is due to be reported (R112). -/
def jointDue (s : State) (k : Sector) : Bool :=
  match topConcrete s k with
  | some c => decide ((s.psv.rig.mixes[c.mix]).maxOpen ≤ openAge s c) && !c.jointReported
  | none => false

/-- The layer with its joint reported mark set (R112). -/
def Layer.reportJoint (l : Layer) : Layer :=
  match l.kind with
  | .concrete c => { l with kind := .concrete { c with jointReported := true } }
  | .gap => l

/-- The last element of a list changed by `f`. -/
def mapLast (f : Layer → Layer) : List Layer → List Layer
  | [] => []
  | [l] => [f l]
  | l :: m :: ls => l :: mapLast f (m :: ls)

/-- A cold joint is reported in a sector (R112). -/
def reportJoint (k : Sector) (s : State) : State :=
  addSectorEvents k evColdJoint
    (onLtr (fun l => { l with stack := put l.stack k (mapLast Layer.reportJoint (stackOf s k)) }) s)

/-- The part states in which the cold-joint watch runs (R112). -/
def watches : PartState → Bool
  | .bench | .powerDown | .halted => false
  | _ => true

/-- SITE_SECOND_NOTICE at the Layer Tracker: the cold-joint watch, which a warning not yet noticed stops too (R112,
log 62). -/
def layerSecond (s : State) : State :=
  if watches s.ltr.view && watches s.psv.state then forSectors ((usedSectors s).filter (jointDue s)) reportJoint s else s

/-! ## Directive, part states and resets -/

/-- FEED_MASK_DIRECTIVE (R114). -/
def takeFeedMask (mask : BitVec 16) : State → State :=
  unlessHaltedLayer (onLtr fun l => { l with feedMask := mask })

/-- The tracker learns of a part state. -/
def layerEnters (p : PartState) : State → State := onLtr fun l => { l with view := p }

/-- CLEAR in the tracker (R116). -/
def clearLayer : State → State := onLtr fun l => Ltr.cold l.view

/-- The tracker at a warm start (R116). -/
def Ltr.warm (l : Ltr) : Ltr := { l with age := 0, fill := 0, lastView := none }

/-! ## Meanings -/

/-- COUNTS_CHANGED (R100). -/
def execCountsChanged (s : State) : Result := taking .countsChanged takeCountsChanged s

/-- FEED_VIEW (R102). -/
def execFeedView (slot : BatchSlot) (destination : BitVec 16) (portionCount : Nat) (s : State) : Result :=
  taking (.feedView slot destination portionCount) (takeFeedView slot destination) s

/-- POUR_PLAN_REQUEST (R103). -/
def execPourPlanRequest (r : PlanRequest) (s : State) : Result := taking (.pourPlanRequest r) (takePlanRequest r) s

/-- PLACEMENT (R104). -/
def execPlacement (sector : Sector) (slot : BatchSlot) (volume : Nat) (s : State) : Result :=
  taking (.placement sector slot volume) (takePlacement sector slot volume) s

/-- DROP_PLAN (R116). -/
def execDropPlan (s : State) : Result := taking .dropPlan takeDropPlan s

/-- ADD_OPENING (R107). -/
def execAddOpening (slot : OrderSlot) (sector lower upper : Word) (s : State) : Result :=
  taking (.addOpening slot sector lower upper) (takeAddOpening slot sector lower upper) s

/-- DROP_OPENING (R108). -/
def execDropOpening (slot : OrderSlot) (sector position : Word) (s : State) : Result :=
  taking (.dropOpening slot sector position) (takeDropOpening slot sector position) s

/-- CLEAR_EVENTS_SECTOR (R113). -/
def execClearEventsSector (slot : OrderSlot) (index events : Word) (s : State) : Result :=
  taking (.clearEventsSector slot index events) (takeClearSector slot index events) s

/-- RISE_PERMISSION_REQUEST (R110). -/
def execRisePermissionRequest (s : State) : Result := taking .risePermissionRequest takePermissionRequest s

/-- FEED_MASK_DIRECTIVE (R114). -/
def execFeedMaskDirective (mask : BitVec 16) (s : State) : Result := taking (.feedMaskDirective mask) (takeFeedMask mask) s

end Sys2Proof.Machine
end

