-- ==== Sys2Proof/Machine/Feed.lean ====
section
/-! DEFINITION. The Feed Distributor: batch records, the feed line, the pour arbiter, the gates, cuts, cancels and exits
(07; 10 R178, R179). -/

namespace Sys2Proof.Machine

open Sys2Proof

/-! ## Records and slots (R118, R123, R142) -/

/-- The state with the distributor changed. -/
def onFds (f : Fds → Fds) (s : State) : State := { s with fds := f s.fds }

/-- The live record of a slot, if it has one (R118). -/
def batchOf (s : State) (slot : BatchSlot) : Option BatchRecord := s.fds.records[slot]

/-- The state with a slot's record replaced. -/
def setBatch (slot : BatchSlot) (r : Option BatchRecord) : State → State :=
  onFds fun f => { f with records := put f.records slot r }

/-- The report fields of a live record (R142). -/
def BatchRecord.report (r : BatchRecord) : BatchReport where
  reason := .none
  takeTime := r.takeTime
  delivered := r.delivered
  wasted := r.wasted
  remaining := r.remaining
  cause := r.cause
  toWaste := r.toWaste
  entries := r.entries

/-- The report fields of a refusal (R120). -/
def refusalReport (reason : Reason) (time : Word) : BatchReport where
  reason := reason
  takeTime := time
  delivered := 0
  wasted := 0
  remaining := 0
  cause := .none
  toWaste := false
  entries := []

/-- The Exchange Controller is asked to write a slot (R142, 08 R148). -/
def writeSlot (slot : BatchSlot) (state : Option BatchState) (report : BatchReport) : State → State :=
  send (.slotWriteRequest (.batch slot state report))

/-- Some portion entry has no exit time. -/
def BatchRecord.standing (r : BatchRecord) : Bool := r.entries.any fun e => e.exit.isNone

/-- The state a slot comes to when no gate is open for its batch (R123). -/
def BatchRecord.settledState (r : BatchRecord) : BatchState :=
  if 0 < r.remaining then .lined else if r.standing then .casting else .spent

/-- A record after a gate closed or an exit came: it takes its state, a drawn off batch leaves the line, a SPENT one
stops being live, and the slot is written (R122, R123). -/
def settleBatch (slot : BatchSlot) (r : BatchRecord) (s : State) : State :=
  let r' := { r with state := r.settledState }
  let t := setBatch slot (if r'.state = .spent then none else some r') s
  let u := if r.remaining = 0 then onFds (fun f => { f with line := f.line.erase slot }) t else t
  writeSlot slot (if r'.state = r.state then none else some r'.state) r'.report u

/-! ## Gates (R125) -/

/-- How long a gate is open for a volume, in milliseconds (R125). -/
def gateTime (volume flow : Nat) : Nat := volume * 60000 / flow

/-- A gate opened now for a volume (R125). -/
def openRun (s : State) (slot : BatchSlot) (volume : Nat) : GateRun where
  slot := slot
  volume := volume
  openedAt := now s
  flow := s.fds.flow
  closeAt := now s + natWord (gateTime volume s.fds.flow)
  passed := none
  cut := none

/-- The waste gate opens (R127, R128). -/
def openWaste (slot : BatchSlot) (volume : Nat) (cause : WasteCause) (s : State) : State :=
  onFds (fun f => { f with gate := .waste (openRun s slot volume) cause }) s

/-- A drop gate opens for the head, whose slot becomes POURING (R130). -/
def openDrop (sector : Sector) (slot : BatchSlot) (volume : Nat) (s : State) : State :=
  let t := onFds (fun f => { f with gate := .drop sector (openRun s slot volume) }) s
  match batchOf t slot with
  | some r => writeSlot slot (some .pouring) r.report (setBatch slot (some { r with state := .pouring }) t)
  | none => t

/-- The gate has been open for its time (R125). -/
def GateRun.ran (g : GateRun) (at_ : Word) : Bool := decide (since g.closeAt g.openedAt ≤ since at_ g.openedAt)

/-- The volume that has passed a gate by now: the whole of it once its time is over (R135). -/
def cutVolume (s : State) (g : GateRun) : Nat :=
  if g.ran (now s) then g.volume else min g.volume (g.flow * since (now s) g.openedAt / 60000)

/-- The gate record is IDLE. -/
def gateIdle (s : State) : Bool := decide (s.fds.gate = .idle)

/-! ## The arbiter (R126 to R130) -/

/-- Nothing but a plan request keeps the arbiter from running. The distributor has been told of RUN, and the part state is
RUN still (R126, log 62). -/
def arbiterFree (s : State) : Bool :=
  gateIdle s && decide (s.fds.view = .run) && decide (s.psv.state = .run) && !s.fds.paused && decide (0 < s.fds.flow)

/-- The head is to be wasted, and why (R127). -/
def headWaste (s : State) (r : BatchRecord) : Option WasteCause :=
  if r.toWaste then some .cancelled
  else if (s.psv.rig.mixes[r.mix]).maxPlacement ≤ concreteAge s r.origin then some .aged
  else none

/-- The sector of a record's last portion (R128). -/
def lastSector (r : BatchRecord) : Option (PortionIndex × Sector) :=
  match r.lastPortion with
  | none => none
  | some i => (r.entries[i.1]?).map fun e => (i, e.sector)

/-- The head has come down to a remainder, of this portion and sector (R128). -/
def remainderOf (s : State) (r : BatchRecord) : Option (PortionIndex × Sector) :=
  match lastSector r with
  | some (i, k) => if r.remaining < minLayerVolume s k then some (i, k) else none
  | none => none

/-- A sector goes before another in the arbiter's order (R129). -/
def goesBefore (a b : Sector × SectorView) : Bool :=
  if a.2.urgent ≠ b.2.urgent then a.2.urgent
  else if a.2.urgent && decide (a.2.openAge ≠ b.2.openAge) then decide (b.2.openAge.getD 0 < a.2.openAge.getD 0)
  else if a.2.deficitVolume ≠ b.2.deficitVolume then decide (b.2.deficitVolume < a.2.deficitVolume)
  else decide (a.1 < b.1)

/-- The first candidate in the arbiter's order (R129). -/
def firstCandidate : List (Sector × SectorView) → Option (Sector × SectorView)
  | [] => none
  | c :: cs =>
    match firstCandidate cs with
    | none => some c
    | some d => if goesBefore d c then some d else some c

/-- The candidate sectors of the head: eligible, and merging when the batch has 8 entries (R129). -/
def candidates (s : State) (slot : BatchSlot) (r : BatchRecord) : List (Sector × SectorView) :=
  (allSectors.map fun k => (k, viewOf s slot r.destination k)).filter fun c =>
    c.2.eligible && (decide (r.entries.length < Config.entryDepth) || c.2.merges)

/-- The new-layer index of a plan request (R130). -/
def newIndexOf (r : BatchRecord) : Option PortionIndex :=
  if h : r.entries.length < 8 then some ⟨r.entries.length, h⟩ else none

/-- A plan request is sent and is outstanding (R128, R130). -/
def askPlan (r : PlanRequest) (volume : Nat) (s : State) : State :=
  send (.pourPlanRequest r)
    (onFds (fun f => { f with plan := .asked r.sector r.slot volume r.remainder.isSome }) s)

/-- The arbiter's choice of a sector for the head (R129, R130). -/
def planPortion (slot : BatchSlot) (r : BatchRecord) (s : State) : State :=
  let t := takeFeedView slot r.destination s
  match firstCandidate (candidates s slot r) with
  | none => t
  | some (k, v) =>
    askPlan ⟨k, slot, r.mix, r.origin, newIndexOf r, none⟩
      (min v.deficitVolume (min r.remaining s.psv.rig.maxPortion)) t

/-- The arbiter decides the head (R127 to R130). -/
def decideHead (slot : BatchSlot) (r : BatchRecord) (s : State) : State :=
  match headWaste s r with
  | some cause => openWaste slot r.remaining cause s
  | none =>
    match remainderOf s r with
    | some (i, k) =>
      askPlan ⟨k, slot, r.mix, r.origin, none, some i⟩ (min r.remaining s.psv.rig.maxPortion) s
    | none => planPortion slot r s

/-- A try of the arbiter (R126). -/
def tryArbiter (s : State) : State :=
  if arbiterFree s && decide (s.fds.plan = .none) then
    match s.fds.line with
    | [] => s
    | slot :: _ =>
      match batchOf s slot with
      | some r => decideHead slot r s
      | none => s
  else s

/-- The distributor takes nothing in HALTED (R138, log 36). -/
def unlessHaltedFeed (f : State → State) (s : State) : State := if s.fds.view = .halted then s else f s

/-- The feed-stopped report is sent once it is owed and nothing is in hand (R136, 10 R178). -/
def reportStopped (s : State) : State :=
  if s.fds.owesReport && gateIdle s && decide (s.fds.plan = .none) then
    send .feedStopped (onFds (fun f => { f with owesReport := false }) s)
  else s

/-- The head is still the one a plan was asked for, and R126 holds but for the request (R130). -/
def planHolds (s : State) (slot : BatchSlot) : Bool :=
  arbiterFree s && decide (s.fds.line.head? = some slot) &&
    match batchOf s slot with
    | some r => !r.toWaste
    | none => false

/-- No plan request is outstanding any more. -/
def planOver (s : State) : State := onFds (fun f => { f with plan := .none }) s

/-- A refused remainder goes to waste (R128). -/
def wasteRemainder (slot : BatchSlot) (s : State) : State :=
  match batchOf s slot with
  | some r => openWaste slot r.remaining .remainder s
  | none => s

/-- POUR_PLAN_ANSWER (R128, R130). A refused portion ends the request, whatever has become of the head (log 55). -/
def takePlanAnswer (answer : PlanAnswer) : State → State :=
  unlessHaltedFeed fun s =>
    match s.fds.plan with
    | .asked sector slot volume remainder =>
      match answer with
      | .refused =>
        if remainder then
          if planHolds s slot then wasteRemainder slot (planOver s) else reportStopped (tryArbiter (planOver s))
        else reportStopped (planOver s)
      | .merge | .new =>
        if planHolds s slot then openDrop sector slot volume (planOver s)
        else send (.placement sector slot 0) (onFds (fun f => { f with plan := .ending }) s)
    | _ => s

/-! ## Closing and cutting (R131, R132, R135) -/

/-- What follows a gate that has closed or been cut (R126, R136). -/
def afterGate (s : State) : State := reportStopped (tryArbiter s)

/-- The drop gate has closed with a volume passed, and the placement is sent, whose answer makes the record IDLE (R131, R135). -/
def closeDrop (sector : Sector) (g : GateRun) (volume : Nat) (s : State) : State :=
  send (.placement sector g.slot volume)
    (onFds (fun f => { f with gate := .drop sector { g with passed := some volume } }) s)

/-- The gate record becomes IDLE. -/
def idleGate (s : State) : State := onFds (fun f => { f with gate := .idle }) s

/-- A record after a waste of a volume (R132, R135). -/
def BatchRecord.waste (r : BatchRecord) (volume : Nat) (cause : WasteCause) : BatchRecord :=
  { r with wasted := r.wasted + volume, remaining := r.remaining - volume, cause := cause }

/-- The waste gate has closed with a volume passed (R132, R135). -/
def closeWaste (g : GateRun) (cause : WasteCause) (volume : Nat) (s : State) : State :=
  match batchOf s g.slot with
  | some r => settleBatch g.slot (r.waste volume cause) (idleGate s)
  | none => idleGate s

/-- The gate record with a cut volume recorded (R135). -/
def GateRun.withCut (g : GateRun) (volume : Nat) : GateRun := { g with cut := some volume }

/-- A cut of the open gate, if one is open: the cut volume is recorded, and the gate closes (R135). -/
def cutGate (s : State) : State :=
  match s.fds.gate with
  | .drop sector g =>
    if g.passed.isNone then closeDrop sector (g.withCut (cutVolume s g)) (cutVolume s g) s else s
  | .waste g cause => closeWaste g cause (cutVolume s g) s
  | .idle => s

/-- GATE_CLOSE: V is placed, and no cut volume is recorded (R131). -/
def takeGateClose : State → State :=
  unlessHaltedFeed fun s =>
    match s.fds.gate with
    | .drop sector g => if g.passed.isNone then closeDrop sector g g.volume s else s
    | _ => s

/-- WASTE_GATE_CLOSE (R132). -/
def takeWasteGateClose : State → State :=
  unlessHaltedFeed fun s =>
    match s.fds.gate with
    | .waste g cause => afterGate (closeWaste g cause g.volume s)
    | _ => s

/-- The entries after a placement answered MERGED (R119). -/
def mergeEntry (volume : Nat) (e : PortionEntry) : PortionEntry :=
  { e with volume := e.volume + volume, disposition := .merged }

/-- A record after a placement of a volume (R119, R131). -/
def BatchRecord.placed (r : BatchRecord) (sector : Sector) (volume : Nat) (time : Word) :
    PlacementResult → BatchRecord
  | .new index =>
    { r with entries := r.entries ++ [⟨sector, .new, volume, time, none⟩], lastPortion := some index,
             delivered := r.delivered + volume, remaining := r.remaining - volume }
  | .merged index =>
    { r with entries := r.entries.modify index.1 (mergeEntry volume), lastPortion := some index,
             delivered := r.delivered + volume, remaining := r.remaining - volume }
  | .nothingPlaced => r

/-- PLACEMENT_ANSWER (R131, R130). The site seconds of the answer are those of its take (R119, log 66). -/
def takePlacementAnswer (result : PlacementResult) : State → State :=
  unlessHaltedFeed fun s =>
    match s.fds.gate, s.fds.plan with
    | .drop sector g, _ =>
      match g.passed, batchOf s g.slot with
      | some volume, some r => afterGate (settleBatch g.slot (r.placed sector volume (site s) result) (idleGate s))
      | some _, none => afterGate (idleGate s)
      | none, _ => s
    | _, .ending => if result = .nothingPlaced then afterGate (planOver s) else s
    | _, _ => s

/-! ## Stops, holds and directives (R133 to R138) -/

/-- FEED_STOP (R136). -/
def takeFeedStop : State → State :=
  unlessHaltedFeed fun s =>
    let t := onFds (fun f => { f with view := if f.view = .run then .stopping else f.view, owesReport := true }) s
    reportStopped (cutGate t)

/-- FEED_POWER_DOWN (10 R178). -/
def takeFeedPowerDown : State → State :=
  unlessHaltedFeed fun s =>
    reportStopped (cutGate (onFds (fun f => { f with view := .powerDown, owesReport := true }) s))

/-- LINE_HOLD_NOTICE at the distributor (R137). -/
def feedLineHold : State → State :=
  unlessHaltedFeed fun s => cutGate (onFds (fun f => { f with paused := true }) s)

/-- FEED_PAUSE_REQUEST (R134). -/
def takeFeedPause : State → State := unlessHaltedFeed (onFds fun f => { f with paused := true })

/-- FLOW_DIRECTIVE (R133). -/
def takeFlow (flow : Nat) : State → State :=
  unlessHaltedFeed fun s => tryArbiter (onFds (fun f => { f with flow := flow, paused := false }) s)

/-- DEFICIT_NOTICE (R126). -/
def takeDeficit : State → State := unlessHaltedFeed tryArbiter

/-- SITE_SECOND_NOTICE at the distributor (R126). -/
def feedSecond : State → State := unlessHaltedFeed tryArbiter

/-- The distributor learns of a part state; at an entry into RUN it tries the arbiter (R126). -/
def feedEnters (p : PartState) (s : State) : State :=
  let t := onFds (fun f => { f with view := p }) s
  if p = .run then tryArbiter t else t

/-- CLEAR in the distributor (R143). -/
def clearFeed : State → State := onFds fun f => Fds.cold f.view

/-! ## Taking a batch (R120, R121) -/

/-- The destination mask names a used sector (R120). -/
def namesUsed (s : State) (destination : BitVec 16) : Bool :=
  (usedSectors s).any fun k => destination.getLsbD k.1

/-- A word names a mix class. -/
def mixOf (w : Word) : Option MixClass := if h : w.toNat < 4 then some ⟨w.toNat, h⟩ else none

/-- The check of a batch handed over: its mix class, or the reason of the first check it fails (R120). -/
def checkBatch (s : State) (r : BatchRequest) : Except Reason MixClass :=
  if r.postNumber.toNat ≤ s.fds.lastPost.toNat then .error .stale
  else if r.volume.toNat < 50 ∨ 12000 < r.volume.toNat then .error .badVolume
  else if 7200 < r.ageAtPost.toNat then .error .badAge
  else match mixOf r.mixClass with
    | none => .error .badMix
    | some c =>
      if !namesUsed s r.destination then .error .badMask
      else if (s.psv.rig.mixes[c]).maxPlacement ≤ r.ageAtPost.toNat then .error .tooOld
      else .ok c

/-- The record a take sets up (R121). -/
def takenRecord (s : State) (r : BatchRequest) (mix : MixClass) : BatchRecord where
  postNumber := r.postNumber
  volume := r.volume.toNat
  ageAtPost := r.ageAtPost.toNat
  mix := mix
  destination := r.destination
  takeTime := site s
  origin := site s - r.ageAtPost
  delivered := 0
  wasted := 0
  remaining := r.volume.toNat
  cause := .none
  toWaste := false
  entries := []
  lastPortion := none
  state := .lined

/-- A batch is taken (R121). -/
def takeBatch (slot : BatchSlot) (r : BatchRequest) (mix : MixClass) (s : State) : State :=
  let rec_ := takenRecord s r mix
  tryArbiter (writeSlot slot (some .lined) rec_.report
    (onFds (fun f => { f with records := put f.records slot (some rec_), lastPost := r.postNumber,
                              line := f.line ++ [slot] }) s))

/-- A batch is refused (R120). -/
def refuseBatch (slot : BatchSlot) (reason : Reason) (s : State) : State :=
  writeSlot slot (some .refused) (refusalReport reason (site s)) s

/-- The feed line holds 4 batches (08 R149). -/
def lineFull (s : State) : Bool := decide (Config.lineDepth ≤ s.fds.line.length)

/-- A batch handed over while the line has room is checked, and taken or refused (R120, R121). -/
def judgeBatch (slot : BatchSlot) (r : BatchRequest) (s : State) : State :=
  match checkBatch s r with
  | .ok mix => takeBatch slot r mix s
  | .error reason => refuseBatch slot reason s

/-! ## Cancels and exits (R139 to R141) -/

/-- A word names a batch slot. -/
def batchSlotOf (w : Word) : Option BatchSlot := if h : w.toNat < 48 then some ⟨w.toNat, h⟩ else none

/-- The to-waste flag of a record is set, and the slot's report is written (R139, R142). -/
def markToWaste (slot : BatchSlot) (r : BatchRecord) (s : State) : State :=
  let r' := { r with toWaste := true }
  writeSlot slot none r'.report (setBatch slot (some r') s)

/-- An open drop gate of the batch, with what has passed (R139). -/
def openDropOf (s : State) (slot : BatchSlot) : Option Nat :=
  match s.fds.gate with
  | .drop _ g => if g.slot = slot ∧ g.passed = none then some (cutVolume s g) else none
  | _ => none

/-- A cancel of a batch with a live record (R139). -/
def cancelLive (order : OrderSlot) (slot : BatchSlot) (r : BatchRecord) (s : State) : State :=
  match r.state with
  | .lined =>
    when (decide (s.fds.line.head? = some slot)) tryArbiter (answerOrder order .done (markToWaste slot r s))
  | .pouring =>
    match openDropOf s slot with
    | some v => send (.orderOutcome order (.outcome .done (natWord v))) (cutGate (markToWaste slot r s))
    | none => answerOrder order .done (markToWaste slot r s)
  | _ => answerOrder order .notCancellable s

/-- CANCEL_BATCH (R139). One handed over before a STOP or a warning is carried out in STOPPING and POWER_DOWN too (DESIGN
CHOICE, log 90). -/
def takeCancel (order : OrderSlot) (batch : Word) (image : BatchState) : State → State :=
  unlessHaltedFeed fun s =>
    match batchSlotOf batch with
    | none => answerOrder order .badArgument s
    | some slot =>
      match batchOf s slot with
      | some r => cancelLive order slot r s
      | none =>
        if image = .posted then answerOrder order .done (refuseBatch slot .cancelled s)
        else answerOrder order .notCancellable s

/-- The entry an exit notice names has no exit time yet (R141). -/
def awaitsExit (r : BatchRecord) (index : PortionIndex) : Bool :=
  match r.entries[index.1]? with
  | some e => e.exit.isNone
  | none => false

/-- A record with an entry's exit time set (R141). -/
def BatchRecord.withExit (r : BatchRecord) (index : PortionIndex) (time : Word) : BatchRecord :=
  { r with entries := r.entries.modify index.1 fun e => { e with exit := some time } }

/-- An exit is recorded, which may make the batch SPENT (R141). -/
def recordExit (slot : BatchSlot) (r : BatchRecord) (s : State) : State :=
  if r.remaining = 0 ∧ r.standing = false then
    writeSlot slot (some .spent) r.report (setBatch slot none s)
  else writeSlot slot none r.report (setBatch slot (some r) s)

/-- EXIT_NOTICE (R141). -/
def takeExitNotice (slot : BatchSlot) (index : PortionIndex) (time : Word) : State → State :=
  unlessHaltedFeed fun s =>
    match batchOf s slot with
    | some r => if awaitsExit r index then recordExit slot (r.withExit index time) s else s
    | none => s

/-! ## Resets (R143, 10 R179) -/

/-- The volume a reset's cut records: the one recorded already, the one of a placement that has still to be answered, or what
has passed by now (R135, 10 R179). -/
def resetCut (s : State) (g : GateRun) : Nat := g.cut.getD (g.passed.getD (cutVolume s g))

/-- The gate record after a reset's cut. -/
def GateRun.resetAt (g : GateRun) (volume : Nat) : GateRun := { g with passed := some volume, cut := some volume }

/-- The cut a reset makes: the cut volume is written into the gate record, and nothing is sent (10 R179). -/
def cutAtReset (s : State) : State :=
  match s.fds.gate with
  | .drop sector g => onFds (fun f => { f with gate := .drop sector (g.resetAt (resetCut s g)) }) s
  | .waste g cause => onFds (fun f => { f with gate := .waste (g.resetAt (resetCut s g)) cause }) s
  | .idle => s

/-- What a warm start does with the gate record it finds: a cut volume is placed or wasted; a record without one, left by an
entry into HALTED, has its plan ended with a placement of 0, and no volume moves (10 R179, log 70). -/
def warmGate (s : State) : State :=
  match s.fds.gate with
  | .drop sector g => closeDrop sector g (g.cut.getD 0) s
  | .waste g cause =>
    match g.cut with
    | some volume => closeWaste g cause volume s
    | none => idleGate s
  | .idle => send .dropPlan s

/-- The distributor at a warm start: what it retains is kept (R143). -/
def Fds.warm (f : Fds) : Fds := { f with plan := .none, owesReport := false }

/-! ## Meanings -/

/-- POUR_PLAN_ANSWER (R130). -/
def execPourPlanAnswer (answer : PlanAnswer) (s : State) : Result := taking (.pourPlanAnswer answer) (takePlanAnswer answer) s

/-- PLACEMENT_ANSWER (R131). -/
def execPlacementAnswer (result : PlacementResult) (s : State) : Result :=
  taking (.placementAnswer result) (takePlacementAnswer result) s

/-- GATE_CLOSE (R131). -/
def execGateClose (s : State) : Result := whileActing takeGateClose s

/-- WASTE_GATE_CLOSE (R132). -/
def execWasteGateClose (s : State) : Result := whileActing takeWasteGateClose s

/-- FEED_STOP (R136). -/
def execFeedStop (s : State) : Result := taking .feedStop takeFeedStop s

/-- FEED_POWER_DOWN (10 R178). -/
def execFeedPowerDown (s : State) : Result := taking .feedPowerDown takeFeedPowerDown s

/-- DEFICIT_NOTICE (R126). -/
def execDeficitNotice (s : State) : Result := taking .deficitNotice takeDeficit s

/-- CANCEL_BATCH (R139). -/
def execCancelBatch (slot : OrderSlot) (batch : Word) (image : BatchState) (s : State) : Result :=
  taking (.cancelBatch slot batch image) (takeCancel slot batch image) s

/-- EXIT_NOTICE (R141). -/
def execExitNotice (slot : BatchSlot) (index : PortionIndex) (time : Word) (s : State) : Result :=
  taking (.exitNotice slot index time) (takeExitNotice slot index time) s

end Sys2Proof.Machine
end

