-- ==== Sys2Proof/Machine/Level.lean ====
section
/-! DEFINITION. The Level Bus Poller: frames and their check byte, transactions, readings and the deviation check (05). -/

namespace Sys2Proof.Machine

open Sys2Proof

/-! ## Frames (R84, R85) -/

/-- One bit of the CRC-8 with polynomial x^8 + x^2 + x + 1 (R84). -/
def crcBit (c : Byte) : Byte := if c.msb then (c <<< 1) ^^^ 0x07#8 else c <<< 1

/-- One byte of the CRC-8, most significant bit first (R84). -/
def crcByte (c b : Byte) : Byte :=
  crcBit (crcBit (crcBit (crcBit (crcBit (crcBit (crcBit (crcBit (c ^^^ b))))))))

/-- The CRC-8 over the bytes of a frame between its start byte and its check byte (R84). -/
def crc8 (bytes : List Byte) : Byte := bytes.foldl crcByte 0

/-- The station number as the address of its cell (R84). -/
def cellAddress (st : Station) : Byte := BitVec.ofNat 8 st.1

/-- The query to a station's cell (R84). -/
def queryFrame (st : Station) : List Byte :=
  [0x5A#8, cellAddress st, 0x01#8, crc8 [cellAddress st, 0x01#8]]

/-- What a valid reply says: the elevation and the cell status (R85). -/
structure Reply where
  elevation : BitVec 24
  status : CellStatus
  deriving DecidableEq, Repr

/-- The reply judged: none when it fails (R85). -/
def judgeReply (st : Station) (bytes : List Byte) (framingError : Bool) : Option Reply :=
  match bytes with
  | [b1, b2, b3, b4, b5, b6, b7] =>
    if !framingError && b1 == 0xA5#8 && b2 == cellAddress st && b7 == crc8 [b2, b3, b4, b5, b6] then
      some ⟨b4 ++ b5 ++ b6, if b3 = 0x00#8 then .good else .cellFault⟩
    else none
  | _ => none

/-! ## Readings (R92) -/

/-- The reading of a station, if present. -/
def readingOf (s : State) (st : Station) : Option Reading := s.lbp.readings[st]

/-- The state with the poller changed. -/
def onLbp (f : Lbp → Lbp) (s : State) : State := { s with lbp := f s.lbp }

/-- The age of a reading in milliseconds (R92). -/
def readingAge (s : State) (r : Reading) : Nat := since (now s) r.taken

/-- The reading is fresh (R92). -/
def isFreshReading (s : State) (r : Reading) : Bool :=
  decide (r.status = .good) && !r.inMotion && decide (readingAge s r < 1000 * s.psv.rig.freshnessLimit)

/-- The station has a fresh reading (R92). -/
def isFresh (s : State) (st : Station) : Bool :=
  match readingOf s st with
  | none => false
  | some r => isFreshReading s r

/-- The elevation a station's reading gives, 0 where there is none. -/
def elevationOf (s : State) (st : Station) : Int :=
  match readingOf s st with
  | none => 0
  | some r => r.elevation.toInt

/-! ## The comparison of probes and counts (R93, R94) -/

/-- The set S: the ACTIVE stations with fresh readings (R93, 10 R185). -/
def comparedStations (s : State) : List Station := (activeStations s).filter (isFresh s)

/-- The scaled difference of a station against a set (R94). -/
def scaledDifference (s : State) (S : List Station) (st : Station) : Int :=
  let n : Int := S.length
  let readings : Int := (S.map (elevationOf s)).sum
  let counts : Int := (S.map fun t => ((recordOf s t).count : Int)).sum
  (n * elevationOf s st - readings) - (s.psv.rig.strokeLength : Int) * (n * (recordOf s st).count - counts)

/-- The station is out of tolerance against a set (R94). -/
def outOfTolerance (s : State) (S : List Station) (st : Station) : Bool :=
  decide (S.length * s.psv.rig.probeTolerance < (scaledDifference s S st).natAbs)

/-- The episode flag of a station takes a value (R95). -/
def setEpisode (st : Station) (isOpen : Bool) (s : State) : State :=
  onLbp (fun l => { l with episodes := put l.episodes st isOpen }) s

/-- The outcome of a deviation check acts on the episode flag (R95). -/
def actOnCheck (st : Station) (out : Bool) (s : State) : State :=
  if out && !s.lbp.episodes[st] then send (.markRequest st .deviation) (setEpisode st true s)
  else if !out then setEpisode st false s else s

/-- What follows when a good reply has replaced a station's reading: the check runs while the part state is RUN as it stands
(R93, log 62). -/
def checkDeviation (st : Station) (s : State) : State :=
  if isFresh s st then
    if isActive s st then
      if s.psv.state = .run ∧ 4 ≤ (comparedStations s).length then
        actOnCheck st (outOfTolerance s (comparedStations s) st) s
      else s
    else setEpisode st false s
  else s

/-! ## Transactions (R86 to R89) -/

/-- The part states in which the poller polls (R86). -/
def polls : PartState → Bool
  | .config | .run | .stopping | .recovery => true
  | _ => false

/-- The fitted stations, in ascending order. -/
def fittedStations (s : State) : List Station := allStations.filter (fitted s)

/-- The station the next transaction goes to, none while no station is fitted (R86). -/
def nextPoll (s : State) : Option Station :=
  match s.lbp.pollPosition with
  | none => (fittedStations s).head?
  | some p =>
    match ((fittedStations s).filter fun st => decide (p < st)).head? with
    | some st => some st
    | none => (fittedStations s).head?

/-- TRANSACTION_BEGIN (R86, R87, R89). -/
def takeTransactionBegin (s : State) : State :=
  match s.lbp.transaction, nextPoll s with
  | .idle, some st =>
    if polls s.lbp.view then
      onLbp (fun l => { l with
        transaction := .query st
        pollPosition := some st
        lastEnd := none
        bus := queryFrame st
        roundHeard := l.roundHeard && !decide ((fittedStations s).head? = some st) }) s
    else s
  | _, _ => s

/-- QUERY_SENT: the line is released and the reply is awaited (R84, R87). -/
def takeQuerySent (s : State) : State :=
  match s.lbp.transaction with
  | .query st => onLbp (fun l => { l with transaction := .await st .first (now s), bus := [], incoming := none }) s
  | .retry st => onLbp (fun l => { l with transaction := .await st .second (now s), bus := [], incoming := none }) s
  | _ => s

/-- PROBE_BUS is set (R89). -/
def setProbeBus (s : State) : State :=
  if s.lbp.probeBus then s else requestAttn .event (onLbp (fun l => { l with probeBus := true }) s)

/-- The transaction ends, and with it the round when the station is the highest fitted under the mask now in force (R86, R89,
log 69). -/
def endTransaction (st : Station) (s : State) : State :=
  let t := onLbp (fun l => { l with transaction := .idle, lastEnd := some (now s), incoming := none }) s
  if (fittedStations s).getLast? = some st ∧ s.lbp.roundHeard = false then setProbeBus t else t

/-- A miss (R88), of a station that a START has left unfitted meanwhile too (log 69). -/
def takeMiss (st : Station) (s : State) : State :=
  let run := s.lbp.missRuns[st]
  let t := onLbp (fun l => { l with missRuns := put l.missRuns st (min Config.missLimit (run + 1)) }) s
  when (decide (run + 1 = Config.missLimit)) (send (.eventRequest st)) t

/-- The reply of an attempt fails (R87). -/
def failReply (st : Station) (attempt : Attempt) (s : State) : State :=
  match attempt with
  | .first => onLbp (fun l => { l with transaction := .retry st, bus := queryFrame st, incoming := none }) s
  | .second => endTransaction st (takeMiss st s)

/-- A valid reply replaces the reading (R90); in RECOVERY a good one is notified (10 R183, log 62). -/
def replaceReading (st : Station) (r : Reply) (s : State) : State :=
  let t := onLbp (fun l => { l with
    readings := put l.readings st (some ⟨r.elevation, r.status, now s, l.motion⟩) }) s
  if r.status = .good then
    checkDeviation st (when (decide (s.psv.state = .recovery)) (send (.readingNotice st)) t)
  else t

/-- A valid reply is taken (R88 to R90), of a station that a START has left unfitted meanwhile too (log 69). -/
def takeReply (st : Station) (r : Reply) (s : State) : State :=
  let t := onLbp (fun l => { l with missRuns := put l.missRuns st 0, roundHeard := true }) s
  endTransaction st (if s.lbp.settleHold.isSome then t else replaceReading st r t)

/-- The reply being received, once these bytes have arrived (R85). -/
def arrived (bytes : List Byte) (s : State) : Incoming :=
  match s.lbp.incoming with
  | none => ⟨now s, bytes⟩
  | some r => ⟨r.begun, r.bytes ++ bytes⟩

/-- The reply has begun, and now goes on, within the limits of R85; `query` is the end of the query. -/
def replyInTime (query : Word) (s : State) : Bool :=
  match s.lbp.incoming with
  | none => decide (since (now s) query ≤ Config.replyBegin)
  | some r => decide (since (now s) r.begun ≤ Config.replyEnd)

/-- A reply of which seven bytes have arrived is judged, the bytes after them being discarded (R85, R87). -/
def judgeArrived (st : Station) (attempt : Attempt) (bytes : List Byte) (s : State) : State :=
  match judgeReply st (bytes.take Config.replyLength) false with
  | some r => takeReply st r s
  | none => failReply st attempt s

/-- Bytes that arrive in AWAIT (R85). -/
def receive (st : Station) (attempt : Attempt) (query : Word) (bytes : List Byte) (framingError : Bool) (s : State) :
    State :=
  if framingError || !replyInTime query s then failReply st attempt s
  else if Config.replyLength ≤ (arrived bytes s).bytes.length then judgeArrived st attempt (arrived bytes s).bytes s
  else if bytes = [] then s
  else onLbp (fun l => { l with incoming := some (arrived bytes s) }) s

/-- REPLY_FRAME: bytes of a reply arrive, and the seventh has it judged; outside AWAIT they are discarded
(R85, R87, log 61). -/
def takeReplyFrame (bytes : List Byte) (framingError : Bool) (s : State) : State :=
  match s.lbp.transaction with
  | .await st attempt query => receive st attempt query bytes framingError s
  | _ => s

/-- REPLY_TIMEOUT (R85, R87). -/
def takeReplyTimeout (s : State) : State :=
  match s.lbp.transaction with
  | .await st attempt _ => failReply st attempt s
  | _ => s

/-! ## Motion, ages, hold -/

/-- The poller takes nothing in HALTED (R97, log 36). -/
def unlessHaltedLevel (f : State → State) (s : State) : State := if s.lbp.view = .halted then s else f s

/-- MOTION_ON_NOTICE (R91). -/
def takeMotionOn : State → State := unlessHaltedLevel <| onLbp fun l =>
  { l with motion := true, readings := mapAll l.readings fun r => r.map fun x => { x with inMotion := true } }

/-- MOTION_OFF_NOTICE (R91). -/
def takeMotionOff : State → State := unlessHaltedLevel <| onLbp fun l => { l with motion := false }

/-- READING_MADE_ABSENT (R92). -/
def makeAbsent (st : Station) : State → State := onLbp fun l => { l with readings := put l.readings st none }

/-- SETTLE_HOLD_END (R97). -/
def endSettleHold : State → State := onLbp fun l => { l with settleHold := none }

/-- The transaction in flight is abandoned and the line released (R87, R97). -/
def Lbp.abandon (l : Lbp) : Lbp := { l with transaction := .idle, lastEnd := none, bus := [], incoming := none }

/-- A power-fail warning in the poller: the transaction in flight is abandoned and polling stops (R97). -/
def warnLevel : State → State := onLbp fun l => { l.abandon with view := .powerDown }

/-- Every reading absent, every miss run 0, every episode closed (R96, R97). -/
def Lbp.forget (l : Lbp) : Lbp :=
  { l with readings := Vector.replicate 64 none, missRuns := Vector.replicate 64 0,
           episodes := Vector.replicate 64 false }

/-- CLEAR in the poller (R96). -/
def clearLevel : State → State := onLbp fun l => { l.forget with probeBus := false }

/-- A return of good supply in the poller (R97); the transaction was abandoned at the warning. -/
def restoreLevel (s : State) : State :=
  onLbp (fun l => { l.forget.abandon with motion := false, pollPosition := none, settleHold := some (now s) }) s

/-- The poller learns of a part state (R86, R97). -/
def levelEnters (p : PartState) (s : State) : State :=
  let t := onLbp (fun l => { l with view := p }) s
  if polls p then t else onLbp Lbp.abandon t

/-- A START that changes the fitted mask (R86); a transaction in flight goes on (log 69). -/
def refitLevel (mask : BitVec 64) : State → State := onLbp fun l =>
  { l with
    pollPosition := none
    readings := tabulate fun st => if fittedIn mask st then l.readings[st] else none
    missRuns := tabulate fun st => if fittedIn mask st then l.missRuns[st] else 0
    episodes := tabulate fun st => fittedIn mask st && l.episodes[st] }

/-! ## Meanings -/

/-- TRANSACTION_BEGIN (R86). -/
def execTransactionBegin (s : State) : Result := whileActing takeTransactionBegin s

/-- QUERY_SENT (R87). -/
def execQuerySent (s : State) : Result := whileActing takeQuerySent s

/-- REPLY_FRAME (R90). -/
def execReplyFrame (bytes : List Byte) (framingError : Bool) (s : State) : Result :=
  whileActing (takeReplyFrame bytes framingError) s

/-- REPLY_TIMEOUT (R85). -/
def execReplyTimeout (s : State) : Result := whileActing takeReplyTimeout s

/-- READING_MADE_ABSENT (R92). -/
def execReadingMadeAbsent (st : Station) (s : State) : Result := whileActing (makeAbsent st) s

/-- SETTLE_HOLD_END (R97). -/
def execSettleHoldEnd (s : State) : Result := whileActing endSettleHold s

/-- MOTION_ON_NOTICE (R91). -/
def execMotionOnNotice (s : State) : Result := taking .motionOnNotice takeMotionOn s

/-- MOTION_OFF_NOTICE (R91). -/
def execMotionOffNotice (s : State) : Result := taking .motionOffNotice takeMotionOff s

end Sys2Proof.Machine
end

