-- ==== Sys2Proof/Machine/Stroke.lean ====
section
/-! DEFINITION. The Stroke Sensing Unit: reads of the switch matrix, debounce, edges, windows, queues and strays (02). -/

namespace Sys2Proof.Machine

open Sys2Proof

/-! ## Debounce (R20 to R22) -/

/-- The raw level of the switch at a column: closed when the column conducts (R17). -/
def rawLevel (columns : Byte) (column : Fin 8) : SwitchLevel :=
  if columns.getLsbD column.1 then .closed else .opened

/-- The kind of the edge to a new level (R21). -/
def edgeKindOf : SwitchLevel → EdgeKind
  | .closed => .extend
  | .opened => .retract

/-- A read of a station during the adopting scan (R22). -/
def SsuStation.adopt (raw : SwitchLevel) (u : SsuStation) : SsuStation := { u with level := raw, run := 0 }

/-- A read of a station after adoption: the station with its run, and the edge if the level is accepted (R20, R21). -/
def SsuStation.read (scans : Nat) (raw : SwitchLevel) (at_ : Word) (u : SsuStation) :
    SsuStation × Option EdgeRecord :=
  if raw = u.level then ({ u with run := 0 }, none)
  else
    let first := if u.run = 0 then at_ else u.runFirst
    if scans ≤ u.run + 1 then
      ({ u with level := raw, run := 0, runFirst := first }, some ⟨edgeKindOf raw, first⟩)
    else ({ u with run := u.run + 1, runFirst := first }, none)

/-! ## Windows and queues (R23 to R28) -/

/-- The kinds a window accepts include this one (R23). -/
def accepts : WindowKinds → EdgeKind → Bool
  | .both, _ => true
  | .extendOnly, .extend => true
  | .retractOnly, .retract => true
  | _, _ => false

/-- The notice for a kind is armed (R27). -/
def SsuStation.armed (u : SsuStation) : EdgeKind → Bool
  | .extend => u.armedExtend
  | .retract => u.armedRetract

/-- The notice for a kind is spent (R27). -/
def SsuStation.spend (u : SsuStation) : EdgeKind → SsuStation
  | .extend => { u with armedExtend := false }
  | .retract => { u with armedRetract := false }

/-- OPEN_WINDOW at a station (R23). -/
def SsuStation.openWindow (kinds : WindowKinds) (notices : Bool) (u : SsuStation) : SsuStation :=
  match u.window with
  | none => { u with window := some ⟨kinds, notices⟩, queue := [], overflow := false,
                     armedExtend := true, armedRetract := true }
  | some _ => { u with window := some ⟨kinds, notices⟩ }

/-- CLOSE_WINDOW at a station (R24). -/
def SsuStation.closeWindow (u : SsuStation) : SsuStation :=
  match u.window with
  | none => u
  | some _ => { u with window := none, queue := [], overflow := false, armedExtend := false, armedRetract := false }

/-- What DRAIN_QUEUE leaves of a station, its window open or closed: the queue empty, the overflow flag clear and both
notices armed (R27, R28, log 48). -/
def SsuStation.drained (u : SsuStation) : SsuStation :=
  { u with queue := [], overflow := false, armedExtend := true, armedRetract := true }

/-- An edge offered to the queue: the station after it, and whether the record joined (R26). -/
def SsuStation.offer (e : EdgeRecord) (u : SsuStation) : SsuStation × Bool :=
  if u.overflow then (u, false)
  else if u.queue.length < Config.queueDepth then ({ u with queue := u.queue ++ [e] }, true)
  else ({ u with overflow := true }, false)

/-- A stray is counted: the station after it, and whether a mark request is due (R30). -/
def SsuStation.stray (limit : Nat) (u : SsuStation) : SsuStation × Bool :=
  if limit ≤ u.strays + 1 then ({ u with strays := 0 }, true) else ({ u with strays := u.strays + 1 }, false)

/-- What a station of the unit is set to at entry into HALTED (R34); its debounce run is abandoned (log 50). -/
def SsuStation.stopped (u : SsuStation) : SsuStation :=
  { u with window := none, queue := [], overflow := false, armedExtend := false, armedRetract := false, run := 0 }

/-! ## The unit in the part -/

/-- What the Stroke Sensing Unit keeps of a station. -/
def ssuOf (s : State) (st : Station) : SsuStation := s.ssu.stations[st]

/-- The state with a station of the unit changed. -/
def setSsu (s : State) (st : Station) (u : SsuStation) : State :=
  { s with ssu := { s.ssu with stations := put s.ssu.stations st u } }

/-- The state with every station of the unit changed by `f`. -/
def mapSsu (f : SsuStation → SsuStation) (s : State) : State :=
  { s with ssu := { s.ssu with stations := mapAll s.ssu.stations f } }

/-- The part states in which an edge outside its window is a stray; in the others it is discarded, in POWER_DOWN too
(R25, log 49). -/
def countsStrays : PartState → Bool
  | .run | .stopping | .recovery => true
  | _ => false

/-- An edge outside its window: a stray or discarded, by the part state at the moment of acceptance (R25, R30, log 62). -/
def strayEdge (st : Station) (s : State) : State :=
  if countsStrays s.psv.state then
    let r := (ssuOf s st).stray s.psv.rig.strayLimit
    when r.2 (send (.markRequest st .stray)) (setSsu s st r.1)
  else s

/-- An edge its window accepts: offered to the queue, and notified if it is the first of its kind (R26, R27). -/
def queueEdge (st : Station) (e : EdgeRecord) (w : Window) (s : State) : State :=
  let r := (ssuOf s st).offer e
  if r.2 && w.notices && r.1.armed e.kind then
    send (.firstOfKindNotice st e.kind e.time) (setSsu s st (r.1.spend e.kind))
  else setSsu s st r.1

/-- The disposition of an edge (R25). -/
def disposeEdge (st : Station) (e : EdgeRecord) (s : State) : State :=
  if fitted s st then
    match (ssuOf s st).window with
    | some w => if accepts w.kinds e.kind then queueEdge st e w s else strayEdge st s
    | none => strayEdge st s
  else s

/-- The station at a crossing of the matrix (R17). -/
def crossing (row column : Fin 8) : Station := ⟨8 * row.1 + column.1, by omega⟩

/-- The read of one station (R20 to R22). -/
def readStation (row : Fin 8) (columns : Byte) (column : Fin 8) (s : State) : State :=
  let st := crossing row column
  let raw := rawLevel columns column
  if s.ssu.adopting then setSsu s st ((ssuOf s st).adopt raw)
  else
    let r := (ssuOf s st).read s.psv.rig.debounceScans raw (now s)
    match r.2 with
    | none => setSsu s st r.1
    | some e => disposeEdge st e (setSsu s st r.1)

/-- The reads of the eight columns of a row, column 0 first (R17, log 47). -/
def readColumns (row : Fin 8) (columns : Byte) (s : State) : State :=
  (List.finRange 8).foldl (fun t column => readStation row columns column t) s

/-- The scan stops and every debounce run is abandoned (R34). -/
def stopScan (s : State) : State :=
  mapSsu (fun u => { u with run := 0 }) { s with ssu := { s.ssu with scan := .stopped } }

/-- The row after the one read, or the end of the scan: adoption is over, the next scan takes the row time in force
(R17, R18, R22) and, in the bench matrix pass, an idle read comes before it (09 R171). -/
def nextRow (row : Fin 8) (idleNext : Bool) (s : State) : State :=
  if h : row.1 + 1 < 8 then { s with ssu := { s.ssu with position := .row ⟨row.1 + 1, h⟩ } }
  else
    { s with ssu := { s.ssu with position := if idleNext then .idle else .row 0, adopting := false,
                                 rowTime := s.psv.rig.rowTime } }

/-- A row is read and the scan goes on, or stops with this row when a power-fail warning has come (R17, R34). -/
def readRow (row : Fin 8) (columns : Byte) (idleNext : Bool) (s : State) : State :=
  let t := nextRow row idleNext (readColumns row columns s)
  if s.ssu.scan = .ending then stopScan t else t

/-- OPEN_WINDOW (R23); in HALTED the windows stay closed (R34, log 20). -/
def takeOpenWindow (st : Station) (kinds : WindowKinds) (notices : Bool) (s : State) : State :=
  if s.ssu.view = .halted then s else setSsu s st ((ssuOf s st).openWindow kinds notices)

/-- CLOSE_WINDOW (R24). -/
def takeCloseWindow (st : Station) (s : State) : State := setSsu s st (ssuOf s st).closeWindow

/-- DRAIN_QUEUE and its answer (R28, R29). -/
def takeDrainQueue (st : Station) (s : State) : State :=
  send (.drainAnswer st (ssuOf s st).queue (ssuOf s st).overflow) (setSsu s st (ssuOf s st).drained)

/-- STRAY_RESET (R31). -/
def takeStrayReset (st : Station) (s : State) : State := setSsu s st { ssuOf s st with strays := 0 }

/-- Every stray count becomes 0 (R31, R33), at a second line reset in HOLD mode too (09 R169, log 63). -/
def clearStrays (s : State) : State := mapSsu (fun u => { u with strays := 0 }) s

/-- The unit as R32 sets it, with the row time in force and the view it had. -/
def resetSsu (s : State) : State := { s with ssu := Ssu.reset s.psv.rig.rowTime s.ssu.view }

/-- The unit learns of a part state: it stops in HALTED, and in POWER_DOWN unless the row that was being driven at the
warning has still to be read (R19, R34, log 19). -/
def ssuEnters (p : PartState) (s : State) : State :=
  let t : State := { s with ssu := { s.ssu with view := p } }
  match p with
  | .powerDown => if s.ssu.scan = .ending then t else stopScan t
  | .halted => mapSsu SsuStation.stopped { t with ssu := { t.ssu with scan := .stopped } }
  | _ => t

/-- A power-fail warning: the scan ends with the row now driven (R34, log 19). -/
def endScan (s : State) : State :=
  if s.ssu.scan = .running then { s with ssu := { s.ssu with scan := .ending } } else s

/-- OPEN_WINDOW (R23). -/
def execOpenWindow (st : Station) (kinds : WindowKinds) (notices : Bool) (s : State) : Result :=
  taking (.openWindow st kinds notices) (takeOpenWindow st kinds notices) s

/-- CLOSE_WINDOW (R24). -/
def execCloseWindow (st : Station) (s : State) : Result := taking (.closeWindow st) (takeCloseWindow st) s

/-- DRAIN_QUEUE (R28). -/
def execDrainQueue (st : Station) (s : State) : Result := taking (.drainQueue st) (takeDrainQueue st) s

/-- STRAY_RESET (R31). -/
def execStrayReset (st : Station) (s : State) : Result := taking (.strayReset st) (takeStrayReset st) s

end Sys2Proof.Machine
end

