-- ==== Sys2Proof/Machine/Publish.lean ====
section
/-! DEFINITION. The body of the Status Page: the rig record, the station records and the sector records (11, Status Page;
04 R52, 06 R115, 07 R142). -/

namespace Sys2Proof.Machine

open Sys2Proof

/-- A record of exactly `n` words: the given words, the unnamed ones after them 0 (11 R189). -/
def recordWords (n : Nat) (ws : List Word) : List Word := (ws ++ List.replicate (n - ws.length) 0).take n

/-! ## The rig record -/

/-- The gate as the rig record shows it: its code and its sector (11, Rig record). -/
def gateBytes : Gate → Nat × Nat
  | .idle => (0, absentByte)
  | .drop k _ => (1, k.1)
  | .waste _ _ => (2, absentByte)

/-- The portion or waste in flight, if any (07 R142). -/
def runOf : Gate → Option GateRun
  | .idle => none
  | .drop _ g => some g
  | .waste g _ => some g

/-- Milliseconds to the next wave start, or that none is scheduled (04 R52). -/
def nextStartWord (s : State) : Word :=
  match wavePeriod s with
  | none => absentWord
  | some p => natWord (p - s.wvc.dwell)

/-- The feed line's slot indices, head in byte 0 (11, Rig record). -/
def lineWord (slots : List BatchSlot) : Word :=
  let b (i : Nat) : Nat := match slots[i]? with
    | some slot => slot.1
    | none => absentByte
  bytesWord (b 0) (b 1) (b 2) (b 3)

/-- The rig events (08 R152). -/
def rigEvents (s : State) : BitVec 5 :=
  assignBit (assignBit (assignBit (assignBit (assignBit 0
    0 s.exc.misuseEvent) 1 s.exc.directiveBad) 2 s.tmb.clockLost) 3 s.lbp.probeBus) 4 s.psv.repeatedOutage

/-- The misuse record (11, Rig record). -/
def misuseWord : Option (Board × Nat) → Word
  | none => 0
  | some (.order, i) => bytesWord 1 i 0 0
  | some (.batch, i) => bytesWord 2 i 0 0

/-- The rig check detail (11, Rig record). -/
def rigCheckWord : Option (CommandOutcome × Nat) → Word
  | none => 0
  | some (o, f) => bytesWord (commandOutcomeCode o) f 0 0

/-- The words of the portion or waste in flight (11, Rig record). -/
def flightWords (s : State) : List Word :=
  match runOf s.fds.gate with
  | none => [bytesWord absentByte 0 0 0, 0, 0]
  | some g => [bytesWord g.slot.1 0 0 0, natWord g.volume, now s - g.openedAt]

/-- The named words of the rig record (11, Rig record). -/
def rigNamed (s : State) : List Word :=
  [bytesWord (partStateCode s.psv.state) (climbCode s.wvc.climb) (gateBytes s.fds.gate).1 (gateBytes s.fds.gate).2,
   s.wvc.holds.setWidth 32, s.wvc.waveNumber, nextStartWord s,
   intWord ((minEffective s).getD 0), intWord ((maxEffective s).getD 0),
   s.exc.edition, s.exc.lastRejected, natWord s.exc.badField]
  ++ flightWords s ++
  [natWord s.fds.line.length, lineWord s.fds.line,
   natWord (flagNat s.fds.paused + 2 * flagNat s.tmb.clockValid), site s,
   (rigEvents s).setWidth 32, misuseWord s.exc.misuse, rigCheckWord s.psv.rigCheck]

/-- The rig record, 4004h to 40FFh. -/
def rigRecord (s : State) : List Word := recordWords 63 (rigNamed s)

/-! ## Station records -/

/-- The flags of a station record (11, Station record). -/
def stationFlags (s : State) (st : Station) : Nat :=
  let r := recordOf s st
  flagNat r.inDoubt + 2 * flagNat r.lastStroke.isSome + 4 * flagNat (readingOf s st).isSome
    + 8 * flagNat (isFresh s st) + 16 * flagNat ((readingOf s st).any Reading.inMotion)

/-- The words of a station's reading (05 R92; 11, Station record). -/
def readingWords (s : State) (st : Station) : List Word :=
  match readingOf s st with
  | none => [0, 0, absentWord]
  | some r => [intWord r.elevation.toInt, if r.status = .good then 0 else 1, natWord (readingAge s r)]

/-- The record of a station (11, Station record). -/
def stationRecord (s : State) (st : Station) : List Word :=
  let r := recordOf s st
  recordWords 16
    ([bytesWord (serviceCode r.service) r.marks r.cleanRun (ssuOf s st).strays, natWord r.count,
      intWord s.wvc.values.trims[st], intWord (effectiveCount s st), r.events.setWidth 32,
      natWord (stationFlags s st), natWord (r.lastStroke.getD 0)] ++ readingWords s st)

/-! ## Sector records -/

/-- A layer as the sector record shows it (11, Sector record). -/
def layerWords (s : State) (l : Layer) : List Word :=
  match l.kind with
  | .concrete c =>
    recordWords 8 [bytesWord 1 c.slot.1 c.index.1 (flagNat c.jointReported), intWord l.bottom, natWord l.thickness,
      c.placed, natWord (concreteAge s c.origin)]
  | .gap => recordWords 8 [bytesWord 2 absentByte absentByte 0, intWord l.bottom, natWord l.thickness, absentWord, absentWord]

/-- A pending opening as the sector record shows it. -/
def openingWords (o : Opening) : List Word := [intWord o.lower, intWord o.upper]

/-- The destination mask eligibility is shown for: the head's, or every sector (06 R115). -/
def shownDestination (s : State) : BitVec 16 :=
  match s.fds.line with
  | [] => BitVec.allOnes 16
  | slot :: _ => match batchOf s slot with
    | some r => r.destination
    | none => BitVec.allOnes 16

/-- The flags of a used sector (11, Sector record). -/
def sectorFlags (s : State) (k : Sector) : Nat :=
  flagNat (isUrgent s k) + 2 * flagNat (isEligible s (shownDestination s) k)
    + 4 * flagNat (s.ltr.age.getLsbD k.1) + 8 * flagNat (s.ltr.fill.getLsbD k.1)

/-- The words of a sector before its layers (11, Sector record; 06 R115). -/
def sectorHead (s : State) (k : Sector) : List Word :=
  if used s k then
    [intWord (formBottom s k), intWord (formTop s k), intWord (fillTop s k), intWord (fillDepth s k),
     natWord (deficitVolume s k), natWord (sectorFlags s k), (s.ltr.events[k]).setWidth 32,
     bytesWord (stackOf s k).length (s.ltr.openings[k]).length 0 0]
  else [0, 0, 0, 0, 0, 0, (s.ltr.events[k]).setWidth 32, 0]

/-- The record of a sector (11, Sector record). -/
def sectorRecord (s : State) (k : Sector) : List Word :=
  if used s k then
    recordWords 128 (recordWords 16 (sectorHead s k)
      ++ recordWords 80 ((stackOf s k).flatMap (layerWords s))
      ++ (s.ltr.openings[k]).flatMap openingWords)
  else recordWords 128 (sectorHead s k)

/-- The body of the Status Page up to the last sector record (11, Status Page). -/
def statusBody (s : State) : List Word :=
  rigRecord s ++ allStations.flatMap (stationRecord s) ++ allSectors.flatMap (sectorRecord s)

/-- The words the layouts name in the Status Page: its head, its body and its tail (11, Status Page). -/
def statusHead : Nat := 0x4000
/-- The first offset of the body. -/
def statusBodyStart : Nat := 0x4004
/-- The offset of the tail edition. -/
def statusTail : Nat := 0x7FFC
/-- The first offset of the unnamed area after the last sector record (11 R189). -/
def statusUnnamed : Nat := 0x7100

/-- The window with the head edition and the body of a publication written (08 R156). -/
def publishedWindow (s : State) (edition : Word) : Memory :=
  clearBytes (writeWords (writeWord s.window statusHead edition) statusBodyStart (statusBody s))
    statusUnnamed (statusTail - statusUnnamed)

end Sys2Proof.Machine
end

