-- ==== Sys2Proof/Machine/Exchange.lean ====
section
/-! DEFINITION. The Exchange Controller: host accesses, the exchange scan, slots and orders, the directive, publication
and attention (08). -/

namespace Sys2Proof.Machine

open Sys2Proof

/-- The state with the controller changed. -/
def onExc (f : Exc → Exc) (s : State) : State := { s with exc := f s.exc }

/-! ## Attention (R158, R159) -/

/-- The controller with its attention sources and mask, the ATTN line following at once (R159). -/
def Exc.withAttn (e : Exc) (attn mask : BitVec 6) : Exc :=
  { e with attn := attn, attnMask := mask, attnLine := decide (attn &&& ~~~mask ≠ 0) }

/-- A source is set (R158). -/
def setAttn (source : AttnSource) : State → State :=
  onExc fun e => e.withAttn (setBit e.attn (attnPosition source)) e.attnMask

/-- ATTN_WRITE: each position written as 1 clears its source (R158). -/
def writeAttn (value : Word) : State → State := onExc fun e => e.withAttn (e.attn &&& ~~~ value.setWidth 6) e.attnMask

/-- ATTN_MASK_WRITE (R159). -/
def writeAttnMask (value : Word) : State → State := onExc fun e => e.withAttn e.attn (value.setWidth 6)

/-- The pace a written word sets: bits 4 to 0, a value above 16 taken as 16 (R159; 11, Port Registers). -/
def paceOf (value : Word) : Nat := min 16 (value.setWidth 5).toNat

/-- ATTN_PACE_WRITE (R159). -/
def writeAttnPace (value : Word) : State → State := onExc fun e => { e with attnPace := paceOf value }

/-! ## Host accesses to the window (R144, 11 R189) -/

/-- The offset names a word of the window (R144; 11, The Exchange Window). -/
def namesWord (offset : Nat) : Bool := decide (offset < 0x8000) && decide (offset % 4 = 0)

/-- The offset stands in one of the unused areas (11 R189). -/
def inUnused (offset : Nat) : Bool :=
  (decide (0x300 ≤ offset) && decide (offset < 0x400)) || (decide (0x600 ≤ offset) && decide (offset < 0x800))
    || (decide (0x3800 ≤ offset) && decide (offset < 0x4000))

/-- A host write of one word (R144, 11 R189). -/
def hostWrite (offset : Nat) (value : Word) (s : State) : State :=
  if inUnused offset then s else { s with window := writeWord s.window offset value }

/-- The port arbiter serves the host: the part has power (R144, 09 R168). -/
def powered (s : State) : Bool :=
  match s.power with
  | .off => false
  | _ => true

/-- What a host read of one word finds; none where the offset names no word, or without power (R144, 11 R189, log 34). -/
def State.readWindow (s : State) (offset : Nat) : Option Word :=
  if namesWord offset && powered s then some (if inUnused offset then 0 else readWord s.window offset) else none

/-! ## Slots in the window (11, Order Slot, Batch Slot) -/

/-- The offset of an order slot. -/
def orderBase (slot : OrderSlot) : Nat := 0x400 + 32 * slot.1

/-- The offset of a batch slot. -/
def batchBase (slot : BatchSlot) : Nat := 0x800 + 256 * slot.1

/-- The words of a portion entry (11, Batch Slot). -/
def entryWords (e : PortionEntry) : List Word :=
  [natWord e.sector.1, bytesWord (dispositionCode e.disposition) (flagNat e.exit.isSome) 0 0, natWord e.volume,
   e.firstPlaced, e.exit.getD 0]

/-- The words of the report fields of a batch slot, 20h to DFh (11, Batch Slot). -/
def reportWords (r : BatchReport) : List Word :=
  recordWords 48
    ([reasonCode r.reason, r.takeTime, natWord r.delivered, natWord r.wasted, natWord r.remaining,
      wasteCauseCode r.cause, natWord (flagNat r.toWaste), natWord r.entries.length] ++ r.entries.flatMap entryWords)

/-- The request fields of a batch slot (R149). -/
def readRequest (m : Memory) (slot : BatchSlot) : BatchRequest where
  postNumber := readWord m (batchBase slot + 0x04)
  volume := readWord m (batchBase slot + 0x08)
  ageAtPost := readWord m (batchBase slot + 0x0C)
  mixClass := readWord m (batchBase slot + 0x10)
  destination := readHalf m (batchBase slot + 0x14)

/-- The image of a batch slot takes a state; the slot is no longer being decided (R146, R148). -/
def setBatchImage (slot : BatchSlot) (state : BatchState) : State → State :=
  onExc fun e => { e with batchImages := put e.batchImages slot state, batchHanded := put e.batchHanded slot false }

/-- The image of an order slot takes a state; the slot is no longer being decided (R146, R148). -/
def setOrderImage (slot : OrderSlot) (state : OrderState) : State → State :=
  onExc fun e => { e with orderImages := put e.orderImages slot state, orderHanded := put e.orderHanded slot false }

/-- The window changed by `f`. -/
def onWindow (f : Memory → Memory) (s : State) : State := { s with window := f s.window }

/-- A batch slot is written: the report fields first, then the state word if it changes (R148). -/
def writeBatchSlot (slot : BatchSlot) (state : Option BatchState) (report : BatchReport) (s : State) : State :=
  let t := onWindow (fun m => writeWords m (batchBase slot + 0x20) (reportWords report)) s
  match state with
  | none => t
  | some st =>
    let u := setBatchImage slot st (onWindow (fun m => writeWord m (batchBase slot) (batchStateCode st)) t)
    when (decide (st = .spent) || decide (st = .refused)) (setAttn .batch) u

/-- An order slot is written: outcome and detail first, then the state word if it changes (R148, log 38). -/
def writeOrderSlot (slot : OrderSlot) (state : Option OrderState) (result : Option OrderOutcome) (detail : Word)
    (s : State) : State :=
  let t := onWindow (fun m => writeWord (writeWord m (orderBase slot + 0x14) (orderOutcomeCode result))
    (orderBase slot + 0x18) detail) s
  match state with
  | none => t
  | some st =>
    let u := setOrderImage slot st (onWindow (fun m => writeWord m (orderBase slot) (orderStateCode st)) t)
    when (decide (st = .answered)) (setAttn .order) u

/-- The controller writes nothing into the window in HALTED (R161, log 36). -/
def unlessHaltedExchange (f : State → State) (s : State) : State := if s.exc.view = .halted then s else f s

/-- SLOT_WRITE_REQUEST (R148). -/
def takeSlotWrite (w : SlotWrite) : State → State :=
  unlessHaltedExchange <|
    match w with
    | .batch slot state report => writeBatchSlot slot state report
    | .order slot state result detail => writeOrderSlot slot state result detail

/-- An order is answered in its slot (R150). -/
def finishOrder (slot : OrderSlot) (result : OrderOutcome) (detail : Word) : State → State :=
  writeOrderSlot slot (some .answered) (some result) detail

/-- ORDER_OUTCOME (R150). -/
def takeOrderOutcome (slot : OrderSlot) (answer : OrderAnswer) : State → State :=
  unlessHaltedExchange <|
    match answer with
    | .outcome result detail => finishOrder slot result detail
    | .taken => writeOrderSlot slot (some .taken) none 0

/-! ## Comparing images (R146, R147) -/

/-- A batch slot state in which the part writes no more (08, terms). -/
def batchTerminal : BatchState → Bool
  | .spent | .refused => true
  | _ => false

/-- An order slot state in which the part writes no more (08, terms). -/
def orderTerminal : OrderState → Bool
  | .answered => true
  | _ => false

/-- What the scan finds of a slot (R146). -/
inductive Finding where
  | same | posted | returned | misuse
  deriving DecidableEq, Repr

/-- The finding of a batch slot (R146). -/
def batchFinding (image : BatchState) (word : Word) : Finding :=
  if batchStateCode image = word then .same
  else match batchStateOf word with
    | some .posted => if image = .free || batchTerminal image then .posted else .misuse
    | some .free => if batchTerminal image then .returned else .misuse
    | _ => .misuse

/-- The finding of an order slot (R146). -/
def orderFinding (image : OrderState) (word : Word) : Finding :=
  if orderStateCode image = word then .same
  else match orderStateOf word with
    | some .posted => if image = .free || orderTerminal image then .posted else .misuse
    | some .free => if orderTerminal image then .returned else .misuse
    | _ => .misuse

/-- A misuse is recorded, with its event (R147). -/
def recordMisuse (board : Board) (index : Nat) (s : State) : State :=
  let t := onExc (fun e => { e with misuse := some (board, index), misuseEvent := true }) s
  if s.exc.misuseEvent then t else setAttn .event t

/-- A batch slot is compared with its image (R146, R147). -/
def compareBatch (slot : BatchSlot) (s : State) : State :=
  let image := s.exc.batchImages[slot]
  match batchFinding image (readWord s.window (batchBase slot)) with
  | .same => s
  | .posted => setBatchImage slot .posted s
  | .returned => setBatchImage slot .free s
  | .misuse =>
    recordMisuse .batch slot.1 (onWindow (fun m => writeWord m (batchBase slot) (batchStateCode image)) s)

/-- An order slot is compared with its image (R146, R147). -/
def compareOrder (slot : OrderSlot) (s : State) : State :=
  let image := s.exc.orderImages[slot]
  match orderFinding image (readWord s.window (orderBase slot)) with
  | .same => s
  | .posted => setOrderImage slot .posted s
  | .returned => setOrderImage slot .free s
  | .misuse =>
    recordMisuse .order slot.1 (onWindow (fun m => writeWord m (orderBase slot) (orderStateCode image)) s)

/-- Every slot of both boards is compared, the Order Board first, each board in ascending index (R145, log 56). -/
def compareBoards (s : State) : State :=
  (List.finRange 48).foldl (fun t slot => compareBatch slot t)
    ((List.finRange 16).foldl (fun t slot => compareOrder slot t) s)

/-! ## Taking orders (R150) -/

/-- The image of the batch slot a CANCEL_BATCH names (R139, R150). -/
def imageNamed (s : State) (batch : Word) : BatchState :=
  match batchSlotOf batch with
  | some slot => s.exc.batchImages[slot]
  | none => .free

/-- What an order is handed over as, or the outcome the controller gives it itself (R150). -/
def routeOrder (s : State) (slot : OrderSlot) (kind a b c : Word) : Except (OrderOutcome × Word) Instr :=
  match kind.toNat with
  | 1 => .ok (.cancelBatch slot a (imageNamed s a))
  | 2 => .ok (.requalify slot a b)
  | 3 => .ok (.retire slot a)
  | 4 =>
    match a.toNat with
    | 1 => .ok (.clearEventsStation slot b c)
    | 2 => .ok (.clearEventsSector slot b c)
    | 3 => .ok (.clearEventsRig slot c)
    | _ => .error (.badArgument, 0)
  | 5 => .ok (.addOpening slot a b c)
  | 6 => .ok (.dropOpening slot a b)
  | _ => .error (.badKind, kind)

/-- A posted order that has not been handed over is (R145, R150). -/
def handOrder (slot : OrderSlot) (s : State) : State :=
  if s.exc.orderImages[slot] = .posted ∧ s.exc.orderHanded[slot] = false then
    let w (o : Nat) : Word := readWord s.window (orderBase slot + o)
    match routeOrder s slot (w 0x04) (w 0x08) (w 0x0C) (w 0x10) with
    | .ok c => send c (onExc (fun e => { e with orderHanded := put e.orderHanded slot true }) s)
    | .error (result, detail) => finishOrder slot result detail s
  else s

/-- The posted orders are handed over in ascending slot index (R150). -/
def handOrders (s : State) : State := (List.finRange 16).foldl (fun t slot => handOrder slot t) s

/-! ## Taking batches (R149) -/

/-- The post number of a slot, as a number. -/
def postNumberOf (m : Memory) (slot : BatchSlot) : Nat := (readWord m (batchBase slot + 0x04)).toNat

/-- A slot put into its place in ascending post number, behind those with the same number (R149). -/
def insertCandidate (m : Memory) (slot : BatchSlot) : List BatchSlot → List BatchSlot
  | [] => [slot]
  | c :: cs => if postNumberOf m slot < postNumberOf m c then slot :: c :: cs else c :: insertCandidate m slot cs

/-- The slot is a candidate of a scan: POSTED, and not handed over already (R145, R146). -/
def isCandidate (s : State) (slot : BatchSlot) : Bool :=
  decide (s.exc.batchImages[slot] = .posted) && !s.exc.batchHanded[slot]

/-- The batch candidates in the order they are handed over (R149). -/
def sortedCandidates (s : State) : List BatchSlot :=
  ((List.finRange 48).filter (isCandidate s)).foldl (fun cs slot => insertCandidate s.window slot cs) []

/-- A write of a new state for the slot is waiting to be taken. -/
def writeWaits (s : State) (slot : BatchSlot) : Bool :=
  s.mail.any fun c => match c with
    | .slotWriteRequest (.batch other (some _) _) => decide (other = slot)
    | _ => false

/-- The slot may still be handed over: its image is POSTED and no new state is on its way (R149). -/
def stillPosted (s : State) (slot : BatchSlot) : Bool :=
  decide (s.exc.batchImages[slot] = .posted) && !writeWaits s slot

/-- The next candidate is handed over (R149, log 12), after a STOP too (DESIGN CHOICE, log 88). -/
def handNext (s : State) : State :=
  match s.exc.candidates.dropWhile fun slot => !stillPosted s slot with
  | [] => onExc (fun e => { e with candidates := [] }) s
  | slot :: rest =>
    send (.batchHandover slot (readRequest s.window slot))
      (onExc (fun e => { e with candidates := rest, batchHanded := put e.batchHanded slot true }) s)

/-- A hand-over is on its way to the Feed Distributor. -/
def handoverWaits (s : State) : Bool :=
  s.mail.any fun c => match c with
    | .batchHandover .. => true
    | _ => false

/-- The batch takes of a scan: its candidates are handed over one at a time, the first at once, or behind one of an
earlier scan that is still on its way (R145, R149, log 12). -/
def handBatches (s : State) : State :=
  let t := onExc (fun e => { e with candidates := sortedCandidates s }) s
  if handoverWaits s then t else handNext t

/-- BATCH_HANDOVER: passed by, NO_ROOM, or checked, and then the next candidate (R149, 07 R120). One on its way at a STOP
or a warning is judged in STOPPING, in CONFIG or in POWER_DOWN (DESIGN CHOICE, log 88). -/
def takeHandover (slot : BatchSlot) (request : BatchRequest) : State → State :=
  unlessHaltedFeed fun s =>
    if !stillPosted s slot then handNext (onExc (fun e => { e with batchHanded := put e.batchHanded slot false }) s)
    else if lineFull s then
      onExc (fun e => { e with candidates := [], batchHanded := put e.batchHanded slot false }) s
    else handNext (judgeBatch slot request s)

/-! ## The directive (R153 to R155) -/

/-- The trim byte of a station (11, Directive Page). -/
def trimOf (m : Memory) (st : Station) : Int := (readByte m (0x218 + st.1)).toInt

/-- The first station whose trim is out of range (R154). -/
def badTrim (m : Memory) : Option Station :=
  allStations.find? fun st => decide (trimOf m st < -4) || decide (4 < trimOf m st)

/-- The first field of the body that fails (R154). -/
def badDirectiveField (m : Memory) : Option Nat :=
  if 1 < (readWord m 0x204).toNat then some 1
  else if 600 < (readWord m 0x208).toNat then some 2
  else if 200000 < (readWord m 0x20C).toNat then some 3
  else if 1000 < (readWord m 0x210).toNat then some 4
  else if 65535 < (readWord m 0x214).toNat then some 5
  else (badTrim m).map fun st => 6 + st.1

/-- The values of the body for the Wave Controller (R155). -/
def climbValuesOf (m : Memory) : ClimbValues where
  runRequest := if readWord m 0x204 = 1 then .climb else .hold
  riseRate := (readWord m 0x208).toNat
  topElevation := (readWord m 0x20C).toNat
  trims := tabulate (trimOf m)

/-- An edition is rejected (R154). -/
def rejectEdition (edition : Word) (field : Nat) (s : State) : State :=
  let t := onExc (fun e => { e with lastRejected := edition, badField := field, directiveBad := true }) s
  if s.exc.directiveBad then t else setAttn .event t

/-- An edition is accepted (R155). -/
def acceptEdition (edition : Word) (s : State) : State :=
  sendAll [.climbDirective (climbValuesOf s.window), .flowDirective (readWord s.window 0x210).toNat,
           .feedMaskDirective (readHalf s.window 0x214)]
    (onExc (fun e => { e with edition := edition }) s)

/-- The Directive Page is read and examined (R153, log 11). -/
def readDirective (s : State) : State :=
  let tail := readWord s.window 0x2FC
  let head := readWord s.window 0x200
  if head ≠ tail ∨ head = 0 ∨ head = s.exc.edition ∨ head = s.exc.lastRejected then s
  else match badDirectiveField s.window with
    | some field => rejectEdition head field s
    | none => acceptEdition head s

/-! ## The scan (R145) -/

/-- The part states in which the scan and publish timers run (R145, R156). -/
def exchanges : PartState → Bool
  | .config | .run | .stopping | .recovery => true
  | _ => false

/-- What a scan does beside its comparisons, by the part state at the expiry (R145, log 62). -/
def scanTakes (s : State) : State :=
  match s.psv.state with
  | .config => readDirective (handOrders s)
  | .run => readDirective (handBatches (handOrders s))
  | .stopping => readDirective s
  | _ => s

/-- EXCHANGE_SCAN: the timer is restarted; while a CLEAR is in hand no scan is made, and none while the timer is stopped
(R145, R161, 09 R167). -/
def takeScan (s : State) : State :=
  if exchanges s.psv.state && s.exc.scanTimer.isSome then
    let t := onExc (fun e => { e with scanTimer := some (now s) }) s
    if s.exc.clearStage = .none then scanTakes (compareBoards t) else t
  else s

/-! ## Publication (R156, R157) -/

/-- The next status edition; it wraps to 1 (R156). -/
def nextEdition (n : Word) : Word := if n + 1 = 0 then 1 else n + 1

/-- A publication begins: the head is written, then the body (R156, log 10). -/
def beginPublication (s : State) : State :=
  let e := nextEdition s.exc.statusEdition
  let t := onExc (fun x => { x with statusEdition := e, publication := some e }) s
  send .publicationEnd { t with window := publishedWindow t e }

/-- The publish timer starts anew with the interval in force (R156). -/
def startPublishTimer (s : State) : State :=
  onExc (fun e => { e with publishTimer := some ⟨now s, 1000 * s.psv.rig.publishInterval⟩ }) s

/-- PUBLISH_TIMER_EXPIRY; a stopped timer does not expire (R156, R161). One during a CLEAR is deferred like one during a
publication (DESIGN CHOICE, log 87). -/
def takePublishExpiry (s : State) : State :=
  if exchanges s.psv.state && s.exc.publishTimer.isSome then
    let t := startPublishTimer s
    if s.exc.publication.isSome || decide (s.exc.clearStage ≠ .none) then
      onExc (fun e => { e with deferred := true }) t
    else beginPublication t
  else s

/-- A publication that ended counts towards PUBLISH (R157). -/
def countPublication (s : State) : State :=
  let n := s.exc.postscaler + 1
  if s.exc.attnPace ≠ 0 ∧ s.exc.attnPace ≤ n then
    setAttn .publish (onExc (fun e => { e with postscaler := 0 }) s)
  else onExc (fun e => { e with postscaler := min 16 n }) s

/-- What follows a publication that ended: a CLEAR's own publication, or a deferred one (R156, 09 R167); while a CLEAR goes on a
deferred one waits for the end of the CLEAR's (DESIGN CHOICE, log 87). -/
def afterPublication (s : State) : State :=
  match s.exc.clearStage with
  | .waiting => beginPublication (onExc (fun e => { e with clearStage := .publishing }) s)
  | .publishing =>
    let t := send (.clearDone .exc) (onExc (fun e => { e with clearStage := .none }) s)
    if t.exc.deferred then beginPublication (onExc (fun e => { e with deferred := false }) t) else t
  | .begun => s
  | .none => if s.exc.deferred then beginPublication (onExc (fun e => { e with deferred := false }) s) else s

/-- PUBLICATION_END (R156, R157). -/
def takePublicationEnd (s : State) : State :=
  match s.exc.publication with
  | none => s
  | some e =>
    afterPublication (countPublication
      (onExc (fun x => { x with publication := none }) (onWindow (fun m => writeWord m statusTail e) s)))

/-! ## Rig events, part states and resets -/

/-- A rig event is named by a set. -/
def names (events : Word) (position : Nat) : Bool := events.getLsbD position

/-- The named rig events are cleared by their owners (R152, 01 R12). -/
def clearRigEvents (events : Word) (s : State) : State :=
  { s with
    exc := { s.exc with misuseEvent := s.exc.misuseEvent && !names events 0
                        directiveBad := s.exc.directiveBad && !names events 1 }
    tmb := { s.tmb with clockValid := s.tmb.clockValid || names events 2
                        clockLost := s.tmb.clockLost && !names events 2 }
    lbp := { s.lbp with probeBus := s.lbp.probeBus && !names events 3 }
    psv := { s.psv with repeatedOutage := s.psv.repeatedOutage && !names events 4 } }

/-- CLEAR_EVENTS of scope RIG (R152). -/
def takeClearRig (slot : OrderSlot) (events : Word) : State → State :=
  unlessHaltedExchange fun s =>
    if namesOnly 5 events then finishOrder slot .done 0 (clearRigEvents events s)
    else finishOrder slot .badArgument 0 s

/-- The window offset holds a byte that a cold start and CLEAR write 0: a state word, an outcome or report field, or an
unnamed word of a slot (R160, 11 R189). -/
def inClearedSlot (a : Nat) : Bool :=
  (decide (0x400 ≤ a) && decide (a < 0x600)
      && (decide ((a - 0x400) % 32 < 4) || decide (0x14 ≤ (a - 0x400) % 32)))
    || (decide (0x800 ≤ a) && decide (a < 0x3800)
      && (decide ((a - 0x800) % 256 < 4) || decide (0x18 ≤ (a - 0x800) % 256)))

/-- The window with every slot written FREE (R160). -/
def freeSlots (m : Memory) : Memory := m.filter fun c => !inClearedSlot c.1

/-- The retained exchange state emptied at a cold start and at CLEAR (R160). -/
def Exc.forget (e : Exc) : Exc :=
  { e with orderImages := Vector.replicate 16 .free, batchImages := Vector.replicate 48 .free,
           orderHanded := Vector.replicate 16 false, batchHanded := Vector.replicate 48 false, candidates := [],
           edition := 0, lastRejected := 0, badField := 0, misuse := none, misuseEvent := false,
           directiveBad := false }

/-- CLEAR in the controller: every slot FREE and a publication (R160, 09 R167), which follows the end of one in progress (DESIGN
CHOICE, log 87). -/
def clearExchange (s : State) : State :=
  let t := onWindow freeSlots (onExc Exc.forget s)
  if s.exc.publication.isSome then onExc (fun e => { e with clearStage := .waiting }) t
  else beginPublication (onExc (fun e => { e with clearStage := .publishing }) t)

/-- The timers stopped and what is in hand abandoned (R161). The mark of a publish timer expiry that was deferred goes with
them; R161 does not name it (DESIGN CHOICE, log 81). So do the batch candidates not handed over yet (DESIGN CHOICE, log 88). -/
def Exc.stopped (e : Exc) : Exc :=
  { e with scanTimer := none, publishTimer := none, deferred := false, publication := none, candidates := [],
           clearStage := .none }

/-- The timers are started where they are stopped (R145, R156, log 22). -/
def startTimers (s : State) : State :=
  let t := if s.exc.scanTimer.isNone then onExc (fun e => { e with scanTimer := some (now s) }) s else s
  if s.exc.publishTimer.isNone then startPublishTimer t else t

/-- The controller learns of a part state (R145, R156, R161). -/
def exchangeEnters (p : PartState) (s : State) : State :=
  let t := onExc (fun e => { e with view := p }) s
  if exchanges p then startTimers t
  else
    let u := onExc Exc.stopped t
    if p = .halted ∧ s.exc.view ≠ .halted then setAttn .fault u else u

/-- The attention registers and the counts at a reset (R160). -/
def Exc.resetRegisters (e : Exc) : Exc :=
  { e.stopped.withAttn 0 0x3F with attnPace := 1, postscaler := 0, orderHanded := Vector.replicate 16 false,
                                   batchHanded := Vector.replicate 48 false }

/-! ## Meanings -/

/-- ATTN_WRITE (R158). -/
def execAttnWrite (value : Word) (s : State) : Result := whileActing (writeAttn value) s

/-- ATTN_MASK_WRITE (R159). -/
def execAttnMaskWrite (value : Word) (s : State) : Result := whileActing (writeAttnMask value) s

/-- ATTN_PACE_WRITE (R159). -/
def execAttnPaceWrite (value : Word) (s : State) : Result := whileActing (writeAttnPace value) s

/-- IGNORED_REGISTER_WRITE: ID and STATE (R159, 11 Port Registers), and the offsets beyond 14h, which no rule names (DEDUCED,
log 77). -/
def execIgnoredRegisterWrite (_offset : Nat) (_value : Word) (s : State) : Result := .next s

/-- HOST_WINDOW_WRITE (R144). -/
def execHostWindowWrite (offset : Nat) (value : Word) (s : State) : Result :=
  if namesWord offset then .next (if powered s then hostWrite offset value s else s) else .fault .noSuchWord

/-- SLOT_WRITE_REQUEST (R148). -/
def execSlotWriteRequest (w : SlotWrite) (s : State) : Result := taking (.slotWriteRequest w) (takeSlotWrite w) s

/-- ORDER_OUTCOME (R150). -/
def execOrderOutcome (slot : OrderSlot) (answer : OrderAnswer) (s : State) : Result :=
  taking (.orderOutcome slot answer) (takeOrderOutcome slot answer) s

/-- CLEAR_EVENTS_RIG (R152). -/
def execClearEventsRig (slot : OrderSlot) (events : Word) (s : State) : Result :=
  taking (.clearEventsRig slot events) (takeClearRig slot events) s

/-- BATCH_HANDOVER (07 R120). -/
def execBatchHandover (slot : BatchSlot) (request : BatchRequest) (s : State) : Result :=
  taking (.batchHandover slot request) (takeHandover slot request) s

/-- EXCHANGE_SCAN (R145). -/
def execExchangeScan (s : State) : Result := whileActing takeScan s

/-- ATTENTION_SET_REQUEST (R158). -/
def execAttentionSetRequest (source : AttnSource) (s : State) : Result :=
  taking (.attentionSetRequest source) (setAttn source) s

/-- PUBLISH_TIMER_EXPIRY (R156). -/
def execPublishTimerExpiry (s : State) : Result := taking .publishTimerExpiry takePublishExpiry s

/-- PUBLICATION_END (R157). -/
def execPublicationEnd (s : State) : Result := taking .publicationEnd takePublicationEnd s

end Sys2Proof.Machine
end

