-- ==== Sys2Proof/Machine/Valve.lean ====
section
/-! DEFINITION. The Valve Drive Unit: levels and ramps, the channel commands, the quiet flag, the pump enable and the
coil tests (03). -/

namespace Sys2Proof.Machine

open Sys2Proof

/-! ## Levels and ramps (R35, R36) -/

/-- The level on the way from one level to another after part of a duration (R36). -/
def levelBetween (start target elapsed duration : Nat) : Nat :=
  if start ≤ target then start + (target - start) * elapsed / duration
  else start - (start - target) * elapsed / duration

/-- The present level of a channel (R35, R36). -/
def Channel.present (c : Channel) (at_ : Word) : Nat :=
  match c.ramp with
  | none => c.level
  | some r =>
    if r.duration ≤ since at_ r.start then c.target
    else levelBetween r.level c.target (since at_ r.start) r.duration

/-- The duration of a ramp over a distance (R36). -/
def rampDuration (rampTime distance onLevel : Nat) : Nat := rampTime * distance / onLevel

/-- A channel at a level at once, without a ramp; at level 0 the coil test run is 0 (R39, R44). -/
def Channel.stand (c : Channel) (state : ChannelState) (level : Nat) : Channel :=
  { c with state := state, level := level, target := level, ramp := none,
           testRun := if level = 0 then 0 else c.testRun }

/-- A ramp from a level to a target begins; one of duration 0 is over at once (R36). -/
def Channel.rampTo (c : Channel) (moving ended : ChannelState) (from_ target duration : Nat) (at_ : Word) : Channel :=
  if duration = 0 then c.stand ended target
  else { c with state := moving, level := from_, target := target, ramp := some ⟨from_, at_, duration⟩ }

/-- The channel rises from its present level to the on level (R36, R37). -/
def Channel.rise (c : Channel) (rig : RigValues) (at_ : Word) : Channel :=
  let a := c.present at_
  c.rampTo .opening .opened a rig.onLevel (rampDuration rig.riseRamp (rig.onLevel - a) rig.onLevel) at_

/-- The channel falls from its present level to a target below it (R36, R38). -/
def Channel.fall (c : Channel) (rig : RigValues) (target : Nat) (at_ : Word) : Channel :=
  let a := c.present at_
  c.rampTo .closing .idle a target (rampDuration rig.fallRamp (a - target) rig.onLevel) at_

/-! ## The channel commands (R37 to R39) -/

/-- OPEN at a channel (R37). -/
def Channel.commandOpen (c : Channel) (rig : RigValues) (at_ : Word) : Channel :=
  match c.state with
  | .idle | .closing => c.rise rig at_
  | .opening | .opened => c

/-- CLOSE at a channel, its target being the rest level or 0 (R38). -/
def Channel.commandClose (c : Channel) (rig : RigValues) (target : Nat) (at_ : Word) : Channel :=
  match c.state with
  | .idle | .closing => c
  | .opening => if target < c.present at_ then c.fall rig target at_ else c.stand .idle target
  | .opened => c.fall rig target at_

/-- A line reset in HOLD mode at a channel (R42); `held` says that an earlier one is still winding the wave down. A channel
that one has left falling to 0 goes on falling (09 R169, log 63). -/
def Channel.hold (c : Channel) (rig : RigValues) (held : Bool) (at_ : Word) : Channel :=
  match c.state with
  | .idle => c.stand .idle 0
  | .opening | .opened => c.commandClose rig 0 at_
  | .closing => if held && decide (c.target = 0) then c else c.fall rig 0 at_

/-- The end of a ramp (R36). -/
def Channel.endRamp (c : Channel) : Channel :=
  match c.ramp with
  | none => c
  | some _ => c.stand (if c.state = .opening then .opened else .idle) c.target

/-- Whether a coil test finds less than a quarter of the current commanded (R44). -/
def coilTestFails (level current : Nat) : Bool := decide (4 * current < level)

/-! ## The unit in the part -/

/-- The channel of a station. -/
def channelOf (s : State) (st : Station) : Channel := s.vdu.channels[st]

/-- A channel needs the pump (R43). -/
def Channel.needsPump (c : Channel) : Bool :=
  match c.state with
  | .opening | .opened => true
  | _ => false

/-- The unit with its channels replaced, the pump enable following at once (R43). -/
def Vdu.withChannels (v : Vdu) (channels : Table Channel 64) : Vdu :=
  { v with channels := channels, pumpEnable := anyOf channels Channel.needsPump }

/-- The state with one channel replaced (R43). -/
def setChannel (s : State) (st : Station) (c : Channel) : State :=
  { s with vdu := s.vdu.withChannels (put s.vdu.channels st c) }

/-- The state with every channel changed by `f` (R43). -/
def mapChannels (f : Channel → Channel) (s : State) : State :=
  { s with vdu := s.vdu.withChannels (mapAll s.vdu.channels f) }

/-- The part states in which the unit takes OPEN, CLOSE, REST and WAKE (R40, R41). -/
def drives : PartState → Bool
  | .run | .stopping => true
  | _ => false

/-- The unit takes OPEN, CLOSE and REST for the channel (R40). -/
def takesChannel (s : State) (st : Station) : Bool :=
  drives s.vdu.view && fitted s st && !(channelOf s st).coilFault

/-- Where a CLOSE or a REST takes a channel: the rest level, or 0 while the quiet flag is set (R38, R39, R41). -/
def restTarget (s : State) : Nat := if s.vdu.quiet then 0 else s.psv.rig.restLevel

/-- OPEN (R37, R40). -/
def takeOpen (st : Station) (s : State) : State :=
  if takesChannel s st then setChannel s st ((channelOf s st).commandOpen s.psv.rig (now s)) else s

/-- CLOSE (R38, R40). -/
def takeClose (st : Station) (s : State) : State :=
  if takesChannel s st then setChannel s st ((channelOf s st).commandClose s.psv.rig (restTarget s) (now s)) else s

/-- REST (R39, R40). -/
def takeRest (st : Station) (s : State) : State :=
  if takesChannel s st then setChannel s st ((channelOf s st).stand .idle (restTarget s)) else s

/-- OFF (R39, R40). -/
def takeOff (st : Station) (s : State) : State := setChannel s st ((channelOf s st).stand .idle 0)

/-- FAULT_RESET (R45). -/
def takeFaultReset (st : Station) (s : State) : State :=
  setChannel s st { channelOf s st with coilFault := false, testRun := 0 }

/-- WAKE: taken in part state RUN or STOPPING, and no more once a warning has been taken (R41, log 62). -/
def takeWake (s : State) : State :=
  if drives s.vdu.view && drives s.psv.state then { s with vdu := { s.vdu with quiet := false } } else s

/-- A ramp's time is over (R36). -/
def endRamp (st : Station) (s : State) : State := setChannel s st (channelOf s st).endRamp

/-- A coil is judged open (R44). -/
def judgeCoilOpen (st : Station) (s : State) : State :=
  send (.coilFaultNotice st) (setChannel s st ({ channelOf s st with coilFault := true }.stand .idle 0))

/-- The coil test of a channel with the current that flows (R44). -/
def testCoil (st : Station) (current : Nat) (s : State) : State :=
  let c := channelOf s st
  let level := c.present (now s)
  if level = 0 then setChannel s st { c with testRun := 0 }
  else if coilTestFails level current then
    if c.testRun = 0 then setChannel s st { c with testRun := 1 } else judgeCoilOpen st s
  else setChannel s st { c with testRun := 0 }

/-- Every channel stands IDLE at 0 (R40, R46). -/
def allChannelsOff (s : State) : State := mapChannels (fun c => c.stand .idle 0) s

/-- The quiet flag is set (R41). -/
def setQuiet (s : State) : State := { s with vdu := { s.vdu with quiet := true } }

/-- A line reset in HOLD mode (R42); `again` says that the wave an earlier one winds down is in flight, and the quiet flag
tells that the unit has taken that one (09 R169, log 63). -/
def holdChannels (again : Bool) (s : State) : State :=
  mapChannels (fun c => c.hold s.psv.rig (again && s.vdu.quiet) (now s)) (setQuiet s)

/-- CLEAR in the unit (R47). -/
def clearCoilFaults (s : State) : State := mapChannels (fun c => { c with coilFault := false, testRun := 0 }) s

/-- The unit as R47 sets it, with the view it had. -/
def resetVdu (s : State) : State := { s with vdu := Vdu.reset s.vdu.view }

/-- The unit learns of a part state: outside RUN and STOPPING every channel goes to 0 (R40). -/
def vduEnters (p : PartState) (s : State) : State :=
  let t : State := { s with vdu := { s.vdu with view := p } }
  if drives p then t else allChannelsOff t

/-- OPEN (R37). -/
def execOpen (st : Station) (s : State) : Result := taking (.openValve st) (takeOpen st) s

/-- CLOSE (R38). -/
def execClose (st : Station) (s : State) : Result := taking (.closeValve st) (takeClose st) s

/-- REST (R39). -/
def execRest (st : Station) (s : State) : Result := taking (.restValve st) (takeRest st) s

/-- OFF (R39). -/
def execOff (st : Station) (s : State) : Result := taking (.offValve st) (takeOff st) s

/-- FAULT_RESET (R45). -/
def execFaultReset (st : Station) (s : State) : Result := taking (.faultReset st) (takeFaultReset st) s

/-- WAKE (R41). -/
def execWake (s : State) : Result := taking .wake takeWake s

/-- RAMP_END (R36). -/
def execRampEnd (st : Station) (s : State) : Result := whileActing (endRamp st) s

/-- COIL_TEST (R44). -/
def execCoilTest (st : Station) (current : Nat) (s : State) : Result := whileActing (testCoil st current) s

end Sys2Proof.Machine
end

