-- ==== Sys2Proof/Machine/Supervisor.lean ====
section
/-! DEFINITION. The Part Supervisor: the part state, CONTROL and its commands, rig validation and the snapshot, START,
STOP and CLEAR (09; 01 R1 to R9). -/

namespace Sys2Proof.Machine

open Sys2Proof

/-- The state with the supervisor changed. -/
def onPsv (f : Psv → Psv) (s : State) : State := { s with psv := f s.psv }

/-! ## The part state (R162) -/

/-- The blocks that are told of a change of part state, in the order in which they are told, which R162 does not name
(DESIGN CHOICE, log 82). -/
def noticed : List Block := [.exc, .tmb, .ssu, .vdu, .wvc, .lbp, .ltr, .fds]

/-- The part enters a state and tells every block (R162). -/
def enterState (p : PartState) (s : State) : State :=
  sendAll (noticed.map fun b => Instr.partStateNotice b p) (onPsv (fun q => { q with state := p }) s)

/-- A block takes the notice of a part state. -/
def blockEnters (b : Block) (p : PartState) (s : State) : State :=
  match b with
  | .exc => exchangeEnters p s
  | .ssu => ssuEnters p s
  | .vdu => vduEnters p s
  | .wvc => waveEnters p s
  | .lbp => levelEnters p s
  | .ltr => layerEnters p s
  | .fds => feedEnters p s
  | .tmb | .psv => s

/-- The notice of a part state has been overtaken: a block that has been warned, or has stopped in HALTED, does not act on
the notice of an earlier state (R172, 10 R174, log 58). The Valve Drive Unit is not warned by the supervisor but sent OFF,
and it takes every notice in its turn (03 R40). -/
def overtaken (b : Block) (p : PartState) (s : State) : Bool :=
  match s.psv.state with
  | .halted => true
  | .powerDown => decide (p ≠ .powerDown) && decide (b ≠ .vdu)
  | _ => false

/-- A block takes the notice of a part state, unless it has been overtaken. -/
def takePartState (b : Block) (p : PartState) (s : State) : State := if overtaken b p s then s else blockEnters b p s

/-! ## HALTED (R172) -/

/-- What the supervisor holds after an entry into HALTED (R172, 10 R173). A failed read in the store pass makes the bench
result STORE_FAULT; in any other phase the result stays as it stands (R171, log 57). A line reset that waited for the
power-down actions is given up with them (log 39). -/
def Psv.halt (q : Psv) (failure : StoreFailure) : Psv :=
  { q with haltCause := some failure, control := { q.control with waiting := false }, clearing := [],
           bench := if q.benchPhase = .storePass ∧ failure = .read then .storeFault else q.bench,
           benchPhase := .none, monitor := .normal, goodTimer := none, deferredReset := none, dying := false,
           recovery := .none, recoveryTimer := none }

/-- The entry into HALTED: every block stops at once (R172). -/
def enterHalted (failure : StoreFailure) (s : State) : State :=
  enterState .halted (noticed.foldl (fun t b => blockEnters b .halted t) (onPsv (fun q => q.halt failure) s))

/-! ## CONTROL (R163, R164) -/

/-- The outcome is that of an accepted command (R163). -/
def accepted : CommandOutcome → Bool
  | .done | .waiting => true
  | _ => false

/-- A command is answered; CONTROL shows the code as written, one that the table does not list too (R163, R164, 11 R191,
log 72). -/
def answerCode (code : Byte) (o : CommandOutcome) (detail : Nat) : State → State :=
  onPsv fun q => { q with control :=
    ⟨code, o, detail, decide (o = .waiting), if accepted o then false else q.control.dropped⟩ }

/-- A command of the table is answered (R163). -/
def answerCommand (c : Command) (o : CommandOutcome) (detail : Nat) : State → State :=
  answerCode (commandCode c) o detail

/-- A written command: dropped while one is in progress, taken otherwise (R163). -/
def command (f : State → State) (s : State) : State :=
  if s.psv.control.waiting then onPsv (fun q => { q with control := { q.control with dropped := true } }) s else f s

/-- START and CLEAR are taken in CONFIG; they are BUSY in STOPPING and in the wrong state elsewhere (R164). -/
def takenInConfig (c : Command) (f : State → State) (s : State) : State :=
  match s.psv.state with
  | .config => f s
  | .stopping => answerCommand c .busy 0 s
  | _ => answerCommand c .wrongState 0 s

/-! ## The Rig Page (01 R2 to R8; 11, Rig Page) -/

/-- A field of one word on the Rig Page (11, Rig Page). -/
def rigField (m : Memory) (f : Nat) : Nat := (readWord m (4 * f)).toNat

/-- The Rig Page as it stands (11, Rig Page). -/
def rigPage (m : Memory) : RigValues where
  fitted := readWord m 4 ++ readWord m 0
  strokeLength := rigField m 2
  formHeight := rigField m 3
  targetFill := rigField m 4
  maxFill := rigField m 5
  minLayer := rigField m 6
  levelBand := rigField m 7
  minActive := rigField m 8
  driveTimeout := rigField m 9
  settleTimeout := rigField m 10
  strayLimit := rigField m 11
  rowTime := rigField m 12
  debounceScans := rigField m 13
  riseRamp := rigField m 14
  onLevel := rigField m 15
  fallRamp := rigField m 16
  restLevel := rigField m 17
  probeTolerance := rigField m 18
  freshnessLimit := rigField m 19
  probeSettle := rigField m 20
  recoveryWindow := rigField m 21
  mergeWindow := rigField m 22
  maxPortion := rigField m 23
  publishInterval := rigField m 24
  areas := tabulate fun k => rigField m (32 + k.1)
  mixes := tabulate fun c =>
    ⟨rigField m (48 + 4 * c.1), rigField m (49 + 4 * c.1), rigField m (50 + 4 * c.1), rigField m (51 + 4 * c.1)⟩

/-- A value lies in a range, both ends included. -/
def within (low high x : Nat) : Bool := decide (low ≤ x) && decide (x ≤ high)

/-- Every used sector has the minimum of fitted stations (01 R3). -/
def enoughFitted (v : RigValues) : Bool :=
  allSectors.all fun k =>
    !usedIn v.fitted k || decide (v.minActive ≤ ((stationsOf k).filter (fittedIn v.fitted)).length)

/-- Fields 1 to 24 with whether each passes, in ascending field number (01 R2 to R7). -/
def plainChecks (v : RigValues) : List (Nat × Bool) :=
  [(1, decide (v.fitted ≠ 0)), (2, within 20 50 v.strokeLength), (3, within 900 1500 v.formHeight),
   (4, within 50 400 v.targetFill), (5, decide (v.targetFill + 50 ≤ v.maxFill) && decide (v.maxFill + 100 ≤ v.formHeight)),
   (6, within 50 300 v.minLayer), (7, within 1 4 v.levelBand), (8, within 1 4 v.minActive && enoughFitted v),
   (9, within 2 30 v.driveTimeout), (10, within 2 30 v.settleTimeout), (11, within 1 15 v.strayLimit),
   (12, within 1 4 v.rowTime)]
  ++ [(13, within 1 8 v.debounceScans), (14, within 0 2000 v.riseRamp && decide (v.riseRamp % 10 = 0)),
   (15, within 1 255 v.onLevel), (16, within 0 2000 v.fallRamp && decide (v.fallRamp % 10 = 0)),
   (17, within 0 64 v.restLevel && decide (v.restLevel < v.onLevel)), (18, within 2 50 v.probeTolerance),
   (19, within 1 30 v.freshnessLimit), (20, within 2 60 v.probeSettle),
   (21, within 10 300 v.recoveryWindow && decide (v.probeSettle < v.recoveryWindow)), (22, within 0 1800 v.mergeWindow),
   (23, within 50 2000 v.maxPortion), (24, within 1 10 v.publishInterval)]

/-- The areas of the used sectors (01 R5). -/
def areaChecks (v : RigValues) : List (Nat × Bool) :=
  allSectors.map fun k => (32 + k.1, !usedIn v.fitted k || within 5 200 v.areas[k])

/-- The four limits of a mix class (01 R8). -/
def mixChecks (v : RigValues) (c : MixClass) : List (Nat × Bool) :=
  let m := v.mixes[c]
  [(48 + 4 * c.1, within 600 43200 m.minExit), (49 + 4 * c.1, decide (60 ≤ m.warnOpen) && decide (m.warnOpen < m.maxOpen)),
   (50 + 4 * c.1, within 300 14400 m.maxOpen), (51 + 4 * c.1, within 600 14400 m.maxPlacement)]

/-- Every field with whether it passes, in ascending field number (01 R2). -/
def rigChecks (v : RigValues) : List (Nat × Bool) :=
  plainChecks v ++ areaChecks v ++ (List.finRange 4).flatMap (mixChecks v)

/-- The first field that fails its check (01 R2). -/
def badRigField (v : RigValues) : Option Nat := ((rigChecks v).find? fun c => !c.2).map Prod.fst

/-- The geometry fields (01 R9). -/
def snapshotOf (v : RigValues) : Snapshot := ⟨v.fitted, v.strokeLength, v.formHeight, v.areas⟩

/-- The first geometry field that differs from the snapshot (01 R9). -/
def changedField (old : Snapshot) (v : RigValues) : Option Nat :=
  if v.fitted ≠ old.fitted then some 1
  else if v.strokeLength ≠ old.strokeLength then some 2
  else if v.formHeight ≠ old.formHeight then some 3
  else (allSectors.find? fun k => usedIn old.fitted k && decide (v.areas[k] ≠ old.areas[k])).map fun k => 32 + k.1

/-! ## START (R165) -/

/-- A START is refused at a field (R165). -/
def refuseStart (o : CommandOutcome) (field : Nat) (s : State) : State :=
  answerCommand .start o field (onPsv (fun q => { q with rigCheck := some (o, field) }) s)

/-- The rig values come into force (01 R1), and the poller follows a changed fitted mask (05 R86). -/
def takeRig (v : RigValues) (s : State) : State :=
  let t := if v.fitted ≠ s.psv.rig.fitted then refitLevel v.fitted s else s
  onPsv (fun q => { q with rig := v }) t

/-- What the first START of a job does before it sets the job mark (R165). -/
def beginJob (v : RigValues) (s : State) : State :=
  onPsv (fun q => { q with jobMark := true })
    (setUpTable v.fitted (onPsv (fun q => { q with snapshot := some (snapshotOf v) }) s))

/-- A START that passes both steps (R165). -/
def acceptStart (v : RigValues) (s : State) : State :=
  let t := takeRig v s
  let u := if s.psv.jobMark then t else beginJob v t
  answerCommand .start .done 0 (enterState .run (onPsv (fun q => { q with rigCheck := none }) u))

/-- The geometry field at which a job's snapshot turns a page away, if it does (01 R9). -/
def snapshotRefuses (s : State) (v : RigValues) : Option Nat :=
  if s.psv.jobMark then s.psv.snapshot.bind fun old => changedField old v else none

/-- START in CONFIG (R165). -/
def startInConfig (s : State) : State :=
  let v := rigPage s.window
  match badRigField v with
  | some field => refuseStart .rigInvalid field s
  | none =>
    match snapshotRefuses s v with
    | some field => refuseStart .rigChanged field s
    | none => acceptStart v s

/-! ## STOP (R166) -/

/-- STOP in RUN (R166). -/
def stopInRun (s : State) : State :=
  sendAll [.waveStop, .feedStop]
    (enterState .stopping (answerCommand .stop .done 0
      (onPsv (fun q => { q with waveEnded := false, feedStopped := false }) s)))

/-- STOP (R164). -/
def takeStop (s : State) : State :=
  match s.psv.state with
  | .run => stopInRun s
  | .stopping => answerCommand .stop .busy 0 s
  | _ => answerCommand .stop .wrongState 0 s

/-- STOPPING ends when both notices have been taken (R166). -/
def endStopping (s : State) : State :=
  if s.psv.waveEnded && s.psv.feedStopped then enterState .config s else s

/-- WAVE_ENDED (R166). -/
def takeWaveEnded (s : State) : State :=
  if s.psv.state = .stopping then endStopping (onPsv (fun q => { q with waveEnded := true }) s) else s

/-! ## CLEAR (R167) -/

/-- The blocks told to clear, as R167 lists them, the Exchange Controller last. -/
def clearOrder : List Block := [.wvc, .ltr, .fds, .lbp, .ssu, .vdu, .tmb, .psv, .exc]

/-- CLEAR in CONFIG (R167). -/
def clearInConfig (s : State) : State :=
  let t := onPsv (fun q => { q with jobMark := false, clearing := clearOrder }) (answerCommand .clear .waiting 0 s)
  sendAll (clearOrder.map Instr.clearNotice) (onExc (fun e => { e with clearStage := .begun }) t)

/-- CLEAR in the supervisor (R167). -/
def clearSupervisor : State → State := onPsv fun q =>
  { q with snapshot := none, rig := RigValues.standby, repeatedOutage := false, lastRecoveryEnd := none, rigCheck := none }

/-- CLEAR in the Time Base (R167, 01 R12). -/
def clearTime (s : State) : State := { s with tmb := { s.tmb with clockLost := false, clockValid := true } }

/-- What CLEAR does in a block (R167). -/
def clearBlock (b : Block) : State → State :=
  match b with
  | .wvc => clearWave
  | .ltr => clearLayer
  | .fds => clearFeed
  | .lbp => clearLevel
  | .ssu => clearStrays
  | .vdu => clearCoilFaults
  | .tmb => clearTime
  | .psv => clearSupervisor
  | .exc => clearExchange

/-- CLEAR_NOTICE; the Exchange Controller reports when its publication has ended (R167). A CLEAR is abandoned in HALTED
(R172). -/
def takeClearNotice (b : Block) (s : State) : State :=
  if s.psv.state = .halted then s
  else if b = .exc then clearExchange s
  else send (.clearDone b) (clearBlock b s)

/-- CLEAR_DONE (R167). -/
def takeClearDone (b : Block) (s : State) : State :=
  let rest := s.psv.clearing.erase b
  let t := onPsv (fun q => { q with clearing := rest }) s
  if s.psv.clearing ≠ [] ∧ rest = [] then
    onPsv (fun q => { q with control := { q.control with outcome := .done, waiting := false } }) t
  else t

/-! ## Reads of the port registers (11, Port Registers) -/

/-- The ID register. -/
def idWord : Word := Config.vendorCode ++ Config.partCode ++ Config.revision

/-- The CONTROL register (R163): PENDING, CMD_DROPPED, two bits that hold nothing and read 0 (DESIGN CHOICE, log 89), detail,
outcome, command code. -/
def controlWord (c : Control) : Word :=
  BitVec.ofBool c.waiting ++ BitVec.ofBool c.dropped ++ 0#2 ++ BitVec.ofNat 12 c.detail
    ++ BitVec.ofNat 8 (commandOutcomeCode c.outcome) ++ c.code

/-- The STATE register while the part acts (R162): two bits that hold nothing and read 0 (DESIGN CHOICE, log 89), line reset
mode, site-clock-valid mark, halt cause, bench result, climb state, part state. -/
def stateWord (s : State) : Word :=
  0#2 ++ BitVec.ofBool (decide (s.psv.lineMode = .hold)) ++ BitVec.ofBool s.tmb.clockValid
    ++ BitVec.ofNat 4 (haltCode s.psv.haltCause) ++ BitVec.ofNat 8 (benchCode s.psv.bench)
    ++ BitVec.ofNat 8 (climbCode s.wvc.climb) ++ BitVec.ofNat 8 (partStateCode s.psv.state)

/-- What a host read of a port register finds; none at an offset that holds no register, or without power. -/
def State.readPort (s : State) (offset : Nat) : Option Word :=
  if powered s then
    match offset with
    | 0x00 => some idWord
    | 0x04 => some (controlWord s.psv.control)
    | 0x08 => some (if acting s then stateWord s else Config.stateInReset)
    | 0x0C => some (s.exc.attn.setWidth 32)
    | 0x10 => some (s.exc.attnMask.setWidth 32)
    | 0x14 => some (natWord s.exc.attnPace)
    | _ => none
  else none

/-! ## Meanings -/

/-- START (R165). -/
def execStart (s : State) : Result := whileActing (command (takenInConfig .start startInConfig)) s

/-- STOP (R166). -/
def execStop (s : State) : Result := whileActing (command takeStop) s

/-- CLEAR (R167). -/
def execClear (s : State) : Result := whileActing (command (takenInConfig .clear clearInConfig)) s

/-- The line reset mode takes a value, and the command is answered DONE (R164). -/
def setLineMode (c : Command) (mode : LineMode) (s : State) : State :=
  answerCommand c .done 0 (onPsv (fun q => { q with lineMode := mode }) s)

/-- LINE_MODE_RESTART (R164). -/
def execLineModeRestart (s : State) : Result := whileActing (command (setLineMode .lineModeRestart .restart)) s

/-- LINE_MODE_HOLD (R164). -/
def execLineModeHold (s : State) : Result := whileActing (command (setLineMode .lineModeHold .hold)) s

/-- UNKNOWN_COMMAND (R164). -/
def execUnknownCommand (code : Byte) (s : State) : Result := whileActing (command (answerCode code .unknown 0)) s

/-- WAVE_ENDED (R166). -/
def execWaveEnded (s : State) : Result := taking .waveEnded takeWaveEnded s

/-- CLEAR_NOTICE (R167). -/
def execClearNotice (b : Block) (s : State) : Result := taking (.clearNotice b) (takeClearNotice b) s

/-- CLEAR_DONE (R167). -/
def execClearDone (b : Block) (s : State) : Result := taking (.clearDone b) (takeClearDone b) s

/-- PART_STATE_NOTICE (R162, 03 R40). -/
def execPartStateNotice (b : Block) (p : PartState) (s : State) : Result :=
  taking (.partStateNotice b p) (takePartState b p) s

/-- What a site-second notice does in a block (01 R11). -/
def blockSecond (b : Block) : State → State :=
  match b with
  | .wvc => waveSecond
  | .ltr => layerSecond
  | .fds => feedSecond
  | _ => id

/-- SITE_SECOND_NOTICE (01 R11). -/
def execSiteSecondNotice (b : Block) (s : State) : Result := taking (.siteSecondNotice b) (blockSecond b) s

/-- A line reset in HOLD mode has been taken, and the wave it winds down is in flight: a second assertion changes nothing
further (R169, log 63). -/
def windingDown (s : State) : Bool := inWave s && resumeHeld s

/-- LINE_HOLD_NOTICE at the Stroke Sensing Unit (02 R33, R169). -/
def strokeLineHold (s : State) : State := if windingDown s then s else clearStrays s

/-- LINE_HOLD_NOTICE at the Valve Drive Unit (03 R42, R169). -/
def valveLineHold (s : State) : State := holdChannels (windingDown s) s

/-- What a line reset in HOLD mode does in a block (R169). -/
def blockHolds (b : Block) : State → State :=
  match b with
  | .ssu => strokeLineHold
  | .vdu => valveLineHold
  | .wvc => waveLineHold
  | .fds => feedLineHold
  | _ => id

/-- LINE_HOLD_NOTICE (R169). -/
def execLineHoldNotice (b : Block) (s : State) : Result := taking (.lineHoldNotice b) (blockHolds b) s

/-- FEED_PAUSE_REQUEST (07 R134). -/
def execFeedPauseRequest (s : State) : Result := taking .feedPauseRequest takeFeedPause s

/-- FLOW_DIRECTIVE (07 R133). -/
def execFlowDirective (flow : Nat) (s : State) : Result := taking (.flowDirective flow) (takeFlow flow) s

/-- A flashing lamp changes between lit and dark (R170). -/
def toggleLamp (name : LampName) (s : State) : State := setLamp s name ((lampOf s name).toggle (now s))

/-- LAMP_FLASH_TOGGLE (R170). -/
def execLampFlashToggle (name : LampName) (s : State) : Result := whileActing (toggleLamp name) s

end Sys2Proof.Machine
end

