-- ==== Sys2Proof/Machine/Bench.lean ====
section
/-! DEFINITION. The bench self-check (09 R171), and the row reads and site seconds its passes count (02 R17, 01 R11). -/

namespace Sys2Proof.Machine

open Sys2Proof

/-- The self-check ends with a result (R171, log 21). -/
def endBench (r : BenchResult) (s : State) : State := onPsv (fun q => { q with bench := r, benchPhase := .done }) s

/-- The self-check goes on to a phase. -/
def setPhase (p : BenchPhase) : State → State := onPsv fun q => { q with benchPhase := p }

/-- LAMP_TEST_EXPIRY: the store pass begins (R171). -/
def endLampTest (s : State) : State :=
  match s.psv.benchPhase with
  | .lampTest _ => setPhase .storePass s
  | _ => s

/-- A site-second advance in the passes that count them (R171, log 21). -/
def benchSecond (s : State) : State :=
  match s.psv.benchPhase with
  | .storePass => setPhase (.clockPass (now s) 0) s
  | .clockPass noted count =>
    if count + 1 < 10 then setPhase (.clockPass noted (count + 1)) s
    else if within 9950 10050 (since (now s) noted) then setPhase (.matrixPass false 0 0) s
    else endBench .clockFault s
  | _ => s

/-- Whether an idle read comes after the scan now ending (R171). -/
def idleNext (s : State) : Bool :=
  match s.psv.benchPhase with
  | .matrixPass true _ _ => true
  | _ => false

/-- The first of the sixteen scans begins when the scan in progress at the start of the pass has ended (R171). -/
def scanEnded (row : Fin 8) (s : State) : State :=
  match s.psv.benchPhase with
  | .matrixPass false reads last => if row = 7 then setPhase (.matrixPass true reads last) s else s
  | _ => s

/-- An idle read of the columns, with no row driven (R171). -/
def idleRead (columns : Byte) (s : State) : State :=
  let t : State := { s with ssu := { s.ssu with position := .row 0 } }
  match s.psv.benchPhase with
  | .matrixPass true reads last =>
    if columns &&& last ≠ 0 then endBench .matrixFault t
    else if reads + 1 < 16 then setPhase (.matrixPass true (reads + 1) columns) t
    else endBench .pass t
  | _ => t

/-- ROW_READ: nothing while the scan is stopped (02 R17, R19). -/
def takeRowRead (columns : Byte) (s : State) : State :=
  if s.ssu.scan = .stopped then s
  else match s.ssu.position with
    | .idle => idleRead columns s
    | .row row => scanEnded row (readRow row columns (idleNext s) s)

/-- ROW_READ (02 R17). -/
def execRowRead (columns : Byte) (s : State) : Result := whileActing (takeRowRead columns) s

/-- LAMP_TEST_EXPIRY (R171). -/
def execLampTestExpiry (s : State) : Result := whileActing endLampTest s

/-- The counter advances, with or without the main supply (01 R11). -/
def advanceSecond (s : State) : State := { s with tmb := { s.tmb with siteSeconds := s.tmb.siteSeconds + 1 } }

/-- What an advance does while the part acts (01 R11). -/
def noticeSecond (s : State) : State :=
  benchSecond (sendAll ([.wvc, .ltr, .fds].map Instr.siteSecondNotice)
    { s with tmb := { s.tmb with savedWord := some s.tmb.siteSeconds } })

/-- SITE_SECOND_ADVANCE (01 R11). -/
def execSiteSecondAdvance (s : State) : Result :=
  .next (if acting s then refreshLamps (noticeSecond (advanceSecond s)) else advanceSecond s)

end Sys2Proof.Machine
end

