-- ==== Sys2Proof/Machine/Recovery.lean ====
section
/-! DEFINITION. RECOVERY: its entry, readiness, the restart check and its end (10 R183 to R187). -/

namespace Sys2Proof.Machine

open Sys2Proof

/-- The restart check finds that an in-doubt station made its stroke (R185). -/
def madeStroke (s : State) (S : List Station) (st : Station) : Bool :=
  decide ((S.length : Int) * s.psv.rig.strokeLength ≤ 2 * scaledDifference s S st)

/-- A station resolved, by a judgement made before any is applied (R185). -/
def resolveStation (before : State) (S : List Station) (st : Station) (s : State) : State :=
  let r := recordOf s st
  if madeStroke before S st then
    let t := setRecord s st { r with count := min Config.countLimit (r.count + 1), inDoubt := false }
    if r.count < Config.countLimit then oweCounts t else t
  else setRecord s st { r with inDoubt := false }

/-- The resolutions of the check (R185). -/
def resolveDoubts (S : List Station) (s : State) : State :=
  forEach (S.filter fun st => (recordOf s st).inDoubt) (resolveStation s S) s

/-- The bars of the check, all judged before any is applied (R186). -/
def barOutOfTolerance (S : List Station) (s : State) : State :=
  forEach (S.filter (outOfTolerance s S)) (barOwing evDeviation) s

/-- The restart check (R185, R186). -/
def restartCheck (s : State) : State :=
  let S := comparedStations s
  if S.length < 4 then s else flushCounts (barOutOfTolerance S (resolveDoubts S s))

/-- RECOVERY ends (R187). -/
def endRecovery (s : State) : State :=
  enterState .run (onPsv (fun q => { q with recovery := .checked, recoveryTimer := none, lastRecoveryEnd := some (site s) })
    (closeRecoveryWindows s))

/-- Every ACTIVE station has a fresh reading (R184). -/
def isReady (s : State) : Bool := (activeStations s).all (isFresh s)

/-- The phase is SETTLING in RECOVERY (R184). -/
def isSettling (s : State) : Bool := decide (s.psv.state = .recovery) && decide (s.psv.recovery = .settling)

/-- The check runs and RECOVERY ends (R184). -/
def runCheck (s : State) : State := endRecovery (restartCheck (onPsv (fun q => { q with recovery := .ready }) s))

/-- Readiness is judged (R184). -/
def judgeReadiness (s : State) : State := if isSettling s && isReady s then runCheck s else s

/-- The window expires while the phase is SETTLING (R184). -/
def expireRecoveryWindow (s : State) : State := if isSettling s then runCheck s else s

/-- The entry into RECOVERY (R183). -/
def beginRecovery (s : State) : State :=
  judgeReadiness (enterState .recovery (requestAttn .fault (onPsv (fun q => { q with
    recovery := .settling, recoveryTimer := some ⟨now s, 1000 * q.rig.recoveryWindow⟩ }) s)))

/-- READING_NOTICE (R184). -/
def execReadingNotice (st : Station) (s : State) : Result := taking (.readingNotice st) judgeReadiness s

/-- RECOVERY_WINDOW_EXPIRY (R184). -/
def execRecoveryWindowExpiry (s : State) : Result := whileActing expireRecoveryWindow s

end Sys2Proof.Machine
end

