-- ==== Sys2Proof/Machine/Reset.lean ====
section
/-! DEFINITION. Resets: power-on, the RESET command, the reset line, and reset release (09 R162, R168, R169; 10 R179). -/

namespace Sys2Proof.Machine

open Sys2Proof

/-! ## What is settled at the assertion -/

/-- A message that a reset lets arrive first, so that no stroke, placement, slot write or value of an accepted directive
is lost (log 16): its effect, none for other messages. -/
def settling : Instr → Option (State → State)
  | .countsChanged => some takeCountsChanged
  | .placement k slot v => some (takePlacement k slot v)
  | .placementAnswer r => some (takePlacementAnswer r)
  | .exitNotice slot i t => some (takeExitNotice slot i t)
  | .slotWriteRequest w => some (takeSlotWrite w)
  | .orderOutcome slot a => some (takeOrderOutcome slot a)
  | .drainQueue st => some (takeDrainQueue st)
  | .drainAnswer st rs o => some (takeDrainAnswer st rs o)
  | .climbDirective v => some (takeClimbDirective v)
  | .flowDirective f => some (takeFlow f)
  | .feedMaskDirective m => some (takeFeedMask m)
  | _ => none

/-- Such a message is waiting. -/
def settlingWaits (s : State) : Bool := s.mail.any fun c => (settling c).isSome

/-- Such messages are taken, oldest first, up to a number of them. -/
def settleMail : Nat → State → State
  | 0, s => s
  | n + 1, s =>
    match s.mail.find? fun c => (settling c).isSome with
    | none => s
    | some c =>
      match settling c with
      | none => s
      | some f => settleMail n (f (took c s))

/-- The most messages a reset lets arrive first (log 16). -/
def settleLimit : Nat := 4096

/-- The wave in flight is settled as at a power-fail warning (04 R50). -/
def settleWave (s : State) : State := if inWave s then settleMail settleLimit (takeWavePowerDown s) else s

/-- The part state is one in which a gate may be open (10 R179). -/
def gatesRun (s : State) : Bool := decide (s.psv.state = .run) || decide (s.psv.state = .stopping)

/-- What the Wave Controller and the Feed Distributor settle at the assertion of a reset (04 R50, 10 R179). -/
def settleAtAssertion (s : State) : State :=
  let t := settleMail settleLimit (onFds (fun f => { f with view := if f.view = .halted then .halted else .powerDown }) s)
  let u := settleWave t
  if gatesRun s then cutAtReset u else u

/-- The supervisor loses what it does not retain (09, 10). -/
def Psv.volatile (q : Psv) : Psv :=
  { q with control := Control.reset, bench := .none, benchPhase := .none, haltCause := none, monitor := .normal,
           supplyGood := true, goodTimer := none, deferredReset := none, dying := false, recovery := .none,
           recoveryTimer := none, waveEnded := false, feedStopped := false, waveDone := false, feedDone := false, clearing := [] }

/-- The Wave Controller loses what it does not retain (04 R50). -/
def Wvc.volatile (w : Wvc) : Wvc :=
  { Wvc.cold w.view with table := w.table, waveNumber := w.waveNumber, values := w.values, holds := w.holds }

/-- Every block takes the values its chapter gives for a reset where they do not depend on the job mark, and every
message on its way is lost (09 R168, log 16). -/
def loseVolatile (s : State) : State :=
  { s with
    mail := []
    ssu := Ssu.reset s.psv.rig.rowTime s.ssu.view
    vdu := Vdu.reset s.vdu.view
    wvc := s.wvc.volatile
    lbp := Lbp.reset none s.lbp.probeBus s.lbp.view
    ltr := s.ltr.warm
    fds := s.fds.warm
    exc := s.exc.resetRegisters
    psv := s.psv.volatile }

/-- The part is held in reset (09 R168). -/
def holdReset (cause : ResetCause) (s : State) : State := refreshLamps { loseVolatile s with power := .held cause }

/-- A reset is asserted while the part acts (09 R168). -/
def assertReset (cause : ResetCause) (s : State) : State := holdReset cause (settleAtAssertion s)

/-! ## Release (09 R162) -/

/-- The part state a reset release enters (R162). -/
def releasedState (strapHigh jobMark : Bool) : PartState :=
  if strapHigh then .bench else if jobMark then .recovery else .config

/-- CONTROL as it shows after a reset of a cause (R163). -/
def releasedControl : ResetCause → Control
  | .command => { Control.reset with code := commandCode .reset }
  | _ => Control.reset

/-- The settle hold begins at a power-on alone (05 R96). -/
def releasedHold : ResetCause → Option Word
  | .powerOn => some 0
  | _ => none

/-- The view of every block is the state entered. -/
def setViews (p : PartState) (s : State) : State :=
  { s with ssu := { s.ssu with view := p }, vdu := { s.vdu with view := p }, wvc := { s.wvc with view := p },
           lbp := { s.lbp with view := p }, ltr := { s.ltr with view := p }, fds := { s.fds with view := p },
           exc := { s.exc with view := p } }

/-- The part at the moment of release, before it goes on by the state it enters: fine time 0 (01 R10), the scan started
(02 R32), the probes unread (05 R96), the registers at their reset values (08 R160). -/
def released (cause : ResetCause) (p : PartState) (s : State) : State :=
  let t := setViews p { s with power := .on, tmb := { s.tmb with fineTime := 0 } }
  { t with
    ssu := Ssu.reset s.psv.rig.rowTime p
    vdu := Vdu.reset p
    lbp := Lbp.reset (releasedHold cause) t.lbp.probeBus p
    psv := { t.psv.volatile with control := releasedControl cause, state := p } }

/-- The tables emptied at a cold start: every block takes the values its chapter gives for it (R162), and no counts changed
notice is sent (DESIGN CHOICE, log 80). -/
def emptyTables (s : State) : State :=
  { s with
    wvc := Wvc.cold s.wvc.view
    lbp := { s.lbp with probeBus := false }
    ltr := Ltr.cold s.ltr.view
    fds := Fds.cold s.fds.view
    exc := s.exc.forget
    window := freeSlots s.window
    psv := { s.psv with jobMark := false, rig := RigValues.standby, snapshot := none, rigCheck := none,
                        lastRecoveryEnd := none, repeatedOutage := false } }

/-- A cold start: the tables are empty, every slot is FREE, and a publication is made at once (R162, 08 R160). -/
def coldStart (s : State) : State :=
  let t := emptyTables s
  let u : State := { t with ssu := Ssu.reset t.psv.rig.rowTime t.ssu.view }
  enterState .config (beginPublication (startTimers u))

/-- A warm start: the gate record is dealt with first (10 R179), deferred retirements are carried out (04 R50), and
RECOVERY begins (10 R183). -/
def warmStart (s : State) : State :=
  let t := warmGate s
  let u : State := { t with wvc := { t.wvc with holds := setBit t.wvc.holds holdResume } }
  beginRecovery (startTimers (flushCounts (carryOutAllDeferred u)))

/-- BENCH is entered and the self-check begins with the lamp test (R171). -/
def benchStart (s : State) : State :=
  enterState .bench (onPsv (fun q => { q with bench := .running, benchPhase := .lampTest (now s) }) s)

/-- The release goes on by the test strap and the job mark (R162). -/
def start (cause : ResetCause) (s : State) : State :=
  let p := releasedState s.strap s.psv.jobMark
  let t := released cause p s
  match p with
  | .bench => benchStart t
  | .recovery => warmStart t
  | _ => coldStart t

/-- Reset release: the strap and the job mark are read; a read that fails takes the part into HALTED (R162, R172,
log 60). -/
def release (cause : ResetCause) (strapHigh : Bool) (s : State) : State :=
  let t : State := { s with strap := strapHigh, storeFails := none }
  refreshLamps (match s.storeFails with
    | some failure => enterHalted failure (released cause .config t)
    | none => start cause t)

/-! ## The RESET command and the reset line -/

/-- What the release of a RESET reads is numbered, so that each read finds free values of its own; out of HALTED the read of
the job mark fails where the store still fails (R172, log 75). -/
def rereadStore (s : State) : State :=
  { s with
    resetReads := s.resetReads + 1
    storeFails := if s.psv.state = .halted ∧ Config.storeStillFails s.resetReads = true then some .read else s.storeFails }

/-- A reset by command whose release follows at once and finds the test strap at a level (R162, R168). -/
def resetAndRelease (strapHigh : Bool) (s : State) : State :=
  release .command strapHigh (assertReset .command (rereadStore s))

/-- The RESET command: its release reads the test strap, whose level is a free value, a fresh one at each RESET (R162, R168,
log 15). -/
def resetNow (s : State) : State := resetAndRelease (Config.strapHighAtReset s.resetReads) s

/-- The power-down actions go on (10 R173). -/
def inActions (s : State) : Bool := decide (s.psv.state = .powerDown) && decide (s.psv.monitor = .actions)

/-- A RESET that waits for the power-down actions; a line reset that waits already goes before it (10 R180, log 39). -/
def Psv.deferCommand (q : Psv) : Psv :=
  match q.deferredReset with
  | some (.line _) => q
  | _ => { q with deferredReset := some .command }

/-- RESET: in ACTIONS it takes effect when the power-down actions complete (R168, 10 R180, log 39). -/
def takeReset (s : State) : State :=
  if inActions s then answerCommand .reset .waiting 0 (onPsv Psv.deferCommand s) else resetNow s

/-- A line reset in RESTART mode (R168, 10 R180). -/
def lineRestart (s : State) : State :=
  if inActions s then onPsv (fun q => { q with deferredReset := some (.line none) }) s
  else assertReset .line s

/-- The notices of a line reset in HOLD mode, as R169 lists the blocks. -/
def lineHoldNotices : List Instr := [.ssu, .vdu, .wvc, .fds].map Instr.lineHoldNotice

/-- A line reset in HOLD mode (R169). -/
def lineHold (s : State) : State :=
  match s.psv.state with
  | .bench | .halted => assertReset .line s
  | .powerDown => s
  | _ => requestAttn .hold (sendAll lineHoldNotices s)

/-- The assertion of the reset line, taken by the line reset mode as it stands (R168, R169, log 14). -/
def assertLine (s : State) : State :=
  match s.psv.lineMode with
  | .restart => lineRestart s
  | .hold => lineHold s

/-- RESET (R168). -/
def execReset (s : State) : Result := whileActing (command takeReset) s

/-- LINE_RESET_RESTART (R168). -/
def execLineResetRestart (s : State) : Result := whileActing assertLine s

/-- LINE_RESET_HOLD (R169). -/
def execLineResetHold (s : State) : Result := whileActing assertLine s

/-- The release of a line reset that has still to take effect: the reset keeps its place, and the strap found now is that
of its release (DESIGN CHOICE, 10 R180, log 91). -/
def noteRelease (strapHigh : Bool) (s : State) : State :=
  match s.psv.deferredReset with
  | some (.line none) => onPsv (fun q => { q with deferredReset := some (.line (some strapHigh)) }) s
  | _ => s

/-- RESET_RELEASE (R162). -/
def execResetRelease (strapHigh : Bool) (s : State) : Result :=
  match s.power with
  | .held cause => .next (release cause strapHigh s)
  | .on => .next (noteRelease strapHigh s)
  | .off => .next s

/-! ## Power-on and loss of power -/

/-- What the Time Base does at power-on with the backup domain's report (01 R12). Where no saved word was ever held, a lost
supply sets no CLOCK_LOST and asks for nothing (DESIGN CHOICE, log 83). -/
def backupReport (backupHeld : Bool) (s : State) : State :=
  match s.tmb.savedWord with
  | none => { s with tmb := { s.tmb with siteSeconds := 0, clockValid := true } }
  | some saved =>
    if backupHeld then s
    else
      let t : State := { s with tmb := { s.tmb with siteSeconds := saved, clockValid := false, clockLost := true } }
      requestAttn .fault (if s.tmb.clockLost then t else requestAttn .event t)

/-- POWER_ON: the part is held until its release (R162, R163, R168). -/
def powerUp (backupHeld : Bool) (s : State) : State :=
  backupReport backupHeld { loseVolatile s with
    power := .held .powerOn, psv := { s.psv.volatile with lineMode := .restart } }

/-- POWER_ON (R162). -/
def execPowerOn (backupHeld : Bool) (s : State) : Result :=
  .next (if powered s then s else refreshLamps (powerUp backupHeld s))

/-- The part loses power, and with it all that it does not retain (10 R173). -/
def losePower (s : State) : State := refreshLamps { loseVolatile s with power := .off }

end Sys2Proof.Machine
end

