-- ==== Sys2Proof/Machine/Power.lean ====
section
/-! DEFINITION. The supply monitor, the power-fail warning, the power-down actions and the return of supply, and HALTED
(10 R173 to R181, R188; 09 R172). -/

namespace Sys2Proof.Machine

open Sys2Proof

/-! ## The warning (R174, R175) -/

/-- The warning is a repeated outage (R175). -/
def isRepeated (s : State) : Bool :=
  decide (s.psv.state = .recovery) ||
    match s.psv.lastRecoveryEnd with
    | none => false
    | some e => decide (since (site s) e < Config.repeatedOutageTime)

/-- What a repeated outage sets and asks for (R175). -/
def noteRepeated (s : State) : State :=
  let t := onPsv (fun q => { q with repeatedOutage := true }) s
  send .feedPauseRequest (if s.psv.repeatedOutage then t else requestAttn .event t)

/-- A message that a warning leaves without meaning: the notices of a STOP or a CLEAR it cuts off, and the end of a
publication it abandons (log 29). -/
def cutOff : Instr → Bool
  | .waveEnded | .feedStopped | .clearNotice _ | .clearDone _ | .publicationEnd => true
  | _ => false

/-- What the supervisor holds after the take of a warning (R174, R188, 09 R167). -/
def Psv.warned (q : Psv) : Psv :=
  { q with control := { q.control with waiting := false }, clearing := [], monitor := .actions, supplyGood := false,
           waveDone := false, feedDone := false, waveEnded := false, feedStopped := false, recovery := .none,
           recoveryTimer := none, goodTimer := none, dying := false }

/-- The blocks that act on the warning at its take (R174; 01 R11, 02 R34, 03 R41, 05 R97, 08 R161). -/
def warnBlocks (s : State) : State :=
  let t := warnLevel (endScan (setQuiet (onExc Exc.stopped s)))
  { t with tmb := { t.tmb with savedWord := some t.tmb.siteSeconds } }

/-- The power-fail warning (R174). The channels are told in ascending number (DESIGN CHOICE, log 78). -/
def takeWarning (s : State) : State :=
  let t : State := { s with mail := s.mail.filter fun c => !cutOff c }
  let u := if isRepeated s then noteRepeated t else t
  let v := sendAll (allStations.map Instr.offValve ++ [.feedPowerDown, .wavePowerDown]) (warnBlocks u)
  enterState .powerDown (onPsv Psv.warned v)

/-- SUPPLY_LOW (R173). -/
def takeSupplyLow (s : State) : State :=
  match s.psv.monitor with
  | .normal =>
    match s.psv.state with
    | .bench | .halted => s
    | _ => takeWarning s
  | .actions => onPsv (fun q => { q with supplyGood := false }) s
  | .wait => onPsv (fun q => { q with supplyGood := false, goodTimer := none }) s

/-- SUPPLY_GOOD (R173). -/
def takeSupplyGood (s : State) : State :=
  match s.psv.monitor with
  | .normal => s
  | .actions => onPsv (fun q => { q with supplyGood := true, dying := false }) s
  | .wait => onPsv (fun q => { q with supplyGood := true, goodTimer := some (now s) }) s

/-! ## The power-down actions (R174, R180) -/

/-- A reset that was waiting for the power-down actions takes effect (R180); a line reset whose line has been released
meanwhile is released at once, by the strap found then (DESIGN CHOICE, log 91). -/
def takeDeferredReset (s : State) : State :=
  match s.psv.deferredReset with
  | none => s
  | some .command => resetNow s
  | some (.line none) => assertReset .line s
  | some (.line (some strapHigh)) => release .line strapHigh (assertReset .line s)

/-- The power-down actions are complete; power goes now if the supply has died meanwhile (R173, R174, log 59). -/
def completeActions (s : State) : State :=
  if s.psv.dying then losePower s
  else takeDeferredReset (onPsv (fun q => { q with
    monitor := .wait, goodTimer := if q.supplyGood then some (now s) else none }) s)

/-- Completion is judged at a report; while a notice, a placement or a slot write is still on its way, the report comes
round again behind it (R174, log 41). -/
def judgeActions (report : Instr) (s : State) : State :=
  if s.psv.waveDone && s.psv.feedDone then
    if settlingWaits s then send report s else completeActions s
  else s

/-- POWER_DOWN_ACTIONS_DONE (R174). -/
def takeWaveDone (s : State) : State :=
  if inActions s then judgeActions .powerDownActionsDone (onPsv (fun q => { q with waveDone := true }) s) else s

/-- FEED_STOPPED: it may end STOPPING or the power-down actions (09 R166, R174). -/
def takeFeedStopped (s : State) : State :=
  if s.psv.state = .stopping then endStopping (onPsv (fun q => { q with feedStopped := true }) s)
  else if inActions s then judgeActions .feedStopped (onPsv (fun q => { q with feedDone := true }) s)
  else s

/-! ## The return of good supply (R181) -/

/-- The blocks that start again at a return of supply (02 R34, 05 R97). -/
def restoreField (s : State) : State := restoreLevel (resetSsu s)

/-- The part enters CONFIG from POWER_DOWN with no job: the cold values but for fine time, the attention registers and
CONTROL (R181). -/
def returnCold (s : State) : State :=
  let t := restoreField (resetVdu (emptyTables (onExc (fun e => { e with postscaler := 0 }) s)))
  beginPublication (requestAttn .fault (startTimers (enterState .config t)))

/-- The return of good supply (R181). -/
def returnOfSupply (s : State) : State :=
  let t := onPsv (fun q => { q with monitor := .normal, goodTimer := none }) s
  if s.psv.jobMark then beginRecovery (restoreField t) else returnCold t

/-- RETURN_OF_GOOD_SUPPLY: the expiry of the good-supply timer (R180, R181). -/
def takeReturn (s : State) : State :=
  if s.psv.state = .powerDown ∧ s.psv.monitor = .wait ∧ s.psv.goodTimer.isSome = true then returnOfSupply s else s

/-! ## HALTED (09 R172) -/

/-- The store is found to fail while the part is held in reset, which its release will meet, a loss of power between the two
notwithstanding; a later report replaces an earlier one (09 R172, log 60). -/
def noteFailure (failure : StoreFailure) (s : State) : State := { s with storeFails := some failure }

/-- The first error takes the part into HALTED, and a supply that has died in ACTIONS then goes at once (R172, log 59);
a further one in HALTED changes nothing. -/
def takeStoreError (failure : StoreFailure) (s : State) : State :=
  if s.psv.state = .halted then s
  else if s.psv.dying then losePower (enterHalted failure s)
  else enterHalted failure s

/-! ## The loss of power (R173) -/

/-- The supply dies while the part acts: a warning comes first where one is due, and power goes when the power-down
actions are complete (R173, log 59). -/
def takeSupplyDies (s : State) : State :=
  match s.psv.monitor with
  | .normal =>
    match s.psv.state with
    | .bench | .halted => losePower s
    | _ => onPsv (fun q => { q with dying := true }) (takeWarning s)
  | .actions => onPsv (fun q => { q with supplyGood := false, dying := true }) s
  | .wait => losePower s

/-! ## Meanings -/

/-- SUPPLY_LOW (R173). -/
def execSupplyLow (s : State) : Result := whileActing takeSupplyLow s

/-- SUPPLY_GOOD (R173). -/
def execSupplyGood (s : State) : Result := whileActing takeSupplyGood s

/-- POWER_DOWN_ACTIONS_DONE (R176). -/
def execPowerDownActionsDone (s : State) : Result := taking .powerDownActionsDone takeWaveDone s

/-- FEED_STOPPED (07 R136). -/
def execFeedStopped (s : State) : Result := taking .feedStopped takeFeedStopped s

/-- RETURN_OF_GOOD_SUPPLY (R181). -/
def execReturnOfGoodSupply (s : State) : Result := whileActing takeReturn s

/-- RETENTION_STORE_ERROR (09 R172). -/
def execRetentionStoreError (failure : StoreFailure) (s : State) : Result :=
  match s.power with
  | .on => whileActing (takeStoreError failure) s
  | .held _ => .next (noteFailure failure s)
  | .off => .next s

/-- SUPPLY_DIES (R173). -/
def execSupplyDies (s : State) : Result :=
  match s.power with
  | .on => whileActing takeSupplyDies s
  | .held _ => .next (losePower s)
  | .off => .next s

end Sys2Proof.Machine
end

