-- ==== Sys2Proof/Machine/Clock.lean ====
section
/-! DEFINITION. What comes due with fine time, in the order in which it is taken, and the passing of a millisecond
(log 6). -/

namespace Sys2Proof.Machine

open Sys2Proof

/-- A timer that may be stopped has run its length. -/
def timerDue (t : Option Timer) (at_ : Word) : Bool := t.any fun x => x.isDue at_

/-- A stamp that may be absent lies at least so many milliseconds back. -/
def stampDue (stamp : Option Word) (length : Nat) (at_ : Word) : Bool :=
  stamp.any fun b => decide (length ≤ since at_ b)

/-- The channel's ramp has run its duration (03 R36). -/
def Channel.rampDue (c : Channel) (at_ : Word) : Bool := c.ramp.any fun r => decide (r.duration ≤ since at_ r.start)

/-- The first station with a property, as the command about it. -/
def firstStation (p : Station → Bool) (c : Station → Instr) : Option Instr := (allStations.find? p).map c

/-- The command when its time has come. -/
def dueWhen (b : Bool) (c : Instr) : Option Instr := if b then some c else none

/-- The wave's timers and the dwell counter (04 R55, R62, R65). -/
def waveDue (s : State) : Option Instr :=
  let w := s.wvc
  let settling := decide (w.climb = .settle) && decide (w.ending = none)
  (dueWhen (settling && timerDue w.fallTimer (now s)) .fallTimerExpiry)
    <|> (dueWhen (settling && timerDue w.settleTimer (now s)) .settleTimerExpiry)
    <|> (dueWhen (decide (w.climb = .drive) && decide (w.ending = none) && timerDue w.driveTimer (now s)) .driveTimerExpiry)
    <|> (dueWhen (decide (w.climb = .dwell) && startDue s && !w.permission) .dwellExpiry)

/-- The gate is open and its time is over (07 R125). -/
def GateRun.isDue (g : GateRun) (at_ : Word) : Bool := g.passed.isNone && g.ran at_

/-- The close of a gate (07 R131, R132). -/
def gateDue (s : State) : Option Instr :=
  if drives s.fds.view then
    match s.fds.gate with
    | .idle => none
    | .drop _ g => dueWhen (g.isDue (now s)) .gateClose
    | .waste g _ => dueWhen (g.isDue (now s)) .wasteGateClose
  else none

/-- The supervisor's timers (09 R171, 10 R173, R183). -/
def supervisorDue (s : State) : Option Instr :=
  (dueWhen (isSettling s && timerDue s.psv.recoveryTimer (now s)) .recoveryWindowExpiry)
    <|> (dueWhen (decide (s.psv.state = .powerDown) && decide (s.psv.monitor = .wait)
          && stampDue s.psv.goodTimer Config.goodSupplyTime (now s)) .returnOfGoodSupply)
    <|> (match s.psv.benchPhase with
          | .lampTest b => dueWhen (decide (Config.lampTestTime ≤ since (now s) b)) .lampTestExpiry
          | _ => none)

/-- A reply has not begun, or one that has begun has not ended, in time (05 R85). -/
def replyLate (s : State) : Bool :=
  match s.lbp.transaction, s.lbp.incoming with
  | .await _ _ b, none => decide (Config.replyBegin ≤ since (now s) b)
  | .await _ _ _, some r => decide (Config.replyEnd ≤ since (now s) r.begun)
  | _, _ => false

/-- The next transaction begins (05 R86). -/
def pollDue (s : State) : Bool :=
  polls s.lbp.view && decide (s.lbp.transaction = .idle) && (nextPoll s).isSome
    && (s.lbp.lastEnd.isNone || stampDue s.lbp.lastEnd Config.transactionPause (now s))

/-- The age of the station's reading has reached 2³¹ ms (05 R92). -/
def readingOld (s : State) (st : Station) : Bool := (readingOf s st).any fun r => decide (2 ^ 31 ≤ readingAge s r)

/-- The poller's timers (05 R85, R86, R92, R97). A settle hold lasts the probe settle time in force when it is looked at
(log 65). -/
def levelDue (s : State) : Option Instr :=
  (dueWhen (stampDue s.lbp.settleHold (1000 * s.psv.rig.probeSettle) (now s)) .settleHoldEnd)
    <|> firstStation (readingOld s) .readingMadeAbsent
    <|> dueWhen (replyLate s) .replyTimeout
    <|> dueWhen (pollDue s) .transactionBegin

/-- The exchange's timers (08 R145, R156). -/
def exchangeDue (s : State) : Option Instr :=
  (dueWhen (exchanges s.psv.state && stampDue s.exc.scanTimer Config.scanPeriod (now s)) .exchangeScan)
    <|> dueWhen (exchanges s.psv.state && timerDue s.exc.publishTimer (now s)) .publishTimerExpiry

/-- A lamp's flash time is over (09 R170). -/
def lampIsDue (l : Lamp) (at_ : Word) : Bool := (flashTime l.pattern).any fun t => decide (t ≤ since at_ l.since)

/-- The lamps (09 R170). -/
def lampDue (s : State) : Option Instr :=
  ([LampName.green, .amber, .red].find? fun n => lampIsDue (lampOf s n) (now s)).map .lampFlashToggle

/-- What has come due, the first in this order (log 6). -/
def due (s : State) : Option Instr :=
  firstStation (fun st => (channelOf s st).rampDue (now s)) .rampEnd
    <|> waveDue s <|> gateDue s <|> supervisorDue s <|> levelDue s <|> exchangeDue s <|> lampDue s

/-- A millisecond passes: fine time advances and the dwell counter runs up to its limit (01 R10, 04 R55). -/
def tick (s : State) : State :=
  { s with tmb := { s.tmb with fineTime := s.tmb.fineTime + 1 }
           wvc := { s.wvc with dwell := min Config.dwellLimit (s.wvc.dwell + 1) } }

/-- The notice is one by which CLEAR empties the batch records or frees the slots (07 R143, 08 R160). -/
def emptiesSlots (c : Instr) : Bool := decide (c = .clearNotice .fds) || decide (c = .clearNotice .exc)

/-- The message waits: the Wave Controller settles a wave once the scan has stopped, so that every stroke seen before the
stop is in the drained answers (02 R34, 10 R176, log 19); and CLEAR frees the slots once no batch and no slot write is on
its way, so that no slot shows a record that has been emptied (07 R143, log 67). -/
def heldBack (s : State) (c : Instr) : Bool :=
  (decide (c = .wavePowerDown) && decide (s.ssu.scan = .ending))
    || (emptiesSlots c && (settlingWaits s || handoverWaits s))

/-- The oldest message that does not wait. -/
def nextMessage (s : State) : Option Instr := s.mail.find? fun c => !heldBack s c

/-- What the part does by itself next: it takes the oldest message, or what has come due. -/
def nextOwn (s : State) : Option Instr :=
  if acting s then nextMessage s <|> due s else none

/-- What the part does when nothing waits and nothing is due: a millisecond passes while it acts (log 6). -/
def idle (s : State) : State := if acting s then tick s else s

end Sys2Proof.Machine
end

