-- ==== Sys2Proof/Machine/Dispatch.lean ====
section
/-! DEFINITION. One arm for each command of the part, each a direct call of its meaning. -/

namespace Sys2Proof.Machine

open Sys2Proof

/-- What a command answers: its effect on everything but the queue of waiting commands. -/
def exec (i : Instr) (s : State) : Host.Outcome State Fault Refusal :=
  match i with
  | .start => Sys2Proof.Machine.execStart s
  | .stop => Sys2Proof.Machine.execStop s
  | .clear => Sys2Proof.Machine.execClear s
  | .reset => Sys2Proof.Machine.execReset s
  | .lineModeRestart => Sys2Proof.Machine.execLineModeRestart s
  | .lineModeHold => Sys2Proof.Machine.execLineModeHold s
  | .unknownCommand code => Sys2Proof.Machine.execUnknownCommand code s
  | .attnWrite value => Sys2Proof.Machine.execAttnWrite value s
  | .attnMaskWrite value => Sys2Proof.Machine.execAttnMaskWrite value s
  | .attnPaceWrite value => Sys2Proof.Machine.execAttnPaceWrite value s
  | .ignoredRegisterWrite offset value => Sys2Proof.Machine.execIgnoredRegisterWrite offset value s
  | .hostWindowWrite offset value => Sys2Proof.Machine.execHostWindowWrite offset value s
  | .retentionStoreError failure => Sys2Proof.Machine.execRetentionStoreError failure s
  | .powerOn backupHeld => Sys2Proof.Machine.execPowerOn backupHeld s
  | .lineResetRestart => Sys2Proof.Machine.execLineResetRestart s
  | .lineResetHold => Sys2Proof.Machine.execLineResetHold s
  | .resetRelease strapHigh => Sys2Proof.Machine.execResetRelease strapHigh s
  | .supplyLow => Sys2Proof.Machine.execSupplyLow s
  | .supplyGood => Sys2Proof.Machine.execSupplyGood s
  | .returnOfGoodSupply => Sys2Proof.Machine.execReturnOfGoodSupply s
  | .powerDownActionsDone => Sys2Proof.Machine.execPowerDownActionsDone s
  | .feedStopped => Sys2Proof.Machine.execFeedStopped s
  | .waveEnded => Sys2Proof.Machine.execWaveEnded s
  | .siteSecondAdvance => Sys2Proof.Machine.execSiteSecondAdvance s
  | .siteSecondNotice receiver => Sys2Proof.Machine.execSiteSecondNotice receiver s
  | .lampFlashToggle lamp => Sys2Proof.Machine.execLampFlashToggle lamp s
  | .rowRead columns => Sys2Proof.Machine.execRowRead columns s
  | .lampTestExpiry => Sys2Proof.Machine.execLampTestExpiry s
  | .openWindow station kinds notices => Sys2Proof.Machine.execOpenWindow station kinds notices s
  | .closeWindow station => Sys2Proof.Machine.execCloseWindow station s
  | .drainQueue station => Sys2Proof.Machine.execDrainQueue station s
  | .strayReset station => Sys2Proof.Machine.execStrayReset station s
  | .firstOfKindNotice station kind time => Sys2Proof.Machine.execFirstOfKindNotice station kind time s
  | .drainAnswer station records overflow => Sys2Proof.Machine.execDrainAnswer station records overflow s
  | .markRequest station cause => Sys2Proof.Machine.execMarkRequest station cause s
  | .coilFaultNotice station => Sys2Proof.Machine.execCoilFaultNotice station s
  | .eventRequest station => Sys2Proof.Machine.execEventRequest station s
  | .openValve station => Sys2Proof.Machine.execOpen station s
  | .closeValve station => Sys2Proof.Machine.execClose station s
  | .restValve station => Sys2Proof.Machine.execRest station s
  | .offValve station => Sys2Proof.Machine.execOff station s
  | .faultReset station => Sys2Proof.Machine.execFaultReset station s
  | .wake => Sys2Proof.Machine.execWake s
  | .rampEnd station => Sys2Proof.Machine.execRampEnd station s
  | .coilTest station current => Sys2Proof.Machine.execCoilTest station current s
  | .partStateNotice receiver part => Sys2Proof.Machine.execPartStateNotice receiver part s
  | .dwellExpiry => Sys2Proof.Machine.execDwellExpiry s
  | .risePermissionRequest => Sys2Proof.Machine.execRisePermissionRequest s
  | .risePermissionAnswer age fill => Sys2Proof.Machine.execRisePermissionAnswer age fill s
  | .driveTimerExpiry => Sys2Proof.Machine.execDriveTimerExpiry s
  | .settleTimerExpiry => Sys2Proof.Machine.execSettleTimerExpiry s
  | .fallTimerExpiry => Sys2Proof.Machine.execFallTimerExpiry s
  | .waveStop => Sys2Proof.Machine.execWaveStop s
  | .feedStop => Sys2Proof.Machine.execFeedStop s
  | .lineHoldNotice receiver => Sys2Proof.Machine.execLineHoldNotice receiver s
  | .wavePowerDown => Sys2Proof.Machine.execWavePowerDown s
  | .feedPowerDown => Sys2Proof.Machine.execFeedPowerDown s
  | .feedPauseRequest => Sys2Proof.Machine.execFeedPauseRequest s
  | .clearNotice receiver => Sys2Proof.Machine.execClearNotice receiver s
  | .clearDone sender => Sys2Proof.Machine.execClearDone sender s
  | .requalify slot station count => Sys2Proof.Machine.execRequalify slot station count s
  | .retire slot station => Sys2Proof.Machine.execRetire slot station s
  | .clearEventsStation slot index events => Sys2Proof.Machine.execClearEventsStation slot index events s
  | .clearEventsSector slot index events => Sys2Proof.Machine.execClearEventsSector slot index events s
  | .clearEventsRig slot events => Sys2Proof.Machine.execClearEventsRig slot events s
  | .addOpening slot sector lower upper => Sys2Proof.Machine.execAddOpening slot sector lower upper s
  | .dropOpening slot sector position => Sys2Proof.Machine.execDropOpening slot sector position s
  | .cancelBatch slot batch image => Sys2Proof.Machine.execCancelBatch slot batch image s
  | .orderOutcome slot answer => Sys2Proof.Machine.execOrderOutcome slot answer s
  | .motionOnNotice => Sys2Proof.Machine.execMotionOnNotice s
  | .motionOffNotice => Sys2Proof.Machine.execMotionOffNotice s
  | .transactionBegin => Sys2Proof.Machine.execTransactionBegin s
  | .querySent => Sys2Proof.Machine.execQuerySent s
  | .replyFrame bytes framingError => Sys2Proof.Machine.execReplyFrame bytes framingError s
  | .replyTimeout => Sys2Proof.Machine.execReplyTimeout s
  | .readingMadeAbsent station => Sys2Proof.Machine.execReadingMadeAbsent station s
  | .settleHoldEnd => Sys2Proof.Machine.execSettleHoldEnd s
  | .readingNotice station => Sys2Proof.Machine.execReadingNotice station s
  | .recoveryWindowExpiry => Sys2Proof.Machine.execRecoveryWindowExpiry s
  | .countsChanged => Sys2Proof.Machine.execCountsChanged s
  | .exitNotice slot index time => Sys2Proof.Machine.execExitNotice slot index time s
  | .feedView slot destination portionCount => Sys2Proof.Machine.execFeedView slot destination portionCount s
  | .pourPlanRequest request => Sys2Proof.Machine.execPourPlanRequest request s
  | .pourPlanAnswer answer => Sys2Proof.Machine.execPourPlanAnswer answer s
  | .placement sector slot volume => Sys2Proof.Machine.execPlacement sector slot volume s
  | .placementAnswer result => Sys2Proof.Machine.execPlacementAnswer result s
  | .deficitNotice => Sys2Proof.Machine.execDeficitNotice s
  | .dropPlan => Sys2Proof.Machine.execDropPlan s
  | .gateClose => Sys2Proof.Machine.execGateClose s
  | .wasteGateClose => Sys2Proof.Machine.execWasteGateClose s
  | .climbDirective values => Sys2Proof.Machine.execClimbDirective values s
  | .flowDirective flow => Sys2Proof.Machine.execFlowDirective flow s
  | .feedMaskDirective mask => Sys2Proof.Machine.execFeedMaskDirective mask s
  | .exchangeScan => Sys2Proof.Machine.execExchangeScan s
  | .batchHandover slot request => Sys2Proof.Machine.execBatchHandover slot request s
  | .slotWriteRequest write => Sys2Proof.Machine.execSlotWriteRequest write s
  | .attentionSetRequest source => Sys2Proof.Machine.execAttentionSetRequest source s
  | .publishTimerExpiry => Sys2Proof.Machine.execPublishTimerExpiry s
  | .publicationEnd => Sys2Proof.Machine.execPublicationEnd s
  | .supplyDies => Sys2Proof.Machine.execSupplyDies s

end Sys2Proof.Machine
end

