-- ==== Sys2Proof/Safety.lean ====
section
/-! DEFINITION. What is always true of the part's state by the spec's own sentences, which block a command is taken by,
and what the statements name of the CRC-8, an emptied exchange, a begun publication and a settled or retired record. -/

namespace Sys2Proof.Machine

open Sys2Proof

/-! ## What is always true -/

/-- The window is in its canonical form (log 2). -/
def windowCanonical (s : State) : Prop := Memory.wf s.window

/-- The ATTN line is asserted exactly when a source is set whose mask bit is clear (08 R159). -/
def attnLineExact (s : State) : Prop := s.exc.attnLine = decide (s.exc.attn &&& ~~~s.exc.attnMask ≠ 0)

/-- The pump enable is asserted exactly while a channel is OPENING or OPEN (03 R43). -/
def pumpExact (s : State) : Prop := s.vdu.pumpEnable = anyOf s.vdu.channels Channel.needsPump

/-- A closed window has an empty queue and a clear overflow flag; no queue holds more than 4 records (02 R24, R26). -/
def SsuStation.sound (u : SsuStation) : Prop :=
  u.queue.length ≤ 4 ∧ (u.window = none → u.queue = [] ∧ u.overflow = false)

/-- Every station's queue and window are sound. -/
def queuesSound (s : State) : Prop := ∀ st : Station, (ssuOf s st).sound

/-- Marks never exceed 3, a station with 3 marks is BARRED, and a count never exceeds 65,535 (04 R48, R71). -/
def StationRecord.sound (r : StationRecord) : Prop :=
  r.marks ≤ 3 ∧ (r.marks = 3 → r.service = .barred) ∧ r.count ≤ 65535

/-- Every station record is sound. -/
def recordsSound (s : State) : Prop := ∀ st : Station, (recordOf s st).sound

/-- A plan answered NEW names this sector. -/
def plansNewLayer (l : Ltr) (k : Sector) : Prop := ∃ p i, l.plan = some p ∧ p.sector = k ∧ p.kind = .new i

/-- A stack holds at most 10 layers, one fewer while a new layer is planned for it, and an opening list at most 2
openings (06 R98, R103, R106). -/
def stacksSound (s : State) : Prop :=
  ∀ k : Sector, (stackOf s k).length ≤ 10 ∧ (s.ltr.openings[k]).length ≤ 2
    ∧ (plansNewLayer s.ltr k → (stackOf s k).length < 10)

/-- The feed line holds at most 4 batches (07 R122). -/
def lineSound (s : State) : Prop := s.fds.line.length ≤ 4

/-- The pace and the publish postscaler count stay within 16 (08 R157, R159). -/
def paceSound (s : State) : Prop := s.exc.attnPace ≤ 16 ∧ s.exc.postscaler ≤ 16

/-- The three lamps show the patterns of the state they show (09 R170). -/
def lampsExact (s : State) : Prop :=
  s.psv.green.pattern = (lampPatterns s).green ∧ s.psv.amber.pattern = (lampPatterns s).amber
    ∧ s.psv.red.pattern = (lampPatterns s).red

/-! ## What a command leads to -/

/-- The command is carried out, and the part is then in this state, each lamp showing it (09 R170). -/
def leadsTo (c : Instr) (s t : State) : Prop := exec c s = .next (refreshLamps t)

/-- The Valve Drive Unit takes OPEN, CLOSE and REST for the channel: the part acts in RUN or STOPPING, the station is
fitted, and its coil-fault flag is clear (03 R40). -/
def takesCommands (s : State) (st : Station) : Prop :=
  acting s = true ∧ (s.vdu.view = .run ∨ s.vdu.view = .stopping) ∧ s.psv.rig.fitted.getLsbD st.1 = true
    ∧ (channelOf s st).coilFault = false

/-- The function is the CRC-8 of R84: generator x^8 + x^2 + x + 1, initial value 0, each byte joined and then shifted out bit
by bit, the most significant first, 07h joining where a 1 leaves. `r i` is the register after `i` bits of the last byte. -/
def isCrc8 (f : List Byte → Byte) : Prop :=
  f [] = 0#8
  ∧ ∀ (bytes : List Byte) (b : Byte) (r : Nat → Byte), r 0 = f bytes ^^^ b →
      (∀ i, i < 8 → ((r i).msb = true → r (i + 1) = (r i <<< 1) ^^^ 0x07#8)
        ∧ ((r i).msb = false → r (i + 1) = r i <<< 1)) →
      f (bytes ++ [b]) = r 8

/-! ## What becomes of the exchange and of a wave -/

/-- From `s` to `u` the exchange has been emptied as a cold start and CLEAR leave it (08 R160, 11 R189): every slot is FREE,
its state, outcome and report words and the words no layout names are 0, its request words and all the window but the boards
and the Status Page are as they were, and what the controller retains of editions, rejections and misuse is cleared. -/
def exchangeEmptied (s u : State) : Prop :=
  (∀ slot : OrderSlot, u.exc.orderImages[slot] = .free) ∧ (∀ slot : BatchSlot, u.exc.batchImages[slot] = .free)
  ∧ u.exc.edition = 0 ∧ u.exc.lastRejected = 0 ∧ u.exc.badField = 0 ∧ u.exc.misuse = none ∧ u.exc.misuseEvent = false
  ∧ u.exc.directiveBad = false
  ∧ (windowCanonical s →
      (∀ slot : OrderSlot, readWord u.window (orderBase slot) = 0 ∧ readWord u.window (orderBase slot + 0x14) = 0
        ∧ readWord u.window (orderBase slot + 0x18) = 0 ∧ readWord u.window (orderBase slot + 0x1C) = 0
        ∧ ∀ i, 1 ≤ i → i ≤ 4 → readWord u.window (orderBase slot + 4 * i) = readWord s.window (orderBase slot + 4 * i))
      ∧ (∀ slot : BatchSlot, readWord u.window (batchBase slot) = 0
        ∧ (∀ i, i < 58 → readWord u.window (batchBase slot + 0x18 + 4 * i) = 0)
        ∧ ∀ a, 0x04 ≤ a → a < 0x18 → readByte u.window (batchBase slot + a) = readByte s.window (batchBase slot + a))
      ∧ ∀ a, (a < 0x400 ∨ (0x600 ≤ a ∧ a < 0x800) ∨ (0x3800 ≤ a ∧ a < 0x4000) ∨ 0x7FFC ≤ a) →
          readByte u.window a = readByte s.window a)

/-- From `s` to `u` a publication has begun under the next status edition, which wraps to 1, the unnamed area before the
tail being written 0 (08 R156, 11 R189). -/
def publicationBegun (s u : State) : Prop :=
  let edition : Word := if s.exc.statusEdition = 0xFFFFFFFF#32 then 1 else s.exc.statusEdition + 1
  u.exc.publication = some edition ∧ u.exc.statusEdition = edition ∧ .publicationEnd ∈ u.mail
  ∧ (windowCanonical s → readWord u.window 0x4000 = edition ∧ ∀ a, 0x7100 ≤ a → a < 0x7FFC → readByte u.window a = 0)

/-- The record of a station once the wave in flight has been settled from the edge queues (04 R50, 10 R176, R177). A
participant not judged yet is credited the first EXTEND of its queue, with its duration from the DRIVE start, and is left
in doubt, with the event DOUBT, where its queue holds none. One judged MISSING or IN_DOUBT is credited a late EXTEND, which
clears the in-doubt flag of an IN_DOUBT one. Any other record stays. -/
def settledRecord (s : State) (st : Station) : StationRecord :=
  let r := recordOf s st
  let i := itemOf s st
  let credited (e : EdgeRecord) : StationRecord := { r with
    count := min 65535 (r.count + 1), lastStroke := some (min 65535 (e.time - s.wvc.driveStart).toNat) }
  if (s.wvc.climb = .drive ∨ s.wvc.climb = .settle) ∧ i.participant = true then
    match i.verdict, (ssuOf s st).queue.find? fun e => decide (e.kind = .extend) with
    | none, some e => credited e
    | none, none => { r with inDoubt := true, events := r.events ||| 0x040#9 }
    | some .missing, some e => credited e
    | some .inDoubt, some e => { credited e with inDoubt := false }
    | _, _ => r
  else r

/-- The record of a station once a RETIRE that waits for it has been carried out (04 R81, R82). -/
def retiredRecord (r : StationRecord) : StationRecord :=
  match r.retirePending with
  | none => r
  | some _ => { r with service := .retired, marks := 0, cleanRun := 0, retirePending := none }

/-! ## Which block takes a command -/

/-- The commands taken by the Stroke Sensing Unit from the Wave Controller (02). -/
def Instr.isStroke : Instr → Bool
  | .openWindow .. | .closeWindow .. | .drainQueue .. | .strayReset .. => true
  | _ => false

/-- The commands and events of the valve channels (03). -/
def Instr.isValve : Instr → Bool
  | .openValve .. | .closeValve .. | .restValve .. | .offValve .. | .faultReset .. | .wake | .rampEnd .. | .coilTest .. => true
  | _ => false

/-- The notices, answers, timers, directives and orders the Wave Controller takes (04). -/
def Instr.isWave : Instr → Bool
  | .firstOfKindNotice .. | .drainAnswer .. | .markRequest .. | .coilFaultNotice .. | .eventRequest .. | .dwellExpiry
  | .risePermissionAnswer .. | .driveTimerExpiry | .settleTimerExpiry | .fallTimerExpiry | .waveStop | .wavePowerDown
  | .climbDirective .. | .requalify .. | .retire .. | .clearEventsStation .. => true
  | _ => false

/-- The events of the level bus and of the poller (05). -/
def Instr.isLevel : Instr → Bool
  | .motionOnNotice | .motionOffNotice | .transactionBegin | .querySent | .replyFrame .. | .replyTimeout
  | .readingMadeAbsent .. | .settleHoldEnd => true
  | _ => false

/-- The notices, requests, placements and orders the Layer Tracker takes (06). -/
def Instr.isLayer : Instr → Bool
  | .countsChanged | .feedView .. | .pourPlanRequest .. | .placement .. | .dropPlan | .addOpening .. | .dropOpening ..
  | .clearEventsSector .. | .risePermissionRequest | .feedMaskDirective .. => true
  | _ => false

/-- The answers, gate closes, notices, directives and orders the Feed Distributor takes (07), but for a hand-over. -/
def Instr.isFeed : Instr → Bool
  | .pourPlanAnswer .. | .placementAnswer .. | .gateClose | .wasteGateClose | .feedStop | .feedPowerDown
  | .feedPauseRequest | .flowDirective .. | .deficitNotice | .cancelBatch .. | .exitNotice .. => true
  | _ => false

/-- The accesses, scans, slot writes, publications and requests the Exchange Controller takes (08). -/
def Instr.isExchange : Instr → Bool
  | .attnWrite .. | .attnMaskWrite .. | .attnPaceWrite .. | .slotWriteRequest .. | .orderOutcome .. | .exchangeScan
  | .attentionSetRequest .. | .publishTimerExpiry | .publicationEnd => true
  | _ => false

/-- The commands that have no effect while the part has no power or is held in reset (09 R168, log 31). -/
def Instr.needsActing : Instr → Bool
  | .ignoredRegisterWrite .. | .hostWindowWrite .. | .powerOn .. | .resetRelease .. | .siteSecondAdvance
  | .retentionStoreError .. | .supplyDies => false
  | _ => true

end Sys2Proof.Machine
end

