-- ==== Sys2Proof/Certificates/Slice0/Obligations.lean ====
section
/-! DEFINITION. What is stated of the part: one proposition for each entry of OBLIGATIONS.json, in its order. -/

section

open Sys2Proof Sys2Proof.Machine

/-- A step takes the command at the front of the queue and carries it out on the state with the queue's rest. -/
def Obligations.StepTakesTheFrontCommand : Prop :=
  ∀ (s : State) (c : Instr) (rest : List Instr),
    step { s with pending := c :: rest } = exec c { s with pending := rest }

/-- On an empty queue the part takes its oldest message that does not wait (WAVE_POWER_DOWN waits while the scan is
ending, and a CLEAR of the batches or of the slots while a batch or a slot write is on its way), else what has come
due, else a millisecond passes; nothing happens while it does not act (the model's choice, logs 5, 6, 19, 31 and 67).
Without power, or held in reset, the commands that need the part to act change nothing (the model's choice, log 31).
What `due` finds has come due, and where something has come due it finds something: a ramp after its duration, the
DRIVE, SETTLE and fall timers after their lengths, the dwell at the wave period, a gate at its close time, the
recovery window, 200 ms of good supply, the lamp test of 2 s, the settle hold, a reading of 2^31 ms, a reply not begun
in 4 ms or not ended in 2 ms, a pause of 1 ms between transactions, 100 ms of a scan, the publish interval, a lamp's
1,000 or 250 ms. Which of several comes first is the model's choice (log 6), and so is that a settle hold lasts the
probe settle time in force when it is looked at (log 65). -/
def Obligations.IdleStepsAndCommandsWithoutRelease : Prop :=
  (∀ s : State, s.pending = [] →
     let waits (c : Instr) : Prop := (c = .wavePowerDown ∧ s.ssu.scan = .ending)
       ∨ ((c = .clearNotice .fds ∨ c = .clearNotice .exc) ∧ (settlingWaits s = true ∨ handoverWaits s = true))
     (acting s = false → step s = .next s)
     ∧ (∀ before c rest, acting s = true → s.mail = before ++ c :: rest → (∀ m ∈ before, waits m) → ¬waits c →
         step s = exec c s)
     ∧ (∀ c, acting s = true → (∀ m ∈ s.mail, waits m) → due s = some c → step s = exec c s)
     ∧ (acting s = true → (∀ m ∈ s.mail, waits m) → due s = none →
         step s = .next { s with tmb := { s.tmb with fineTime := s.tmb.fineTime + 1 }
                                 wvc := { s.wvc with dwell := min 180000000 (s.wvc.dwell + 1) } }))
  ∧ (∀ (s : State) (c : Instr), Instr.needsActing c = true → acting s = false → exec c s = .next s)
  ∧ (∀ s : State,
       let passed (since : Word) : Nat := (s.tmb.fineTime - since).toNat
       let runOut (timer : Option Timer) : Prop := ∃ t, timer = some t ∧ t.length ≤ passed t.start
       let lasted (stamp : Option Word) (length : Nat) : Prop := ∃ b, stamp = some b ∧ length ≤ passed b
       let closes (g : GateRun) : Prop := g.passed = none ∧ (g.closeAt - g.openedAt).toNat ≤ passed g.openedAt
       let pours : Prop := s.fds.view = .run ∨ s.fds.view = .stopping
       let exchanging : Prop :=
         s.psv.state = .config ∨ s.psv.state = .run ∨ s.psv.state = .stopping ∨ s.psv.state = .recovery
       let polling : Prop := s.lbp.view = .config ∨ s.lbp.view = .run ∨ s.lbp.view = .stopping ∨ s.lbp.view = .recovery
       let comes (c : Instr) (p : Prop) : Prop := (due s = some c → p) ∧ (p → due s ≠ none)
       (∀ st, comes (.rampEnd st) (∃ r, (channelOf s st).ramp = some r ∧ r.duration ≤ passed r.start))
       ∧ comes .driveTimerExpiry (s.wvc.climb = .drive ∧ s.wvc.ending = none ∧ runOut s.wvc.driveTimer)
       ∧ comes .settleTimerExpiry (s.wvc.climb = .settle ∧ s.wvc.ending = none ∧ runOut s.wvc.settleTimer)
       ∧ comes .fallTimerExpiry (s.wvc.climb = .settle ∧ s.wvc.ending = none ∧ runOut s.wvc.fallTimer)
       ∧ comes .dwellExpiry (s.wvc.climb = .dwell ∧ s.wvc.permission = false ∧ s.wvc.values.riseRate ≠ 0
           ∧ s.psv.rig.strokeLength * 3600000 / s.wvc.values.riseRate ≤ s.wvc.dwell)
       ∧ comes .gateClose (pours ∧ ∃ k g, s.fds.gate = .drop k g ∧ closes g)
       ∧ comes .wasteGateClose (pours ∧ ∃ g cause, s.fds.gate = .waste g cause ∧ closes g)
       ∧ comes .recoveryWindowExpiry (s.psv.state = .recovery ∧ s.psv.recovery = .settling ∧ runOut s.psv.recoveryTimer)
       ∧ comes .returnOfGoodSupply (s.psv.state = .powerDown ∧ s.psv.monitor = .wait ∧ lasted s.psv.goodTimer 200)
       ∧ comes .lampTestExpiry (∃ b, s.psv.benchPhase = .lampTest b ∧ 2000 ≤ passed b)
       ∧ comes .settleHoldEnd (lasted s.lbp.settleHold (1000 * s.psv.rig.probeSettle))
       ∧ (∀ st, comes (.readingMadeAbsent st) (∃ r, readingOf s st = some r ∧ 2 ^ 31 ≤ passed r.taken))
       ∧ comes .replyTimeout (∃ st attempt query, s.lbp.transaction = .await st attempt query
           ∧ ((s.lbp.incoming = none ∧ 4 ≤ passed query) ∨ ∃ r, s.lbp.incoming = some r ∧ 2 ≤ passed r.begun))
       ∧ comes .transactionBegin (polling ∧ s.lbp.transaction = .idle ∧ (∃ st, fitted s st = true)
           ∧ (s.lbp.lastEnd = none ∨ lasted s.lbp.lastEnd 1))
       ∧ comes .exchangeScan (exchanging ∧ lasted s.exc.scanTimer 100)
       ∧ comes .publishTimerExpiry (exchanging ∧ runOut s.exc.publishTimer)
       ∧ ∀ n, comes (.lampFlashToggle n) (((lampOf s n).pattern = .slow ∧ 1000 ≤ passed (lampOf s n).since)
           ∨ ((lampOf s n).pattern = .fast ∧ 250 ≤ passed (lampOf s n).since)))

/-- Once the lamps are refreshed they show the patterns of R170 and R171, and nothing else has changed.
LAMP_FLASH_TOGGLE: a lamp in slow or fast flash changes between lit and dark; a dark or steady one stays as it is.
Each lamp shows its state already. -/
def Obligations.LampsShowTheStateAndFlash : Prop :=
  (∀ s : State,
     let t := refreshLamps s
     let shows (g a r : LampPattern) : Prop :=
       t.psv.green.pattern = g ∧ t.psv.amber.pattern = a ∧ t.psv.red.pattern = r
     t = { s with psv := { s.psv with green := t.psv.green, amber := t.psv.amber, red := t.psv.red } }
     ∧ (s.power ≠ .on → shows .dark .dark .dark)
     ∧ (s.power = .on →
         (s.psv.state = .config → shows .slow .dark .dark)
         ∧ (s.psv.state = .run → s.wvc.climb = .held → shows .steady .steady .dark)
         ∧ (s.psv.state = .run → s.wvc.climb ≠ .held → s.fds.paused = true → shows .steady .slow .dark)
         ∧ (s.psv.state = .run → s.wvc.climb ≠ .held → s.fds.paused = false → shows .steady .dark .dark)
         ∧ (s.psv.state = .stopping → shows .fast .dark .dark)
         ∧ (s.psv.state = .powerDown → shows .dark .dark .dark)
         ∧ (s.psv.state = .recovery → shows .dark .fast .dark)
         ∧ (s.psv.state = .halted → shows .dark .dark .steady)
         ∧ (∀ b, s.psv.state = .bench → s.psv.benchPhase = .lampTest b → shows .steady .steady .steady)
         ∧ (s.psv.state = .bench → (∀ b, s.psv.benchPhase ≠ .lampTest b) →
             (s.psv.bench = .running → shows .dark .slow .dark)
             ∧ (s.psv.bench = .pass → shows .steady .dark .dark)
             ∧ (s.psv.bench = .clockFault → shows .dark .dark .slow)
             ∧ (s.psv.bench = .matrixFault → shows .dark .dark .fast))))
  ∧ (∀ (s : State), acting s = true → lampsExact s →
       (s.psv.green.pattern = .slow ∨ s.psv.green.pattern = .fast →
         exec (.lampFlashToggle .green) s = .next { s with psv := { s.psv with
           green := { s.psv.green with lit := !s.psv.green.lit, since := s.tmb.fineTime } } })
       ∧ (s.psv.amber.pattern = .slow ∨ s.psv.amber.pattern = .fast →
         exec (.lampFlashToggle .amber) s = .next { s with psv := { s.psv with
           amber := { s.psv.amber with lit := !s.psv.amber.lit, since := s.tmb.fineTime } } })
       ∧ (s.psv.red.pattern = .slow ∨ s.psv.red.pattern = .fast →
         exec (.lampFlashToggle .red) s = .next { s with psv := { s.psv with
           red := { s.psv.red with lit := !s.psv.red.lit, since := s.tmb.fineTime } } })
       ∧ (∀ n, (lampOf s n).pattern = .dark ∨ (lampOf s n).pattern = .steady →
           exec (.lampFlashToggle n) s = .next s))

/-- The state after reset is a cold start into CONFIG with empty tables. That the part is new and what the registers
without a reset rule hold is the model's choice (logs 1, 2, 15, 17). What every step keeps holds after reset. -/
def Obligations.ResetIsAColdStartAndSound : Prop :=
  (let s := State.reset
   s.pending = [] ∧ s.power = .on ∧ s.psv.state = .config ∧ s.psv.jobMark = false ∧ s.psv.rig = RigValues.standby
     ∧ s.psv.snapshot = none ∧ s.psv.control = ⟨0, .done, 0, false, false⟩ ∧ s.psv.lineMode = .restart
     ∧ s.tmb.fineTime = 0 ∧ s.tmb.siteSeconds = 0 ∧ s.tmb.clockValid = true
     ∧ s.ssu.scan = .running ∧ s.ssu.position = .row 0 ∧ s.ssu.adopting = true
     ∧ s.vdu.quiet = true ∧ s.vdu.pumpEnable = false ∧ (∀ st, channelOf s st = ⟨.idle, 0, 0, none, false, 0⟩)
     ∧ s.wvc.climb = .held ∧ s.wvc.holds = 1 ∧ s.wvc.waveNumber = 0 ∧ s.wvc.dwell = 180000000
     ∧ (∀ st, recordOf s st = StationRecord.blank) ∧ (∀ st, readingOf s st = none)
     ∧ (∀ k, stackOf s k = [] ∧ s.ltr.openings[k] = []) ∧ s.ltr.feedMask = 0
     ∧ s.fds.line = [] ∧ s.fds.gate = .idle ∧ s.fds.flow = 0 ∧ (∀ slot, batchOf s slot = none)
     ∧ s.exc.edition = 0 ∧ s.exc.attn = 0 ∧ s.exc.attnMask = 0x3F ∧ s.exc.attnPace = 1 ∧ s.exc.attnLine = false
     ∧ s.window = [])
  ∧ (windowCanonical State.reset ∧ attnLineExact State.reset ∧ pumpExact State.reset ∧ queuesSound State.reset
       ∧ recordsSound State.reset ∧ stacksSound State.reset ∧ lineSound State.reset ∧ paceSound State.reset
       ∧ lampsExact State.reset)

/-- Every step keeps the window's bytes in their one canonical form (log 2). Every step keeps the ATTN line asserted
exactly when a source is set whose mask bit is clear. -/
def Obligations.StepKeepsTheWindowAndTheAttnLine : Prop :=
  (∀ s t : State, windowCanonical s → step s = .next t → windowCanonical t)
  ∧ (∀ s t : State, attnLineExact s → step s = .next t → attnLineExact t)

/-- Every step keeps the pump enable asserted exactly while a channel is OPENING or OPEN. -/
def Obligations.StepKeepsThePumpEnableExact : Prop :=
  ∀ s t : State, pumpExact s → step s = .next t → pumpExact t

/-- Every step keeps each edge queue at 4 records at most, and each closed window's queue empty and its overflow flag
clear. -/
def Obligations.StepKeepsTheEdgeQueuesSound : Prop :=
  ∀ s t : State, queuesSound s → step s = .next t → queuesSound t

/-- Every step keeps marks at 3 at most, every station with 3 marks BARRED, and every count at 65,535 at most. -/
def Obligations.StepKeepsTheStationRecordsSound : Prop :=
  ∀ s t : State, recordsSound s → step s = .next t → recordsSound t

/-- Every step keeps each stack at 10 layers at most, with room for the new layer of a plan, and each opening list at
2 openings at most. Every step keeps the feed line at 4 batches at most, and the pace and the postscaler count within
16. -/
def Obligations.StepKeepsStacksLineAndPaceSound : Prop :=
  (∀ s t : State, stacksSound s → step s = .next t → stacksSound t)
  ∧ (∀ s t : State, lineSound s ∧ paceSound s → step s = .next t → lineSound t ∧ paceSound t)

/-- Every step keeps the lamps showing the patterns of the state they show. -/
def Obligations.StepKeepsTheLampsExact : Prop :=
  ∀ s t : State, lampsExact s → step s = .next t → lampsExact t

/-- A block's own commands change what that block keeps, the messages and the lamps, and nothing else; the Feed
Distributor's may also change the Layer Tracker's last answer (a field of the model, log 13) and the sector events set
with it, and the Exchange Controller's the window. -/
def Obligations.BlocksChangeTheirOwnStateAlone : Prop :=
  ∀ (s : State) (c : Instr), acting s = true →
    (Instr.isStroke c = true → ∃ u, leadsTo c s u ∧ u = { s with ssu := u.ssu, mail := u.mail })
    ∧ (Instr.isValve c = true → ∃ u, leadsTo c s u ∧ u = { s with vdu := u.vdu, mail := u.mail })
    ∧ (Instr.isWave c = true → ∃ u, leadsTo c s u ∧ u = { s with wvc := u.wvc, mail := u.mail })
    ∧ (Instr.isLevel c = true → ∃ u, leadsTo c s u ∧ u = { s with lbp := u.lbp, mail := u.mail })
    ∧ (Instr.isLayer c = true → ∃ u, leadsTo c s u ∧ u = { s with ltr := u.ltr, mail := u.mail })
    ∧ (Instr.isFeed c = true → ∃ u, leadsTo c s u ∧ u = { s with
        ltr := { s.ltr with lastView := u.ltr.lastView, events := u.ltr.events }, fds := u.fds, mail := u.mail })
    ∧ (Instr.isExchange c = true → ∃ u, leadsTo c s u ∧ u = { s with exc := u.exc, window := u.window, mail := u.mail })

/-- START in CONFIG with a Rig Page that passes: the part enters RUN and every block is told, in the model's order
(log 82); the page's values come into force, and where they change the fitted mask the poller starts its rounds anew
and forgets the stations no longer fitted; the first START of a job sets the job mark, the snapshot and the Jack
Table, every trim in force being 0 then, whatever was accepted before it (log 64). -/
def Obligations.StartOnAPageThatPasses : Prop :=
  ∀ s : State, acting s = true → s.psv.control.waiting = false → s.psv.state = .config →
    badRigField (rigPage s.window) = none →
    (s.psv.jobMark = true → ∀ old, s.psv.snapshot = some old → changedField old (rigPage s.window) = none) →
    ∃ t, exec .start s = .next t
      ∧ t.psv.state = .run ∧ t.psv.control = ⟨1, .done, 0, false, false⟩ ∧ t.psv.rigCheck = none
      ∧ t.psv.rig = rigPage s.window ∧ t.psv.jobMark = true
      ∧ (s.psv.jobMark = false →
          t.psv.snapshot = some (snapshotOf (rigPage s.window))
          ∧ (∀ st, recordOf t st =
              ⟨if fittedIn (rigPage s.window).fitted st then .active else .absent, 0, 0, 0, false, none, 0, none⟩)
          ∧ t.wvc = { s.wvc with table := t.wvc.table, waveNumber := 0, values := { s.wvc.values with trims := t.wvc.values.trims } }
          ∧ (∀ st : Station, t.wvc.values.trims[st] = 0)
          ∧ t.mail = s.mail ++ .countsChanged :: noticed.map fun b => .partStateNotice b .run)
      ∧ (s.psv.jobMark = true → t.psv.snapshot = s.psv.snapshot ∧ t.wvc = s.wvc
          ∧ t.mail = s.mail ++ noticed.map fun b => .partStateNotice b .run)
      ∧ (s.psv.rig.fitted = (rigPage s.window).fitted → t.lbp = s.lbp)
      ∧ (s.psv.rig.fitted ≠ (rigPage s.window).fitted →
          t.lbp = { s.lbp with pollPosition := none, readings := t.lbp.readings, missRuns := t.lbp.missRuns
                               episodes := t.lbp.episodes }
          ∧ ∀ st : Station,
            (fittedIn (rigPage s.window).fitted st = true → readingOf t st = readingOf s st
              ∧ t.lbp.missRuns[st] = s.lbp.missRuns[st] ∧ t.lbp.episodes[st] = s.lbp.episodes[st])
            ∧ (fittedIn (rigPage s.window).fitted st = false → readingOf t st = none ∧ t.lbp.missRuns[st] = 0
              ∧ t.lbp.episodes[st] = false))
      ∧ t.pending = s.pending ∧ t.tmb = s.tmb ∧ t.ssu = s.ssu ∧ t.vdu = s.vdu ∧ t.ltr = s.ltr ∧ t.fds = s.fds ∧ t.exc = s.exc
      ∧ t.window = s.window ∧ t.psv.lineMode = s.psv.lineMode

/-- START in CONFIG with a page that fails: RIG_INVALID at the first failing field, or, within a job, RIG_CHANGED at
the first changed geometry field; nothing but CONTROL and the rig check changes. The Rig Page by its layout: field 1
is the word at 0000h for stations 0 to 31 and the one at 0004h for stations 32 to 63, field f the word at 4f for 2 to
24, the area of sector k the word at 0080h + 4k, and the four limits of mix class c those from 00C0h + 16c. The field
a Rig Page is turned away at fails its check, and every field of a lower number passes. The checks of the Rig Page by
value: the range and the cross-checks of fields 1 to 24, the areas of the used sectors and the four limits of each mix
class, in ascending field number. A page passes exactly when every field does, and is turned away at its first failing
field; within a job the geometry fields are compared with the snapshot in the same way. -/
def Obligations.StartOnAPageThatFailsNamesTheField : Prop :=
  (∀ s : State, acting s = true → s.psv.control.waiting = false → s.psv.state = .config →
     (∀ f, badRigField (rigPage s.window) = some f →
       leadsTo .start s { s with psv := { s.psv with
         rigCheck := some (.rigInvalid, f), control := ⟨1, .rigInvalid, f, false, s.psv.control.dropped⟩ } })
     ∧ (∀ f old, badRigField (rigPage s.window) = none → s.psv.jobMark = true → s.psv.snapshot = some old →
       changedField old (rigPage s.window) = some f →
       leadsTo .start s { s with psv := { s.psv with
         rigCheck := some (.rigChanged, f), control := ⟨1, .rigChanged, f, false, s.psv.control.dropped⟩ } }))
  ∧ (∀ m : Memory,
       let v := rigPage m
       let word (offset : Nat) : Nat := (readWord m offset).toNat
       (∀ st : Station, v.fitted.getLsbD st.1 = (readWord m (4 * (st.1 / 32))).getLsbD (st.1 % 32))
       ∧ [v.strokeLength, v.formHeight, v.targetFill, v.maxFill, v.minLayer, v.levelBand, v.minActive, v.driveTimeout,
           v.settleTimeout, v.strayLimit, v.rowTime, v.debounceScans, v.riseRamp, v.onLevel, v.fallRamp, v.restLevel,
           v.probeTolerance, v.freshnessLimit, v.probeSettle, v.recoveryWindow, v.mergeWindow, v.maxPortion,
           v.publishInterval]
         = [word 0x08, word 0x0C, word 0x10, word 0x14, word 0x18, word 0x1C, word 0x20, word 0x24, word 0x28, word 0x2C,
           word 0x30, word 0x34, word 0x38, word 0x3C, word 0x40, word 0x44, word 0x48, word 0x4C, word 0x50, word 0x54,
           word 0x58, word 0x5C, word 0x60]
       ∧ (∀ k : Sector, v.areas[k] = word (0x80 + 4 * k.1))
       ∧ ∀ c : MixClass, v.mixes[c] = ⟨word (0xC0 + 16 * c.1), word (0xC4 + 16 * c.1), word (0xC8 + 16 * c.1),
           word (0xCC + 16 * c.1)⟩)
  ∧ (∀ (v : RigValues) (f : Nat), badRigField v = some f →
       (f, false) ∈ rigChecks v ∧ ∀ g b, (g, b) ∈ rigChecks v → g < f → b = true)
  ∧ (∀ (v : RigValues) (old : Snapshot),
       let fittedOf (mask : BitVec 64) (k : Sector) : List Station :=
         allStations.filter fun st => decide (st.1 / 4 = k.1) && mask.getLsbD st.1
       let first (fields : List (Nat × Prop)) (found : Option Nat) : Prop :=
         (found = none ↔ ∀ c ∈ fields, c.2)
         ∧ ∀ f, found = some f ↔ ∃ p, (f, p) ∈ fields ∧ ¬p ∧ ∀ c ∈ fields, c.1 < f → c.2
       let rangeOf (low high x : Nat) : Prop := low ≤ x ∧ x ≤ high
       let plain : List (Nat × Prop) :=
         [(1, v.fitted ≠ 0), (2, rangeOf 20 50 v.strokeLength), (3, rangeOf 900 1500 v.formHeight),
          (4, rangeOf 50 400 v.targetFill), (5, v.targetFill + 50 ≤ v.maxFill ∧ v.maxFill + 100 ≤ v.formHeight),
          (6, rangeOf 50 300 v.minLayer), (7, rangeOf 1 4 v.levelBand),
          (8, rangeOf 1 4 v.minActive ∧
            ∀ k : Sector, fittedOf v.fitted k ≠ [] → v.minActive ≤ (fittedOf v.fitted k).length),
          (9, rangeOf 2 30 v.driveTimeout), (10, rangeOf 2 30 v.settleTimeout), (11, rangeOf 1 15 v.strayLimit),
          (12, rangeOf 1 4 v.rowTime), (13, rangeOf 1 8 v.debounceScans),
          (14, v.riseRamp ≤ 2000 ∧ v.riseRamp % 10 = 0), (15, rangeOf 1 255 v.onLevel),
          (16, v.fallRamp ≤ 2000 ∧ v.fallRamp % 10 = 0), (17, v.restLevel ≤ 64 ∧ v.restLevel < v.onLevel),
          (18, rangeOf 2 50 v.probeTolerance), (19, rangeOf 1 30 v.freshnessLimit), (20, rangeOf 2 60 v.probeSettle),
          (21, rangeOf 10 300 v.recoveryWindow ∧ v.probeSettle < v.recoveryWindow), (22, v.mergeWindow ≤ 1800),
          (23, rangeOf 50 2000 v.maxPortion), (24, rangeOf 1 10 v.publishInterval)]
       let areas : List (Nat × Prop) := allSectors.map fun k =>
         (32 + k.1, fittedOf v.fitted k ≠ [] → rangeOf 5 200 v.areas[k])
       let limits : List (Nat × Prop) := (List.finRange 4).flatMap fun c =>
         [(48 + 4 * c.1, rangeOf 600 43200 (v.mixes[c]).minExit),
          (49 + 4 * c.1, 60 ≤ (v.mixes[c]).warnOpen ∧ (v.mixes[c]).warnOpen < (v.mixes[c]).maxOpen),
          (50 + 4 * c.1, rangeOf 300 14400 (v.mixes[c]).maxOpen),
          (51 + 4 * c.1, rangeOf 600 14400 (v.mixes[c]).maxPlacement)]
       let geometry : List (Nat × Prop) :=
         [(1, v.fitted = old.fitted), (2, v.strokeLength = old.strokeLength), (3, v.formHeight = old.formHeight)]
         ++ allSectors.map fun k => (32 + k.1, fittedOf old.fitted k ≠ [] → v.areas[k] = old.areas[k])
       first (plain ++ areas ++ limits) (badRigField v) ∧ first geometry (changedField old v))

/-- STOP in RUN: DONE, the part enters STOPPING and tells every block, in the model's order (log 82), and the Wave
Controller and the Feed Distributor are told to stop. START and CLEAR outside CONFIG, and STOP outside RUN, are BUSY
in STOPPING and WRONG_STATE elsewhere, and change nothing but CONTROL. -/
def Obligations.StopInRunAndCommandsInTheWrongState : Prop :=
  (∀ s : State, acting s = true → s.psv.control.waiting = false → s.psv.state = .run →
     leadsTo .stop s { s with
       mail := s.mail ++ (noticed.map fun b => .partStateNotice b .stopping) ++ [.waveStop, .feedStop]
       psv := { s.psv with state := .stopping, waveEnded := false, feedStopped := false
                           control := ⟨2, .done, 0, false, false⟩ } })
  ∧ (∀ s : State, acting s = true → s.psv.control.waiting = false →
       let turned (code : Byte) : State := { s with psv := { s.psv with control :=
         ⟨code, if s.psv.state = .stopping then .busy else .wrongState, 0, false, s.psv.control.dropped⟩ } }
       (s.psv.state ≠ .config → leadsTo .start s (turned 1) ∧ leadsTo .clear s (turned 3))
       ∧ (s.psv.state ≠ .run → leadsTo .stop s (turned 2)))

/-- CLEAR in CONFIG: PENDING, the job mark is cleared, and every block is told to clear, the Exchange Controller last.
CLEAR_NOTICE at each block but the Exchange Controller sets what the block's chapter names and reports back, unless
the part is HALTED; that the Wave Controller sends no counts-changed notice is the model's choice (log 80).
CLEAR_NOTICE at the Exchange Controller frees every slot: its state, outcome and report words and the words no layout
names are 0, its request words stay; it empties what it retains of the directive and the misuse and publishes, at once
or behind a publication in progress (the model's choice, log 87). The publication's end is reported. CLEAR_DONE of the
last block makes the CLEAR DONE. In HALTED a CLEAR is abandoned. -/
def Obligations.ClearEmptiesThePartBlockByBlock : Prop :=
  (∀ s : State, acting s = true → s.psv.control.waiting = false → s.psv.state = .config →
     leadsTo .clear s { s with
       mail := s.mail ++ [.clearNotice .wvc, .clearNotice .ltr, .clearNotice .fds, .clearNotice .lbp, .clearNotice .ssu,
         .clearNotice .vdu, .clearNotice .tmb, .clearNotice .psv, .clearNotice .exc]
       exc := { s.exc with clearStage := .begun }
       psv := { s.psv with jobMark := false, clearing := [.wvc, .ltr, .fds, .lbp, .ssu, .vdu, .tmb, .psv, .exc]
                           control := ⟨3, .waiting, 0, true, false⟩ } })
  ∧ (∀ s : State, acting s = true → s.psv.state ≠ .halted →
       let done (b : Block) (u : State) : Prop :=
         ∃ x, leadsTo (.clearNotice b) s { u with mail := x } ∧ x = (s.mail.erase (.clearNotice b)) ++ [.clearDone b]
       done .wvc { s with wvc := Wvc.cold s.wvc.view }
       ∧ done .ltr { s with ltr := Ltr.cold s.ltr.view }
       ∧ done .fds { s with fds := Fds.cold s.fds.view }
       ∧ done .lbp { s with lbp := { s.lbp with
           readings := Vector.replicate 64 none, missRuns := Vector.replicate 64 0, episodes := Vector.replicate 64 false
           probeBus := false } }
       ∧ (∃ u, done .ssu { s with ssu := u } ∧ u = { s.ssu with stations := u.stations }
           ∧ ∀ st : Station, u.stations[st] = { ssuOf s st with strays := 0 })
       ∧ (pumpExact s → ∃ u, done .vdu { s with vdu := u } ∧ u = { s.vdu with channels := u.channels }
           ∧ ∀ st : Station, u.channels[st] = { channelOf s st with coilFault := false, testRun := 0 })
       ∧ done .tmb { s with tmb := { s.tmb with clockLost := false, clockValid := true } }
       ∧ done .psv { s with psv := { s.psv with snapshot := none, rig := RigValues.standby, repeatedOutage := false
                                                lastRecoveryEnd := none, rigCheck := none } })
  ∧ (∀ s : State, acting s = true →
       let c : Instr := .clearNotice .exc
       let edition : Word := if s.exc.statusEdition = 0xFFFFFFFF#32 then 1 else s.exc.statusEdition + 1
       (s.psv.state ≠ .halted → ∃ u, leadsTo c s u ∧ u = { took c s with exc := u.exc, window := u.window, mail := u.mail }
         ∧ exchangeEmptied s u
         ∧ (s.exc.publication = none → u.exc.clearStage = .publishing ∧ publicationBegun s u
             ∧ u.mail = (s.mail.erase c) ++ [.publicationEnd])
         ∧ (s.exc.publication ≠ none → u.exc.clearStage = .waiting ∧ u.exc.publication = s.exc.publication
             ∧ u.mail = s.mail.erase c))
       ∧ (s.psv.state = .halted → ∀ b, leadsTo (.clearNotice b) s (took (.clearNotice b) s))
       ∧ (∀ e, s.exc.publication = some e → s.exc.clearStage = .publishing → s.exc.deferred = false →
           ∃ u, leadsTo .publicationEnd s u ∧ u.exc.clearStage = .none ∧ .clearDone .exc ∈ u.mail)
       ∧ (∀ e, s.exc.publication = some e → s.exc.clearStage = .waiting →
           ∃ u, leadsTo .publicationEnd s u ∧ u.exc.clearStage = .publishing ∧ u.exc.publication = some edition)
       ∧ (∀ b : Block, s.psv.clearing.erase b ≠ [] → leadsTo (.clearDone b) s { took (.clearDone b) s with
           psv := { s.psv with clearing := s.psv.clearing.erase b } })
       ∧ (∀ b : Block, s.psv.clearing ≠ [] → s.psv.clearing.erase b = [] → leadsTo (.clearDone b) s { took (.clearDone b) s with
           psv := { s.psv with clearing := [], control := { s.psv.control with outcome := .done, waiting := false } } })
       ∧ (∀ b : Block, s.psv.clearing = [] → leadsTo (.clearDone b) s (took (.clearDone b) s)))

/-- A line mode command sets the line reset mode in every part state; a code the table does not list is UNKNOWN and
changes nothing but CONTROL. A command written while one is PENDING is dropped: CONTROL's DROPPED flag is set and
nothing else changes. -/
def Obligations.ControlAnswersLineModesUnknownAndPending : Prop :=
  (∀ s : State, acting s = true → s.psv.control.waiting = false →
     leadsTo .lineModeRestart s { s with psv := { s.psv with lineMode := .restart, control := ⟨5, .done, 0, false, false⟩ } }
     ∧ leadsTo .lineModeHold s { s with psv := { s.psv with lineMode := .hold, control := ⟨6, .done, 0, false, false⟩ } }
     ∧ ∀ code, leadsTo (.unknownCommand code) s { s with psv := { s.psv with
         control := ⟨code, .unknown, 0, false, s.psv.control.dropped⟩ } })
  ∧ (∀ (s : State) (code : Byte), acting s = true → s.psv.control.waiting = true →
       ∀ c ∈ [Instr.start, .stop, .clear, .reset, .lineModeRestart, .lineModeHold, .unknownCommand code],
         leadsTo c s { s with psv := { s.psv with control := { s.psv.control with dropped := true } } })

/-- RESET while no power-down actions go on: the part is reset and released at once (`resetNow`), by the level of the
test strap that this release finds, a free value, a fresh one at each RESET (log 15). Of every reset part whose store
can be read: it enters BENCH, its self-check begun, with the test strap high, else, with the job mark set, RECOVERY if
a station is ACTIVE and RUN if none is, else CONFIG with empty tables. Where the store still fails the part enters
HALTED: out of HALTED as a free value has it, whichever it is (log 75), elsewhere where a failure stands noted. In
ACTIONS the command stays PENDING, a line reset that waits going before it. The Wave Controller comes out HELD, its
dwell at its end, with no permission asked for and no station in a wave. A wave in flight is settled by the edge
queues and its deferred RETIREs are carried out and answered DONE; a RETIRE that waits with no wave in flight is
carried out at the warm start and its DONE handed over. A warm start adds RESUME to the hold reasons and retires as
marked. A cold start leaves the tables empty, every slot FREE with its state, outcome and report words 0, no edition
retained or rejected, no misuse and no exchange event, and begins a publication. The table and the answers are said
where no slot write, placement or drain is on its way and no window of RECOVERY is open (log 16). That RUN is entered
at once, the outcome PENDING and the failure noted are the model's (logs 39, 44, 60). A reset that waits in ACTIONS
takes effect when the last report completes the actions, no message that a reset lets arrive first being on its way
(logs 39, 41): the RESET command as RESET does at once; a line reset holds the part, and lets it go at once, by the
strap found then, where the line has been released meanwhile (the model's choice, log 91). -/
def Obligations.ResetCommandResetsThePart : Prop :=
  (∀ s : State, acting s = true →
     (s.psv.control.waiting = false →
       (inActions s = false → leadsTo .reset s (resetNow s))
       ∧ (inActions s = true → (∀ r, s.psv.deferredReset ≠ some (.line r)) →
           leadsTo .reset s { s with psv := { s.psv with
             deferredReset := some .command, control := ⟨4, .waiting, 0, true, false⟩ } })
       ∧ (∀ r, inActions s = true → s.psv.deferredReset = some (.line r) →
           leadsTo .reset s { s with psv := { s.psv with control := ⟨4, .waiting, 0, true, false⟩ } }))
     ∧ (let t := resetNow s
       let high := Config.strapHighAtReset s.resetReads
       let active (u : State) (st : Station) : Prop := (recordOf u st).service = .active
       let calm : Prop := settlingWaits s = false ∧ (inWave s = true →
         s.wvc.view ≠ .halted ∧ s.wvc.drains = [] ∧ s.wvc.recoveryWindows = [])
       let ended (st : Station) : StationRecord :=
         if inWave s = true then retiredRecord (settledRecord s st) else recordOf s st
       let answered : Prop := calm → inWave s = true → s.exc.view ≠ .halted → windowCanonical s →
         ∀ st slot, (recordOf s st).retirePending = some slot → t.exc.orderImages[slot] = .answered
           ∧ readWord t.window (orderBase slot) = 3 ∧ readWord t.window (orderBase slot + 0x14) = 1
           ∧ readWord t.window (orderBase slot + 0x18) = 0
       let fails (failure : StoreFailure) : Prop :=
         (s.psv.state = .halted ∧ Config.storeStillFails s.resetReads = true ∧ failure = .read)
           ∨ ((s.psv.state ≠ .halted ∨ Config.storeStillFails s.resetReads = false) ∧ s.storeFails = some failure)
       t.power = .on ∧ t.pending = s.pending ∧ t.strap = high ∧ t.tmb.fineTime = 0
       ∧ t.tmb.siteSeconds = s.tmb.siteSeconds
       ∧ t.psv.control = ⟨4, .done, 0, false, false⟩ ∧ t.psv.lineMode = s.psv.lineMode ∧ t.storeFails = none
       ∧ t.resetReads = s.resetReads + 1
       ∧ (∀ failure, fails failure → t.psv.state = .halted ∧ t.psv.haltCause = some failure
           ∧ t.psv.jobMark = s.psv.jobMark ∧ t.ssu.scan = .stopped ∧ t.wvc.climb = .held ∧ t.exc.attn = 0x20
           ∧ (calm → ∀ st, recordOf t st = ended st) ∧ answered)
       ∧ t.wvc.dwell = 180000000 ∧ t.wvc.permission = false ∧ (∀ st, itemOf t st = WaveItem.clear)
       ∧ ((∀ failure, ¬fails failure) →
         (high = true → t.psv.state = .bench ∧ t.psv.bench = .running ∧ t.psv.benchPhase = .lampTest 0
             ∧ t.psv.jobMark = s.psv.jobMark ∧ t.psv.rig = s.psv.rig
             ∧ (calm → ∀ st, recordOf t st = ended st) ∧ answered)
         ∧ (high = false → s.psv.jobMark = true → t.psv.jobMark = true ∧ t.psv.rig = s.psv.rig
             ∧ ((∃ st, active t st) → t.psv.state = .recovery
                 ∧ t.psv.recoveryTimer = some ⟨0, 1000 * s.psv.rig.recoveryWindow⟩)
             ∧ ((∀ st, ¬active t st) → t.psv.state = .run)
             ∧ t.wvc.holds.getLsbD 5 = true
             ∧ (calm → ∀ st, recordOf t st = retiredRecord (ended st)) ∧ answered
             ∧ (calm → inWave s = false → ∀ st slot, (recordOf s st).retirePending = some slot →
                 .orderOutcome slot (.outcome .done 0) ∈ t.mail))
         ∧ (high = false → s.psv.jobMark = false →
             t.psv.state = .config ∧ t.psv.jobMark = false ∧ t.psv.rig = RigValues.standby
             ∧ (∀ st, recordOf t st = StationRecord.blank) ∧ (∀ k, stackOf t k = []) ∧ t.fds.line = []
             ∧ t.fds.flow = 0 ∧ exchangeEmptied s t ∧ publicationBegun s t)
         ∧ t.ssu.scan = .running ∧ t.ssu.position = .row 0 ∧ t.ssu.adopting = true
         ∧ (∀ st, ssuOf t st = SsuStation.reset)
         ∧ t.vdu.quiet = true ∧ t.vdu.pumpEnable = false ∧ (∀ st, channelOf t st = ⟨.idle, 0, 0, none, false, 0⟩)
         ∧ t.wvc.climb = .held ∧ (∀ st, readingOf t st = none)
         ∧ t.exc.attn = 0 ∧ t.exc.attnMask = 0x3F ∧ t.exc.attnPace = 1 ∧ t.exc.attnLine = false)))
  ∧ (∀ s : State, acting s = true → inActions s = true → s.psv.dying = false →
       let done (c : Instr) (u : State) : Prop := settlingWaits u = false →
         let w : State := { u with psv := { s.psv with
           monitor := .wait, waveDone := true, feedDone := true
           goodTimer := if s.psv.supplyGood then some s.tmb.fineTime else none } }
         (s.psv.deferredReset = some .command → leadsTo c s (resetNow w))
         ∧ (s.psv.deferredReset = some (.line none) → ∃ t, exec c s = .next t ∧ leadsTo c s (assertReset .line w)
             ∧ t.power = .held .line)
         ∧ (∀ high, s.psv.deferredReset = some (.line (some high)) → leadsTo c s (release .line high (assertReset .line w)))
       (s.psv.feedDone = true → done .powerDownActionsDone (took .powerDownActionsDone s))
       ∧ (s.psv.waveDone = true → done .feedStopped (took .feedStopped s))
       ∧ (s.psv.deferredReset = some (.line none) → ∀ high, exec (.resetRelease high) s = .next { s with psv := { s.psv with
           deferredReset := some (.line (some high)) } })
       ∧ (s.psv.deferredReset ≠ some (.line none) → ∀ high, exec (.resetRelease high) s = .next s))

/-- OPEN_WINDOW on a closed window opens it with an empty queue and both notices armed; on an open one it takes the
kinds and the notice setting alone. In HALTED the windows stay closed (the model's choice, log 20). -/
def Obligations.OpenWindowOpensOrTakesOver : Prop :=
  ∀ (s : State) (st : Station) (kinds : WindowKinds) (notices : Bool), acting s = true →
    let c : Instr := .openWindow st kinds notices
    let u := ssuOf s st
    (s.ssu.view ≠ .halted → u.window = none →
      leadsTo c s (setSsu (took c s) st { u with window := some ⟨kinds, notices⟩, queue := [], overflow := false,
                                                 armedExtend := true, armedRetract := true }))
    ∧ (s.ssu.view ≠ .halted → u.window ≠ none →
      leadsTo c s (setSsu (took c s) st { u with window := some ⟨kinds, notices⟩ }))
    ∧ (s.ssu.view = .halted → leadsTo c s (took c s))

/-- CLOSE_WINDOW closes an open window, discards its queue, clears the overflow flag and disarms both notices; on a
closed window it has no effect. DRAIN_QUEUE is answered, in every part state and whether the window is open or closed,
with the records held and the overflow flag; the queue is then empty, the flag clear and both notices armed.
STRAY_RESET sets the stray count to 0 and touches nothing else. -/
def Obligations.WindowsCloseDrainAndForgetStrays : Prop :=
  (∀ (s : State) (st : Station), acting s = true →
     let c : Instr := .closeWindow st
     let u := ssuOf s st
     (u.window ≠ none →
       leadsTo c s (setSsu (took c s) st { u with window := none, queue := [], overflow := false,
                                                  armedExtend := false, armedRetract := false }))
     ∧ (u.window = none → leadsTo c s (took c s)))
  ∧ (∀ (s : State) (st : Station), acting s = true →
       let u := ssuOf s st
       leadsTo (.drainQueue st) s (send (.drainAnswer st u.queue u.overflow) (setSsu (took (.drainQueue st) s) st
           { u with queue := [], overflow := false, armedExtend := true, armedRetract := true }))
       ∧ leadsTo (.strayReset st) s (setSsu (took (.strayReset st) s) st { u with strays := 0 }))

/-- ROW_READ in a scan that adopts: every station of the row takes the raw level read, with no edge and no message;
the row moves on, and after row 7 adoption is over and the row time in force is taken. While the scan is stopped a
read has no effect. ROW_READ in a scan that has adopted: each of the eight stations of the row is read by the debounce
rule and its edge, if one is accepted, disposed of, each by itself; the messages follow one another in ascending
column (the model's choice, log 47). The scan goes on to the next row, taking the row time in force after row 7; one
that a warning is ending stops, the runs being abandoned. In the bench matrix pass too the stations are read so: row 7
of the scan in progress at its start begins the first of the sixteen (the model's choice, log 21), and row 7 of each
of these leaves every row undriven for the idle read (O32). -/
def Obligations.RowReadAdoptsTheRow : Prop :=
  (∀ (s : State) (columns : Byte), acting s = true →
     (s.ssu.scan = .stopped → leadsTo (.rowRead columns) s s)
     ∧ (∀ row : Fin 8, s.ssu.scan ≠ .stopped → s.ssu.position = .row row → s.ssu.adopting = true →
         let left (u : SsuStation) : SsuStation := if s.ssu.scan = .ending then { u with run := 0 } else u
         let phase : BenchPhase := match s.psv.benchPhase with
           | .matrixPass false reads last => .matrixPass (decide (row.1 = 7)) reads last
           | p => p
         let next : ScanPosition := match s.psv.benchPhase with
           | .matrixPass true _ _ => .idle
           | _ => .row 0
         ∃ u, leadsTo (.rowRead columns) s u
           ∧ u = { s with ssu := u.ssu, psv := { s.psv with benchPhase := phase } }
           ∧ (∀ column : Fin 8, ssuOf u (crossing row column) =
               { ssuOf s (crossing row column) with
                 level := if columns.getLsbD column.1 then .closed else .opened, run := 0 })
           ∧ (∀ st : Station, st.1 / 8 ≠ row.1 → ssuOf u st = left (ssuOf s st))
           ∧ u.ssu.scan = (if s.ssu.scan = .ending then .stopped else .running) ∧ u.ssu.view = s.ssu.view
           ∧ (∀ h : row.1 + 1 < 8, u.ssu.position = .row ⟨row.1 + 1, h⟩ ∧ u.ssu.adopting = true
               ∧ u.ssu.rowTime = s.ssu.rowTime)
           ∧ (row.1 = 7 → u.ssu.position = next ∧ u.ssu.adopting = false
               ∧ u.ssu.rowTime = s.psv.rig.rowTime)))
  ∧ (∀ (s : State) (columns : Byte) (row : Fin 8), acting s = true → s.ssu.scan ≠ .stopped → s.ssu.position = .row row →
       s.ssu.adopting = false →
       let found (column : Fin 8) : SsuStation × Option EdgeRecord :=
         (ssuOf s (crossing row column)).read s.psv.rig.debounceScans
           (if columns.getLsbD column.1 then .closed else .opened) s.tmb.fineTime
       let alone (column : Fin 8) : State :=
         let t := setSsu { s with mail := [] } (crossing row column) (found column).1
         match (found column).2 with
         | none => t
         | some e => disposeEdge (crossing row column) e t
       let left (u : SsuStation) : SsuStation := if s.ssu.scan = .ending then { u with run := 0 } else u
       let phase : BenchPhase := match s.psv.benchPhase with
         | .matrixPass false reads last => .matrixPass (decide (row.1 = 7)) reads last
         | p => p
       let next : ScanPosition := match s.psv.benchPhase with
         | .matrixPass true _ _ => .idle
         | _ => .row 0
       ∃ u, leadsTo (.rowRead columns) s u
         ∧ u = { s with ssu := u.ssu, psv := { s.psv with benchPhase := phase }, mail := u.mail }
         ∧ (∀ column, ssuOf u (crossing row column) = left (ssuOf (alone column) (crossing row column)))
         ∧ (∀ st : Station, st.1 / 8 ≠ row.1 → ssuOf u st = left (ssuOf s st))
         ∧ u.mail = s.mail ++ ((List.finRange 8).flatMap fun column => (alone column).mail)
         ∧ u.ssu.scan = (if s.ssu.scan = .ending then .stopped else .running) ∧ u.ssu.view = s.ssu.view
         ∧ u.ssu.adopting = false
         ∧ (∀ h : row.1 + 1 < 8, u.ssu.position = .row ⟨row.1 + 1, h⟩ ∧ u.ssu.rowTime = s.ssu.rowTime)
         ∧ (row.1 = 7 → u.ssu.position = next ∧ u.ssu.rowTime = s.psv.rig.rowTime))

/-- A read compared with the debounced level: an equal one ends the run; one that differs lengthens it, its first time
being kept; a run that reaches the debounce scans makes the level accepted, with an edge of the run's first time,
EXTEND to CLOSED and RETRACT to OPEN. The disposition of an edge: discarded for a station not fitted; offered to the
queue where its window accepts the kind, and notified once for its kind; else a stray in RUN, STOPPING and RECOVERY,
with a mark request at the stray limit, and discarded in the other part states, POWER_DOWN among them (log 49). -/
def Obligations.ReadsAreDebouncedAndEdgesDisposedOf : Prop :=
  (∀ (u : SsuStation) (scans : Nat) (raw : SwitchLevel) (at_ : Word),
     let first := if u.run = 0 then at_ else u.runFirst
     (raw = u.level → u.read scans raw at_ = ({ u with run := 0 }, none))
     ∧ (raw ≠ u.level → u.run + 1 < scans → u.read scans raw at_ = ({ u with run := u.run + 1, runFirst := first }, none))
     ∧ (raw ≠ u.level → scans ≤ u.run + 1 → raw = .closed →
         u.read scans raw at_ = ({ u with level := .closed, run := 0, runFirst := first }, some ⟨.extend, first⟩))
     ∧ (raw ≠ u.level → scans ≤ u.run + 1 → raw = .opened →
         u.read scans raw at_ = ({ u with level := .opened, run := 0, runFirst := first }, some ⟨.retract, first⟩)))
  ∧ (∀ (s : State) (st : Station) (e : EdgeRecord),
       let u := ssuOf s st
       let strays : Prop := s.psv.state = .run ∨ s.psv.state = .stopping ∨ s.psv.state = .recovery
       let refused : Prop := ∀ w, u.window = some w → accepts w.kinds e.kind = false
       (s.psv.rig.fitted.getLsbD st.1 = false → disposeEdge st e s = s)
       ∧ (s.psv.rig.fitted.getLsbD st.1 = true →
           (∀ w, u.window = some w → accepts w.kinds e.kind = true →
             (u.overflow = true → disposeEdge st e s = s)
             ∧ (u.overflow = false → 4 ≤ u.queue.length → disposeEdge st e s = setSsu s st { u with overflow := true })
             ∧ (u.overflow = false → u.queue.length < 4 → (w.notices = false ∨ u.armed e.kind = false) →
                 disposeEdge st e s = setSsu s st { u with queue := u.queue ++ [e] })
             ∧ (u.overflow = false → u.queue.length < 4 → w.notices = true → u.armed e.kind = true →
                 disposeEdge st e s = send (.firstOfKindNotice st e.kind e.time) (setSsu s st
                   { u with queue := u.queue ++ [e]
                            armedExtend := u.armedExtend && decide (e.kind ≠ .extend)
                            armedRetract := u.armedRetract && decide (e.kind ≠ .retract) })))
           ∧ (refused → ¬strays → disposeEdge st e s = s)
           ∧ (refused → strays → u.strays + 1 < s.psv.rig.strayLimit →
               disposeEdge st e s = setSsu s st { u with strays := u.strays + 1 })
           ∧ (refused → strays → s.psv.rig.strayLimit ≤ u.strays + 1 →
               disposeEdge st e s = send (.markRequest st .stray) (setSsu s st { u with strays := 0 }))))

/-- The unit takes OPEN, CLOSE and REST in RUN and STOPPING, for a fitted station whose coil-fault flag is clear, and
ignores them otherwise; it takes WAKE in RUN and STOPPING, by the state last noticed and by the part state as it
stands (log 62), and ignores it otherwise. REST sets a channel IDLE at the rest level, or 0 while the quiet flag is
set, and OFF, in every part state, IDLE at 0, whatever ramp was in progress. FAULT_RESET clears the coil-fault flag
and the coil test run and changes no level. WAKE clears the quiet flag and changes no level. That the coil test run is
0 at level 0 is log 45. -/
def Obligations.ValveCommandsAtOnceOrIgnored : Prop :=
  (∀ (s : State) (st : Station), acting s = true →
     (((s.vdu.view ≠ .run ∧ s.vdu.view ≠ .stopping) ∨ s.psv.rig.fitted.getLsbD st.1 = false
         ∨ (channelOf s st).coilFault = true) →
       leadsTo (.openValve st) s (took (.openValve st) s) ∧ leadsTo (.closeValve st) s (took (.closeValve st) s)
         ∧ leadsTo (.restValve st) s (took (.restValve st) s))
     ∧ ((s.vdu.view ≠ .run ∧ s.vdu.view ≠ .stopping) ∨ (s.psv.state ≠ .run ∧ s.psv.state ≠ .stopping) →
       leadsTo .wake s (took .wake s)))
  ∧ (∀ (s : State) (st : Station),
       let c := channelOf s st
       let target := if s.vdu.quiet then 0 else s.psv.rig.restLevel
       (takesCommands s st → leadsTo (.restValve st) s (setChannel (took (.restValve st) s) st
         { c with state := .idle, level := target, target := target, ramp := none
                  testRun := if target = 0 then 0 else c.testRun }))
       ∧ (acting s = true → leadsTo (.offValve st) s (setChannel (took (.offValve st) s) st
         { c with state := .idle, level := 0, target := 0, ramp := none, testRun := 0 }))
       ∧ (acting s = true → leadsTo (.faultReset st) s (setChannel (took (.faultReset st) s) st
         { c with coilFault := false, testRun := 0 }))
       ∧ (acting s = true → (s.vdu.view = .run ∨ s.vdu.view = .stopping) → (s.psv.state = .run ∨ s.psv.state = .stopping) →
         leadsTo .wake s { took .wake s with vdu := { s.vdu with quiet := false } }))

/-- OPEN: an IDLE or CLOSING channel rises from its present level to the on level, in OPENING, or is OPEN at once
where the duration is 0; an OPENING or OPEN one goes on unchanged. -/
def Obligations.OpenRaisesTheChannel : Prop :=
  ∀ (s : State) (st : Station), takesCommands s st →
    let c := channelOf s st
    let on := s.psv.rig.onLevel
    let a := c.present s.tmb.fineTime
    let d := s.psv.rig.riseRamp * (on - a) / on
    let t := took (.openValve st) s
    (pumpExact s → (c.state = .opening ∨ c.state = .opened) → leadsTo (.openValve st) s t)
    ∧ ((c.state = .idle ∨ c.state = .closing) → d ≠ 0 → leadsTo (.openValve st) s (setChannel t st
        { c with state := .opening, level := a, target := on, ramp := some ⟨a, s.tmb.fineTime, d⟩ }))
    ∧ ((c.state = .idle ∨ c.state = .closing) → d = 0 → leadsTo (.openValve st) s (setChannel t st
        { c with state := .opened, level := on, target := on, ramp := none, testRun := if on = 0 then 0 else c.testRun }))

/-- CLOSE: an OPEN channel, or an OPENING one whose present level is above the target, falls to the target, the rest
level or 0 while the quiet flag is set; an OPENING one at or below it stands at the target at once; an IDLE or CLOSING
one goes on unchanged. That the coil test run is 0 at level 0 is log 45. -/
def Obligations.CloseLowersTheChannel : Prop :=
  ∀ (s : State) (st : Station), takesCommands s st →
    let c := channelOf s st
    let target := if s.vdu.quiet then 0 else s.psv.rig.restLevel
    let a := c.present s.tmb.fineTime
    let d := s.psv.rig.fallRamp * (a - target) / s.psv.rig.onLevel
    let t := took (.closeValve st) s
    let stands : State := setChannel t st { c with
      state := .idle, level := target, target := target, ramp := none, testRun := if target = 0 then 0 else c.testRun }
    (pumpExact s → (c.state = .idle ∨ c.state = .closing) → leadsTo (.closeValve st) s t)
    ∧ (c.state = .opening → a ≤ target → leadsTo (.closeValve st) s stands)
    ∧ ((c.state = .opened ∨ (c.state = .opening ∧ target < a)) → d = 0 → leadsTo (.closeValve st) s stands)
    ∧ ((c.state = .opened ∨ (c.state = .opening ∧ target < a)) → d ≠ 0 → leadsTo (.closeValve st) s (setChannel t st
        { c with state := .closing, level := a, target := target, ramp := some ⟨a, s.tmb.fineTime, d⟩ }))

/-- RAMP_END: the present level becomes the target, a rising ramp leaving the channel OPEN and a falling one IDLE. On
the way the present level is the start level moved toward the target by the whole part of the distance times the
elapsed time over the duration, and never passes the target or falls behind the start; without a ramp it is the level
held. COIL_TEST: a test fails below a quarter of the current commanded; the first failure makes the run 1, a pass
makes it 0, and at the second in a row the coil-fault flag is set, the channel stands IDLE at 0 and the Wave
Controller is told. At level 0 nothing is tested and the run is 0. -/
def Obligations.RampsEndAndCoilsAreJudged : Prop :=
  ((∀ (s : State) (st : Station) (r : Ramp), acting s = true → (channelOf s st).ramp = some r →
     let c := channelOf s st
     leadsTo (.rampEnd st) s (setChannel s st { c with
       state := if c.state = .opening then .opened else .idle
       level := c.target, ramp := none, testRun := if c.target = 0 then 0 else c.testRun }))
   ∧ (∀ (c : Channel) (at_ : Word), c.ramp = none → c.present at_ = c.level)
   ∧ ∀ (c : Channel) (r : Ramp) (at_ : Word), c.ramp = some r →
       let elapsed := (at_ - r.start).toNat
       min r.level c.target ≤ c.present at_ ∧ c.present at_ ≤ max r.level c.target
       ∧ (r.duration ≤ elapsed → c.present at_ = c.target)
       ∧ (elapsed < r.duration → r.level ≤ c.target →
           c.present at_ = r.level + (c.target - r.level) * elapsed / r.duration)
       ∧ (elapsed < r.duration → c.target < r.level →
           c.present at_ = r.level - (r.level - c.target) * elapsed / r.duration))
  ∧ (∀ (s : State) (st : Station) (current : Nat), acting s = true →
       let c := channelOf s st
       let level := c.present s.tmb.fineTime
       (level = 0 → leadsTo (.coilTest st current) s (setChannel s st { c with testRun := 0 }))
       ∧ (0 < level → level ≤ 4 * current → leadsTo (.coilTest st current) s (setChannel s st { c with testRun := 0 }))
       ∧ (4 * current < level → c.testRun = 0 → leadsTo (.coilTest st current) s (setChannel s st { c with testRun := 1 }))
       ∧ (4 * current < level → c.testRun ≠ 0 → leadsTo (.coilTest st current) s (send (.coilFaultNotice st)
           (setChannel s st { c with state := .idle, level := 0, target := 0, ramp := none, coilFault := true, testRun := 0 }))))

/-- PART_STATE_NOTICE at the blocks of the field: outside RUN and STOPPING every valve channel stands IDLE at 0 (its
coil test run 0, log 45); the stroke scan stops in POWER_DOWN, with every run abandoned, unless its last row has still
to be read (log 19), and in HALTED, with every window closed, queue emptied and run abandoned (log 50); the poller
abandons its transaction where it does not poll. A notice that a warning or HALTED has overtaken changes no block (log
58), but the Valve Drive Unit takes one after a warning in its turn. PART_STATE_NOTICE at the other blocks, unless it
has been overtaken (log 58). At an entry into RUN the Wave Controller sends WAKE, unless RESUME is held, and REST for
every ACTIVE station in ascending order (the model's choice, log 78); at one into RECOVERY it opens the windows of the
ACTIVE stations for RETRACT without notices, in ascending order too; at one into HALTED the climb is HELD. The
exchange timers run in CONFIG, RUN, STOPPING and RECOVERY, being started where they are stopped (log 22), and stop
elsewhere, the mark of a deferred expiry and the batch candidates not handed over being dropped (the model's choice,
logs 81 and 88); an entry into HALTED sets FAULT. At an entry into RUN the Feed Distributor tries the arbiter. -/
def Obligations.PartStateNoticesSetEachBlock : Prop :=
  (∀ (s : State) (p : PartState), acting s = true →
     let vdu : Instr := .partStateNotice .vdu p
     let ssu : Instr := .partStateNotice .ssu p
     let lbp : Instr := .partStateNotice .lbp p
     let late (b : Block) : Prop := s.psv.state = .halted ∨ (s.psv.state = .powerDown ∧ p ≠ .powerDown ∧ b ≠ .vdu)
     (∀ b, late b → leadsTo (.partStateNotice b p) s (took (.partStateNotice b p) s))
     ∧ (¬late .vdu →
       ((p = .run ∨ p = .stopping) → leadsTo vdu s { took vdu s with vdu := { s.vdu with view := p } })
       ∧ (p ≠ .run → p ≠ .stopping → ∃ u, leadsTo vdu s u ∧ u = { took vdu s with vdu := u.vdu }
           ∧ u.vdu.view = p ∧ u.vdu.quiet = s.vdu.quiet ∧ u.vdu.pumpEnable = false
           ∧ ∀ st, channelOf u st =
               { channelOf s st with state := .idle, level := 0, target := 0, ramp := none, testRun := 0 }))
     ∧ (¬late .ssu →
       (p ≠ .powerDown → p ≠ .halted → leadsTo ssu s { took ssu s with ssu := { s.ssu with view := p } })
       ∧ (p = .powerDown → s.ssu.scan = .ending → leadsTo ssu s { took ssu s with ssu := { s.ssu with view := p } })
       ∧ (p = .powerDown → s.ssu.scan ≠ .ending → ∃ u, leadsTo ssu s u ∧ u = { took ssu s with ssu := u.ssu }
           ∧ u.ssu.view = p ∧ u.ssu.scan = .stopped ∧ ∀ st, ssuOf u st = { ssuOf s st with run := 0 })
       ∧ (p = .halted → ∃ u, leadsTo ssu s u ∧ u = { took ssu s with ssu := u.ssu } ∧ u.ssu.view = p
           ∧ u.ssu.scan = .stopped ∧ ∀ st, ssuOf u st = { ssuOf s st with
             window := none, queue := [], overflow := false, armedExtend := false, armedRetract := false, run := 0 })
       ∧ ((p = .config ∨ p = .run ∨ p = .stopping ∨ p = .recovery) →
           leadsTo lbp s { took lbp s with lbp := { s.lbp with view := p } })
       ∧ ((p = .bench ∨ p = .powerDown ∨ p = .halted) → leadsTo lbp s { took lbp s with lbp := { s.lbp with
           view := p, transaction := .idle, lastEnd := none, bus := [], incoming := none } })))
  ∧ (∀ (s : State) (p : PartState), acting s = true → s.psv.state ≠ .halted →
       (s.psv.state = .powerDown → p = .powerDown) →
       let wvc : Instr := .partStateNotice .wvc p
       let ltr : Instr := .partStateNotice .ltr p
       let fds : Instr := .partStateNotice .fds p
       let exc : Instr := .partStateNotice .exc p
       let active := allStations.filter fun st => decide ((recordOf s st).service = .active)
       (p = .run → leadsTo wvc s { took wvc s with
         wvc := { s.wvc with view := p }
         mail := (s.mail.erase wvc) ++ ((if s.wvc.holds.getLsbD 5 then [] else [.wake]) ++ active.map Instr.restValve) })
       ∧ (p = .recovery → leadsTo wvc s { took wvc s with
         wvc := { s.wvc with view := p, recoveryWindows := active }
         mail := (s.mail.erase wvc) ++ active.map fun st => .openWindow st .retractOnly false })
       ∧ (p = .halted → ∃ u, leadsTo wvc s u ∧ u.wvc.climb = .held ∧ u.wvc.view = .halted ∧ u.wvc.table = s.wvc.table
           ∧ u.wvc.driveTimer = none ∧ u.wvc.settleTimer = none ∧ u.wvc.fallTimer = none ∧ u.wvc.drains = []
           ∧ (s.wvc.climb = .held → u.mail = s.mail.erase wvc)
           ∧ (s.wvc.climb ≠ .held → u.mail = (s.mail.erase wvc) ++ [.attentionSetRequest .hold]))
       ∧ (p ≠ .run → p ≠ .recovery → p ≠ .halted → leadsTo wvc s { took wvc s with wvc := { s.wvc with view := p } })
       ∧ leadsTo ltr s { took ltr s with ltr := { s.ltr with view := p } }
       ∧ (p = .run → leadsTo fds s (tryArbiter { took fds s with fds := { s.fds with view := p } }))
       ∧ (p ≠ .run ∨ s.fds.line = [] → leadsTo fds s { took fds s with fds := { s.fds with view := p } })
       ∧ ((p = .config ∨ p = .run ∨ p = .stopping ∨ p = .recovery) → leadsTo exc s { took exc s with exc := { s.exc with
           view := p
           scanTimer := if s.exc.scanTimer = none then some s.tmb.fineTime else s.exc.scanTimer
           publishTimer := if s.exc.publishTimer = none then some ⟨s.tmb.fineTime, 1000 * s.psv.rig.publishInterval⟩
             else s.exc.publishTimer } })
       ∧ ((p = .bench ∨ p = .powerDown ∨ (p = .halted ∧ s.exc.view = .halted)) →
           leadsTo exc s { took exc s with exc := { s.exc with
             view := p, scanTimer := none, publishTimer := none, deferred := false, publication := none, candidates := []
             clearStage := .none } })
       ∧ (p = .halted → s.exc.view ≠ .halted → leadsTo exc s { took exc s with exc := { s.exc with
             view := p, scanTimer := none, publishTimer := none, deferred := false, publication := none, candidates := []
             clearStage := .none, attn := s.exc.attn ||| 0x20#6
             attnLine := decide ((s.exc.attn ||| 0x20#6) &&& ~~~s.exc.attnMask ≠ 0) } })
       ∧ leadsTo (.partStateNotice .tmb p) s (took (.partStateNotice .tmb p) s))

/-- SITE_SECOND_ADVANCE: the counter advances with or without power; while the part acts the saved word follows, and
the Wave Controller, the Layer Tracker and the Feed Distributor are told. SITE_SECOND_NOTICE: the Wave Controller
begins a hold evaluation in RUN while HELD, or in DWELL with the directive holding the climb, unless one has begun;
the Layer Tracker, but in BENCH, POWER_DOWN and HALTED, reports each used sector whose top layer is concrete, has reached
its class's limit of open age and is not yet reported: the layer's mark and COLD_JOINT are set, and EVENT is asked for
where COLD_JOINT was clear; the Feed Distributor tries the arbiter, as at a deficit notice. Each goes by
the state it was last told (log 9) and by the part state as it stands (log 62). -/
def Obligations.SiteSecondsAdvanceAndAreNoticed : Prop :=
  (∀ s : State,
     (acting s = false →
       exec .siteSecondAdvance s = .next { s with tmb := { s.tmb with siteSeconds := s.tmb.siteSeconds + 1 } })
     ∧ (acting s = true → s.psv.benchPhase ≠ .storePass → (∀ n k, s.psv.benchPhase ≠ .clockPass n k) →
         leadsTo .siteSecondAdvance s { s with
           tmb := { s.tmb with siteSeconds := s.tmb.siteSeconds + 1, savedWord := some (s.tmb.siteSeconds + 1) }
           mail := s.mail ++ [.siteSecondNotice .wvc, .siteSecondNotice .ltr, .siteSecondNotice .fds] }))
  ∧ (∀ s : State, acting s = true →
       let wvc : Instr := .siteSecondNotice .wvc
       let ltr : Instr := .siteSecondNotice .ltr
       let fds : Instr := .siteSecondNotice .fds
       let holding : Prop := s.wvc.values.runRequest = .hold ∨ s.wvc.values.riseRate = 0
       let evaluates : Prop := s.wvc.view = .run ∧ s.psv.state = .run
         ∧ (s.wvc.climb = .held ∨ (s.wvc.climb = .dwell ∧ holding))
       let still (p : PartState) : Prop := p = .bench ∨ p = .powerDown ∨ p = .halted
       let due (k : Sector) : Bool := used s k && match (stackOf s k).getLast?.map Layer.kind with
         | some (.concrete x) => !x.jointReported
             && decide ((s.psv.rig.mixes[x.mix]).maxOpen ≤ (s.tmb.siteSeconds - x.placed).toNat)
         | _ => false
       (evaluates → s.wvc.permission = false →
         leadsTo wvc s { took wvc s with
           wvc := { s.wvc with permission := true }, mail := (s.mail.erase wvc) ++ [.risePermissionRequest] })
       ∧ ((¬evaluates ∨ s.wvc.permission = true) → leadsTo wvc s (took wvc s))
       ∧ (¬still s.ltr.view → ¬still s.psv.state →
           ∃ u, leadsTo ltr s u ∧ u = { took ltr s with ltr := u.ltr, mail := u.mail }
             ∧ u.ltr = { s.ltr with stack := u.ltr.stack, events := u.ltr.events }
             ∧ (∀ k, (due k = true → ∃ below l x, stackOf s k = below ++ [l] ∧ l.kind = .concrete x
                   ∧ stackOf u k = below ++ [{ l with kind := .concrete { x with jointReported := true } }]
                   ∧ u.ltr.events[k] = s.ltr.events[k] ||| 1#4)
               ∧ (due k = false → stackOf u k = stackOf s k ∧ u.ltr.events[k] = s.ltr.events[k]))
             ∧ u.mail = (s.mail.erase ltr) ++ (allSectors.filter fun k => due k && !(s.ltr.events[k]).getLsbD 0).map
                 fun _ => .attentionSetRequest .event)
       ∧ ((still s.ltr.view ∨ still s.psv.state) → leadsTo ltr s (took ltr s))
       ∧ (s.fds.view ≠ .halted → leadsTo fds s (tryArbiter (took fds s))))

/-- The assertion of the reset line. In HOLD mode, in CONFIG, RUN, STOPPING and RECOVERY, the blocks are told and HOLD
is asked for, and the part goes on; POWER_DOWN ignores it. In RESTART mode, and in BENCH and HALTED, the part is held
in reset, its lamps dark, its registers reading as in reset (STATE as a free value, log 4), a gate record other than
IDLE in RUN or STOPPING taking its cut volume, and the climb HELD; with no wave in flight the table stays, a RETIRE
that waits among it, and with one in flight it is settled by the edge queues: an EXTEND queued before the DRIVE
judgement credits its station and the want of one puts it in doubt with DOUBT, a late stroke is credited after it, and
every deferred RETIRE is carried out and answered DONE (log 16 has what is on its way first); during the power-down
actions the reset waits for them. Both rows act by the line reset mode as it stands (the model's choice, log 14).
LINE_HOLD_NOTICE at the field blocks: every stray count becomes 0, but at a second assertion during the wind-down,
which changes nothing further (log 63); the quiet flag is set and each channel comes down to 0 from its present level,
at once if it is IDLE or the fall takes no time; one that an earlier hold has left falling to 0 goes on at a second
assertion during the wind-down alone (log 63), and at any other its ramp is replaced. LINE_HOLD_NOTICE at the Wave
Controller and the Feed Distributor: RESUME joins the hold reasons, a climb in DWELL is HELD and asks for HOLD, one in
DRIVE goes to SETTLE unless a warning is settling the wave already, the participants that have not reported being
noted, nobody being awaited, the DRIVE timer cancelled and the participants drained in ascending order (log 78), or
the timers of SETTLE begun at once where none is left; the feed is paused, and an open gate is cut, what has passed a
drop gate being placed and what has passed a waste gate being wasted. -/
def Obligations.LineResetHoldsThePartOrResetsIt : Prop :=
  (∀ (s : State), acting s = true → ∀ c ∈ [Instr.lineResetRestart, .lineResetHold],
     (s.psv.lineMode = .hold → s.psv.state ≠ .bench → s.psv.state ≠ .halted → s.psv.state ≠ .powerDown →
       leadsTo c s { s with mail := s.mail ++ [.lineHoldNotice .ssu, .lineHoldNotice .vdu, .lineHoldNotice .wvc,
         .lineHoldNotice .fds] ++ [.attentionSetRequest .hold] })
     ∧ (s.psv.lineMode = .hold → s.psv.state = .powerDown → leadsTo c s s)
     ∧ (s.psv.lineMode = .restart → inActions s = true →
         leadsTo c s { s with psv := { s.psv with deferredReset := some (.line none) } })
     ∧ ((s.psv.lineMode = .restart ∧ inActions s = false) ∨
         (s.psv.lineMode = .hold ∧ (s.psv.state = .bench ∨ s.psv.state = .halted)) →
         ∃ t, exec c s = .next t ∧ t.power = .held .line ∧ t.psv.jobMark = s.psv.jobMark ∧ t.psv.lineMode = s.psv.lineMode
           ∧ t.vdu.pumpEnable = false ∧ (∀ st, channelOf t st = ⟨.idle, 0, 0, none, false, 0⟩)
           ∧ t.psv.green.pattern = .dark ∧ t.psv.amber.pattern = .dark ∧ t.psv.red.pattern = .dark
           ∧ t.readPort 0x04 = some 0 ∧ t.readPort 0x08 = some Config.stateInReset ∧ t.readPort 0x0C = some 0
           ∧ t.readPort 0x10 = some 0x3F ∧ t.readPort 0x14 = some 1
           ∧ t.wvc.climb = .held ∧ t.wvc.dwell = 180000000 ∧ t.wvc.permission = false ∧ (∀ st, itemOf t st = WaveItem.clear)
           ∧ (settlingWaits s = false → inWave s = false → t.wvc.table = s.wvc.table)
           ∧ (settlingWaits s = false → inWave s = true → s.wvc.view ≠ .halted → s.wvc.drains = [] →
               s.wvc.recoveryWindows = [] →
             (∀ st, recordOf t st = retiredRecord (settledRecord s st))
             ∧ (s.exc.view ≠ .halted → windowCanonical s → ∀ st slot, (recordOf s st).retirePending = some slot →
                 t.exc.orderImages[slot] = .answered ∧ readWord t.window (orderBase slot) = 3
                 ∧ readWord t.window (orderBase slot + 0x14) = 1 ∧ readWord t.window (orderBase slot + 0x18) = 0))
           ∧ ((s.psv.state = .run ∨ s.psv.state = .stopping) → settlingWaits s = false →
               (inWave s = true → s.wvc.view ≠ .halted ∧ s.wvc.drains = [] ∧ s.wvc.recoveryWindows = []) →
             let ran (g : GateRun) : Bool :=
               decide ((g.closeAt - g.openedAt).toNat ≤ (s.tmb.fineTime - g.openedAt).toNat)
             let cut (g : GateRun) : GateRun :=
               let v : Nat := match g.cut, g.passed with
                 | some v, _ => v
                 | none, some v => v
                 | none, none => if ran g then g.volume
                   else min g.volume (g.flow * (s.tmb.fineTime - g.openedAt).toNat / 60000)
               { g with passed := some v, cut := some v }
             (inWave s = false → t.fds.records = s.fds.records)
             ∧ (∀ k g, s.fds.gate = .drop k g → t.fds.gate = .drop k (cut g))
             ∧ (∀ g cause, s.fds.gate = .waste g cause → t.fds.gate = .waste (cut g) cause)
             ∧ (s.fds.gate = .idle → t.fds.gate = .idle))))
  ∧ (∀ s : State, acting s = true →
       let ssu : Instr := .lineHoldNotice .ssu
       let vdu : Instr := .lineHoldNotice .vdu
       let windingDown : Prop := (s.wvc.climb = .drive ∨ s.wvc.climb = .settle) ∧ s.wvc.holds.getLsbD 5 = true
       (windingDown → leadsTo ssu s (took ssu s))
       ∧ (¬windingDown → ∃ u, leadsTo ssu s u ∧ u = { took ssu s with ssu := u.ssu } ∧ u.ssu.scan = s.ssu.scan
         ∧ u.ssu.position = s.ssu.position ∧ u.ssu.adopting = s.ssu.adopting ∧ u.ssu.rowTime = s.ssu.rowTime
         ∧ ∀ st, ssuOf u st = { ssuOf s st with strays := 0 })
       ∧ (∃ u, leadsTo vdu s u ∧ u = { took vdu s with vdu := u.vdu } ∧ u.vdu.quiet = true ∧ u.vdu.pumpEnable = false
         ∧ ∀ st,
           let c := channelOf s st
           let a := c.present s.tmb.fineTime
           let d := s.psv.rig.fallRamp * a / s.psv.rig.onLevel
           let falling : Prop := windingDown ∧ c.state = .closing ∧ s.vdu.quiet = true ∧ c.target = 0
           (falling → channelOf u st = c)
           ∧ (¬falling → (c.state = .idle ∨ d = 0) → channelOf u st =
             { c with state := .idle, level := 0, target := 0, ramp := none, testRun := 0 })
           ∧ (¬falling → c.state ≠ .idle → d ≠ 0 → channelOf u st =
             { c with state := .closing, level := a, target := 0, ramp := some ⟨a, s.tmb.fineTime, d⟩ })))
  ∧ (∀ s : State, acting s = true →
       let wvc : Instr := .lineHoldNotice .wvc
       let fds : Instr := .lineHoldNotice .fds
       let resumed : BitVec 6 := s.wvc.holds ||| 0x20#6
       let told : Bool := s.wvc.countsDirty && s.wvc.drains.all fun d => decide (d.purpose = .discard)
       let ran (g : GateRun) : Bool := decide ((g.closeAt - g.openedAt).toNat ≤ (s.tmb.fineTime - g.openedAt).toNat)
       (s.wvc.view ≠ .halted →
         (s.wvc.climb = .held ∨ s.wvc.climb = .settle → leadsTo wvc s { took wvc s with wvc := { s.wvc with holds := resumed } })
         ∧ (s.wvc.climb = .dwell → leadsTo wvc s { took wvc s with
             wvc := { s.wvc with holds := resumed, climb := .held }
             mail := (s.mail.erase wvc) ++ [.attentionSetRequest .hold] })
         ∧ (s.wvc.climb = .drive → s.wvc.ending ≠ none → leadsTo wvc s { took wvc s with wvc := { s.wvc with holds := resumed } })
         ∧ (s.wvc.climb = .drive → s.wvc.ending = none → ∃ u, leadsTo wvc s u
             ∧ u = { took wvc s with wvc := u.wvc, mail := u.mail }
             ∧ (∀ st, itemOf u st = { itemOf s st with
                 awaited := false, unreported := (itemOf s st).participant && (itemOf s st).awaited })
             ∧ (participants s ≠ [] →
               u.wvc = { s.wvc with
                 climb := .settle, holds := resumed, driveTimer := none, ending := some .driveEnd, wave := u.wvc.wave
                 drains := s.wvc.drains ++ (participants s).map fun st => (⟨st, .driveEnd⟩ : Drain) }
               ∧ u.mail = (s.mail.erase wvc) ++ (participants s).map Instr.drainQueue)
             ∧ (participants s = [] → (∀ d ∈ s.wvc.drains, d.purpose ≠ .driveEnd) →
               u.wvc = { s.wvc with
                 climb := .settle, holds := resumed, driveTimer := none, wave := u.wvc.wave
                 settleTimer := some ⟨s.tmb.fineTime, 1000 * s.psv.rig.settleTimeout⟩
                 fallTimer := some ⟨s.tmb.fineTime, s.psv.rig.fallRamp⟩
                 countsDirty := s.wvc.countsDirty && !told }
               ∧ u.mail = (s.mail.erase wvc) ++ if told = true then [.countsChanged] else [])))
       ∧ (s.fds.view ≠ .halted →
         (s.fds.gate = .idle → leadsTo fds s { took fds s with fds := { s.fds with paused := true } })
         ∧ (∀ k g, s.fds.gate = .drop k g → g.passed = none →
             let v := if ran g then g.volume else min g.volume (g.flow * (s.tmb.fineTime - g.openedAt).toNat / 60000)
             leadsTo fds s { took fds s with
               fds := { s.fds with paused := true, gate := .drop k { g with passed := some v, cut := some v } }
               mail := (s.mail.erase fds) ++ [.placement k g.slot v] })
         ∧ (∀ g cause r, s.fds.gate = .waste g cause → batchOf s g.slot = some r →
             let v := if ran g then g.volume else min g.volume (g.flow * (s.tmb.fineTime - g.openedAt).toNat / 60000)
             let r' : BatchRecord := { r with wasted := r.wasted + v, remaining := r.remaining - v, cause := cause }
             let settled : BatchState := if 0 < r'.remaining then .lined
               else if r.entries.any (fun e => e.exit.isNone) then .casting else .spent
             leadsTo fds s { took fds s with
               fds := { s.fds with
                 paused := true, gate := .idle
                 line := if r'.remaining = 0 then s.fds.line.erase g.slot else s.fds.line
                 records := put s.fds.records g.slot (if settled = .spent then none else some { r' with state := settled }) }
               mail := (s.mail.erase fds) ++ [.slotWriteRequest (.batch g.slot
                 (if settled = r.state then none else some settled) r'.report)] })))

/-- SUPPLY_LOW as the monitor is NORMAL, outside BENCH and HALTED: the part enters POWER_DOWN and its actions begin;
the quiet flag is set, the exchange timers stop, the transaction is abandoned and polling stops, the scan ends with
its row, site seconds are saved, and every channel is sent OFF, in ascending order (the model's choice, log 78), the
feed, the waves and every block being told, the blocks in the model's order (log 82), behind the messages that waited
less those the warning cuts off (the model's choice, log 29). A repeated outage asks for the feed to pause.
SUPPLY_GOOD is noted in ACTIONS and starts the good-supply timer in WAIT; RETURN_OF_GOOD_SUPPLY in WAIT leaves
POWER_DOWN: with the job mark set for RECOVERY, or for RUN at once where no station is ACTIVE (log 44), and without it
for CONFIG with empty tables, every slot FREE with its state, outcome and report words 0, no edition, misuse or
exchange event, and a publication; the scan starts anew. It has no effect elsewhere. A supply that was dying and is
good again in ACTIONS does not take the power (log 59). -/
def Obligations.SupplyFailsWarnsAndReturns : Prop :=
  (∀ s : State, acting s = true →
     let repeated : Prop := s.psv.state = .recovery
       ∨ ∃ e, s.psv.lastRecoveryEnd = some e ∧ (s.tmb.siteSeconds - e).toNat < 120
     let kept : List Instr := s.mail.filter fun c => !cutOff c
     let told : List Instr := allStations.map Instr.offValve ++ [.feedPowerDown, .wavePowerDown]
       ++ noticed.map fun b => .partStateNotice b .powerDown
     (s.psv.monitor = .normal → s.psv.state ≠ .bench → s.psv.state ≠ .halted → ∃ t, exec .supplyLow s = .next t
       ∧ t.psv.state = .powerDown ∧ t.psv.monitor = .actions ∧ t.psv.supplyGood = false ∧ t.psv.control.waiting = false
       ∧ t.psv.clearing = [] ∧ t.psv.waveDone = false ∧ t.psv.feedDone = false ∧ t.psv.recovery = .none
       ∧ t.psv.dying = false
       ∧ t.psv.jobMark = s.psv.jobMark ∧ t.tmb = { s.tmb with savedWord := some s.tmb.siteSeconds }
       ∧ t.vdu = { s.vdu with quiet := true }
       ∧ t.ssu = { s.ssu with scan := if s.ssu.scan = .running then .ending else s.ssu.scan }
       ∧ t.lbp = { s.lbp with transaction := .idle, lastEnd := none, bus := [], incoming := none, view := .powerDown }
       ∧ t.exc.scanTimer = none ∧ t.exc.publishTimer = none ∧ t.exc.publication = none ∧ t.exc.attn = s.exc.attn
       ∧ t.wvc = s.wvc ∧ t.ltr = s.ltr ∧ t.fds = s.fds ∧ t.window = s.window
       ∧ (repeated → t.psv.repeatedOutage = true
           ∧ t.mail = kept ++ ((if s.psv.repeatedOutage then [] else [.attentionSetRequest .event])
               ++ .feedPauseRequest :: told))
       ∧ (¬repeated → t.psv.repeatedOutage = s.psv.repeatedOutage ∧ t.mail = kept ++ told))
     ∧ (s.psv.monitor = .normal → (s.psv.state = .bench ∨ s.psv.state = .halted) → leadsTo .supplyLow s s)
     ∧ (s.psv.monitor = .actions → leadsTo .supplyLow s { s with psv := { s.psv with supplyGood := false } })
     ∧ (s.psv.monitor = .wait → leadsTo .supplyLow s { s with psv := { s.psv with supplyGood := false, goodTimer := none } }))
  ∧ (∀ s : State, acting s = true →
       let active (st : Station) : Prop := (recordOf s st).service = .active
       (s.psv.monitor = .normal → leadsTo .supplyGood s s)
       ∧ (s.psv.monitor = .actions → leadsTo .supplyGood s { s with psv := { s.psv with supplyGood := true, dying := false } })
       ∧ (s.psv.monitor = .wait → leadsTo .supplyGood s { s with psv := { s.psv with
           supplyGood := true, goodTimer := some s.tmb.fineTime } })
       ∧ ((s.psv.state ≠ .powerDown ∨ s.psv.monitor ≠ .wait ∨ s.psv.goodTimer = none) → leadsTo .returnOfGoodSupply s s)
       ∧ (s.psv.state = .powerDown → s.psv.monitor = .wait → s.psv.goodTimer ≠ none →
           ∃ t, exec .returnOfGoodSupply s = .next t ∧ t.psv.monitor = .normal ∧ t.psv.goodTimer = none
             ∧ t.tmb = s.tmb ∧ t.ssu.scan = .running ∧ t.ssu.adopting = true ∧ (∀ st, readingOf t st = none)
             ∧ t.lbp.settleHold = some s.tmb.fineTime
             ∧ t.exc.attn = s.exc.attn ∧ .attentionSetRequest .fault ∈ t.mail
             ∧ (s.psv.jobMark = true → t.psv.jobMark = true ∧ t.vdu = s.vdu ∧ t.wvc.table = s.wvc.table
                 ∧ t.ltr = s.ltr ∧ t.fds = s.fds ∧ t.window = s.window
                 ∧ ((∃ st, active st) → t.psv.state = .recovery
                     ∧ t.psv.recoveryTimer = some ⟨s.tmb.fineTime, 1000 * s.psv.rig.recoveryWindow⟩)
                 ∧ ((∀ st, ¬active st) → t.psv.state = .run))
             ∧ (s.psv.jobMark = false → t.psv.state = .config ∧ t.psv.rig = RigValues.standby
                 ∧ (∀ st, recordOf t st = StationRecord.blank) ∧ (∀ k, stackOf t k = []) ∧ t.fds.line = []
                 ∧ t.vdu.quiet = true ∧ t.exc.postscaler = 0 ∧ t.psv.control = s.psv.control
                 ∧ exchangeEmptied s t ∧ publicationBegun s t)))

/-- WAVE_ENDED and FEED_STOPPED: in STOPPING each is noted, and the second of them leads to CONFIG, the blocks being
told in the model's order (log 82). POWER_DOWN_ACTIONS_DONE and FEED_STOPPED in ACTIONS: each report is noted. With
both, and no slot write or placement on its way and no reset waiting, the monitor goes to WAIT, the good-supply timer
starting where the supply is good, or the power goes where the supply has died (log 59); while one is on its way the
report comes round again behind it (log 41). -/
def Obligations.StopAndPowerDownReportsComplete : Prop :=
  (∀ s : State, acting s = true →
     let config (c : Instr) (u : State) : State :=
       { u with mail := (s.mail.erase c) ++ noticed.map fun b => .partStateNotice b .config }
     (s.psv.state = .stopping →
       (s.psv.feedStopped = false → leadsTo .waveEnded s { took .waveEnded s with psv := { s.psv with waveEnded := true } })
       ∧ (s.psv.feedStopped = true → leadsTo .waveEnded s (config .waveEnded { s with psv := { s.psv with
           waveEnded := true, state := .config } }))
       ∧ (s.psv.waveEnded = false → leadsTo .feedStopped s { took .feedStopped s with psv := { s.psv with feedStopped := true } })
       ∧ (s.psv.waveEnded = true → leadsTo .feedStopped s (config .feedStopped { s with psv := { s.psv with
           feedStopped := true, state := .config } })))
     ∧ (s.psv.state ≠ .stopping → leadsTo .waveEnded s (took .waveEnded s))
     ∧ (s.psv.state ≠ .stopping → inActions s = false → leadsTo .feedStopped s (took .feedStopped s)))
  ∧ (∀ s : State, acting s = true → inActions s = true →
       let wave : Instr := .powerDownActionsDone
       let waits : Psv := { s.psv with monitor := .wait, waveDone := true, feedDone := true
                                       goodTimer := if s.psv.supplyGood then some s.tmb.fineTime else none }
       let dies (c : Instr) : Prop := ∃ t, exec c s = .next t ∧ t.power = .off ∧ t.psv.jobMark = s.psv.jobMark
         ∧ t.wvc.table = s.wvc.table ∧ t.ltr.stack = s.ltr.stack ∧ t.fds.records = s.fds.records ∧ t.window = s.window
       (s.psv.feedDone = false → leadsTo wave s { took wave s with psv := { s.psv with waveDone := true } })
       ∧ (s.psv.feedDone = true → settlingWaits (took wave s) = true → leadsTo wave s { took wave s with
           psv := { s.psv with waveDone := true }, mail := (s.mail.erase wave) ++ [wave] })
       ∧ (s.psv.feedDone = true → settlingWaits (took wave s) = false →
           (s.psv.dying = false → s.psv.deferredReset = none → leadsTo wave s { took wave s with psv := waits })
           ∧ (s.psv.dying = true → dies wave))
       ∧ (s.psv.waveDone = false → leadsTo .feedStopped s { took .feedStopped s with psv := { s.psv with feedDone := true } })
       ∧ (s.psv.waveDone = true → settlingWaits (took .feedStopped s) = true → leadsTo .feedStopped s { took .feedStopped s with
           psv := { s.psv with feedDone := true }, mail := (s.mail.erase .feedStopped) ++ [.feedStopped] })
       ∧ (s.psv.waveDone = true → settlingWaits (took .feedStopped s) = false →
           (s.psv.dying = false → s.psv.deferredReset = none →
             leadsTo .feedStopped s { took .feedStopped s with psv := waits })
           ∧ (s.psv.dying = true → dies .feedStopped)))

/-- RETENTION_STORE_ERROR: at the first one the part enters HALTED with its cause, in every part state, all blocks
stopping in the one step (log 46): the climb is HELD, every valve channel at 0, every window closed, the exchange
timers stopped, FAULT set, a PENDING command abandoned, and the bench result kept but for a read error in the store
pass (log 57); a supply that has died goes at once (log 59). A further one changes nothing, and one while the part is
held in reset is met at its release (log 60); without power it changes nothing. SUPPLY_DIES takes the power from a
held part, from one in BENCH or HALTED and from one in WAIT at once; from any other a warning and its actions come
first (log 59). POWER_ON gives it back, held until its release, its registers reading as in reset (STATE as a free
value, log 4), with RESTART mode, and with site seconds kept, counted from the saved word with the clock invalid and
FAULT asked for (log 32), or from 0 in a new part. Each is without effect where there is nothing to lose or to give.
RESET_RELEASE of a held part reads the strap, which is kept (log 15), and the job mark: BENCH with the strap high,
else with the job mark RECOVERY if a station is ACTIVE and RUN if none is (log 44), else CONFIG with empty tables,
every slot FREE with its state, outcome and report words 0, no edition, misuse or exchange event, and a publication,
with fine time 0 and the settle hold at a power-on alone (log 40). With the job mark RESUME joins the hold reasons and
every RETIRE that waits is carried out and handed over as DONE; a cut volume in the gate record is placed or wasted; a
record without one has a placement of 0 sent, or is IDLE at once for WASTE, and no volume moves; with an IDLE record
any pour plan is dropped. HALTED where the store still fails (log 60). While the part acts it is the release of a line
reset that waits, if one does, which keeps its place with the strap found (the model's choice, log 91); without power
it has no effect. -/
def Obligations.StoreErrorsHaltAndPowerComesAndGoes : Prop :=
  (∀ (s : State) (failure : StoreFailure),
     (s.power = .off → exec (.retentionStoreError failure) s = .next s)
     ∧ (∀ cause, s.power = .held cause → exec (.retentionStoreError failure) s = .next { s with storeFails := some failure })
     ∧ (acting s = true → s.psv.state = .halted → leadsTo (.retentionStoreError failure) s s)
     ∧ (acting s = true → s.psv.state ≠ .halted → s.psv.dying = true → ∃ t, exec (.retentionStoreError failure) s = .next t
       ∧ t.power = .off ∧ t.psv.jobMark = s.psv.jobMark ∧ t.wvc.table = s.wvc.table ∧ t.fds.records = s.fds.records)
     ∧ (acting s = true → s.psv.state ≠ .halted → s.psv.dying = false → ∃ t, exec (.retentionStoreError failure) s = .next t
       ∧ t.power = .on ∧ t.psv.state = .halted ∧ t.psv.haltCause = some failure ∧ t.psv.control.waiting = false
       ∧ t.psv.control.outcome = s.psv.control.outcome ∧ t.psv.jobMark = s.psv.jobMark ∧ t.psv.deferredReset = none
       ∧ t.psv.bench = (if s.psv.benchPhase = .storePass ∧ failure = .read then .storeFault else s.psv.bench)
       ∧ t.wvc.climb = .held ∧ t.wvc.table = s.wvc.table ∧ t.fds.records = s.fds.records ∧ t.fds.gate = s.fds.gate
       ∧ t.ltr.stack = s.ltr.stack ∧ t.window = s.window ∧ t.tmb = s.tmb
       ∧ t.ssu.scan = .stopped ∧ (∀ st, (ssuOf t st).window = none ∧ (ssuOf t st).queue = [])
       ∧ (∀ st, (channelOf t st).state = .idle ∧ (channelOf t st).level = 0) ∧ t.vdu.pumpEnable = false
       ∧ t.lbp.transaction = .idle ∧ t.lbp.bus = []
       ∧ t.exc.scanTimer = none ∧ t.exc.publishTimer = none
       ∧ (s.exc.view ≠ .halted → t.exc.attn = s.exc.attn ||| 0x20#6) ∧ t.exc.attnMask = s.exc.attnMask))
  ∧ (∀ s : State,
       let dies : Prop := ∃ t, exec .supplyDies s = .next t ∧ t.power = .off ∧ t.psv.jobMark = s.psv.jobMark
         ∧ t.psv.rig = s.psv.rig ∧ t.wvc.table = s.wvc.table ∧ t.ltr.stack = s.ltr.stack ∧ t.fds.records = s.fds.records
         ∧ t.tmb = s.tmb ∧ t.window = s.window ∧ t.psv.green.pattern = .dark
       (s.power = .off → exec .supplyDies s = .next s)
       ∧ (∀ cause, s.power = .held cause → dies)
       ∧ (s.power = .on →
         (s.psv.monitor = .normal → (s.psv.state = .bench ∨ s.psv.state = .halted) → dies)
         ∧ (s.psv.monitor = .wait → dies)
         ∧ (s.psv.monitor = .actions →
             leadsTo .supplyDies s { s with psv := { s.psv with supplyGood := false, dying := true } })
         ∧ (s.psv.monitor = .normal → s.psv.state ≠ .bench → s.psv.state ≠ .halted →
             ∃ w, leadsTo .supplyLow s w ∧ leadsTo .supplyDies s { w with psv := { w.psv with dying := true } }))
       ∧ (∀ held, s.power ≠ .off → exec (.powerOn held) s = .next s)
       ∧ (∀ held, s.power = .off → ∃ t, exec (.powerOn held) s = .next t ∧ t.power = .held .powerOn
         ∧ t.psv.lineMode = .restart ∧ t.psv.control = ⟨0, .done, 0, false, false⟩ ∧ t.psv.jobMark = s.psv.jobMark
         ∧ t.readPort 0x04 = some 0 ∧ t.readPort 0x08 = some Config.stateInReset ∧ t.readPort 0x0C = some 0
         ∧ t.readPort 0x10 = some 0x3F ∧ t.readPort 0x14 = some 1
         ∧ t.wvc.table = s.wvc.table ∧ t.ltr.stack = s.ltr.stack ∧ t.fds.records = s.fds.records ∧ t.window = s.window
         ∧ (s.tmb.savedWord = none → t.tmb.siteSeconds = 0 ∧ t.tmb.clockValid = true)
         ∧ (∀ w, s.tmb.savedWord = some w → held = false →
             t.tmb.siteSeconds = w ∧ t.tmb.clockValid = false ∧ t.tmb.clockLost = true ∧ .attentionSetRequest .fault ∈ t.mail)
         ∧ (∀ w, s.tmb.savedWord = some w → held = true → t.tmb = s.tmb)))
  ∧ (∀ (s : State) (high : Bool),
       (s.power = .off → exec (.resetRelease high) s = .next s)
       ∧ (s.power = .on →
         (s.psv.deferredReset = some (.line none) → exec (.resetRelease high) s = .next { s with psv := { s.psv with
           deferredReset := some (.line (some high)) } })
         ∧ (s.psv.deferredReset ≠ some (.line none) → exec (.resetRelease high) s = .next s))
       ∧ (∀ cause, s.power = .held cause → ∃ t, exec (.resetRelease high) s = .next t ∧ t.power = .on
         ∧ t.strap = high ∧ t.tmb.fineTime = 0 ∧ t.tmb.siteSeconds = s.tmb.siteSeconds ∧ t.storeFails = none
         ∧ t.psv.control = ⟨if cause = .command then 4 else 0, .done, 0, false, false⟩
         ∧ t.lbp.settleHold = (if cause = .powerOn then some 0 else none)
         ∧ (∀ failure, s.storeFails = some failure → t.psv.state = .halted ∧ t.psv.haltCause = some failure
             ∧ t.psv.jobMark = s.psv.jobMark)
         ∧ (s.storeFails = none →
           (high = true → t.psv.state = .bench ∧ t.psv.bench = .running ∧ t.psv.benchPhase = .lampTest 0
             ∧ t.psv.jobMark = s.psv.jobMark)
           ∧ (high = false → s.psv.jobMark = true → t.psv.jobMark = true ∧ t.psv.rig = s.psv.rig
             ∧ ((∃ st, (recordOf t st).service = .active) → t.psv.state = .recovery
                 ∧ t.psv.recoveryTimer = some ⟨0, 1000 * s.psv.rig.recoveryWindow⟩)
             ∧ ((∀ st, (recordOf t st).service ≠ .active) → t.psv.state = .run)
             ∧ t.wvc.holds.getLsbD 5 = true
             ∧ (∀ st, recordOf t st = retiredRecord (recordOf s st))
             ∧ (∀ st slot, (recordOf s st).retirePending = some slot →
                 .orderOutcome slot (.outcome .done 0) ∈ t.mail)
             ∧ (∀ k g, s.fds.gate = .drop k g →
                 let v : Nat := match g.cut with
                   | some v => v
                   | none => 0
                 t.fds.gate = .drop k { g with passed := some v } ∧ t.fds.records = s.fds.records
                 ∧ s.mail ++ [.placement k g.slot v] <+: t.mail)
             ∧ (∀ g cause, s.fds.gate = .waste g cause → t.fds.gate = .idle
               ∧ (g.cut = none → t.fds.records = s.fds.records)
               ∧ ∀ v r, g.cut = some v → batchOf s g.slot = some r →
                 let r' : BatchRecord := { r with wasted := r.wasted + v, remaining := r.remaining - v, cause := cause }
                 let settled : BatchState := if 0 < r'.remaining then .lined
                   else if r.entries.any (fun e => e.exit.isNone) then .casting else .spent
                 t.fds.line = (if r'.remaining = 0 then s.fds.line.erase g.slot else s.fds.line)
                 ∧ t.fds.records = put s.fds.records g.slot (if settled = .spent then none else some { r' with state := settled })
                 ∧ s.mail ++ [.slotWriteRequest (.batch g.slot
                     (if settled = r.state then none else some settled) r'.report)] <+: t.mail)
             ∧ (s.fds.gate = .idle → t.fds.gate = .idle ∧ t.fds.records = s.fds.records ∧ s.mail ++ [.dropPlan] <+: t.mail))
           ∧ (high = false → s.psv.jobMark = false → t.psv.state = .config ∧ t.psv.rig = RigValues.standby
             ∧ (∀ st, recordOf t st = StationRecord.blank) ∧ (∀ k, stackOf t k = []) ∧ t.fds.line = []
             ∧ exchangeEmptied s t ∧ publicationBegun s t))))

/-- The bench self-check: the lamp test leads to the store pass; the first site second after it begins the clock pass,
which fails unless the tenth after that comes 9,950 to 10,050 ms later; the matrix pass fails when a column conducts
at two idle reads in a row and passes at the sixteenth; an idle read changes no station, and the next scan begins at
row 0. When each pass begins is the model's choice (log 21). -/
def Obligations.BenchSelfCheckPasses : Prop :=
  ∀ s : State, acting s = true →
    let told : List Instr := [.siteSecondNotice .wvc, .siteSecondNotice .ltr, .siteSecondNotice .fds]
    let second (u : Psv) : State := { s with
      tmb := { s.tmb with siteSeconds := s.tmb.siteSeconds + 1, savedWord := some (s.tmb.siteSeconds + 1) }
      mail := s.mail ++ told, psv := u }
    (∀ b, s.psv.benchPhase = .lampTest b → leadsTo .lampTestExpiry s { s with psv := { s.psv with benchPhase := .storePass } })
    ∧ ((∀ b, s.psv.benchPhase ≠ .lampTest b) → leadsTo .lampTestExpiry s s)
    ∧ (s.psv.benchPhase = .storePass →
        leadsTo .siteSecondAdvance s (second { s.psv with benchPhase := .clockPass s.tmb.fineTime 0 }))
    ∧ (∀ noted n, s.psv.benchPhase = .clockPass noted n →
        let d := (s.tmb.fineTime - noted).toNat
        (n < 9 → leadsTo .siteSecondAdvance s (second { s.psv with benchPhase := .clockPass noted (n + 1) }))
        ∧ (9 ≤ n → 9950 ≤ d → d ≤ 10050 →
            leadsTo .siteSecondAdvance s (second { s.psv with benchPhase := .matrixPass false 0 0 }))
        ∧ (9 ≤ n → (d < 9950 ∨ 10050 < d) →
            leadsTo .siteSecondAdvance s (second { s.psv with bench := .clockFault, benchPhase := .done })))
    ∧ (∀ n last columns, s.ssu.scan ≠ .stopped → s.ssu.position = .idle → s.psv.benchPhase = .matrixPass true n last →
        let ssu := { s.ssu with position := ScanPosition.row 0 }
        (columns &&& last ≠ 0 → leadsTo (.rowRead columns) s { s with
          ssu := ssu, psv := { s.psv with bench := .matrixFault, benchPhase := .done } })
        ∧ (columns &&& last = 0 → n < 15 → leadsTo (.rowRead columns) s { s with
          ssu := ssu, psv := { s.psv with benchPhase := .matrixPass true (n + 1) columns } })
        ∧ (columns &&& last = 0 → 15 ≤ n → leadsTo (.rowRead columns) s { s with
          ssu := ssu, psv := { s.psv with bench := .pass, benchPhase := .done } }))

/-- RECOVERY ends when every ACTIVE station has a fresh reading, judged at each good reading, and at the recovery
window's expiry: the restart check is done in the same step (log 44), the windows opened for RECOVERY are each sent
DRAIN_QUEUE and CLOSE_WINDOW, their answers being discarded, the part enters RUN, every block getting its notice, in
the model's order (log 82), and the end is noted, the phase staying CHECKED (log 23). Otherwise a reading ends
nothing, and an expiry outside SETTLING has no effect. The restart check compares the stations with fresh readings
when they are 4 or more: each of them in doubt is resolved, its stroke counted when twice the scaled difference, given
by value, reaches the stroke length times their number; all are judged before any is resolved. Then each of them out
of tolerance is barred with DEVIATION, all being judged before any is barred. The table is that of the two, one after
the other. With the climb HELD a station barred so has EVENT asked for, once for the two events (log 54), is drained,
its answer being discarded, closed and sent OFF, SHORT joins the hold reasons where a used sector of a barred station
falls below its least number, and one counts-changed notice follows where a count rose or a station was barred, or is
owed while other drains are open (log 24). Stations go in ascending number (log 78). -/
def Obligations.RecoveryEndsAndDoubtsAreResolved : Prop :=
  (∀ (s : State) (st : Station), acting s = true →
     let ended (c : Instr) (taken : State) : Prop :=
       let v := restartCheck { taken with psv := { s.psv with recovery := .ready } }
       ∃ t, exec c s = .next t ∧ t.psv.state = .run
       ∧ t.wvc = { v.wvc with
           recoveryWindows := []
           drains := v.wvc.drains ++ s.wvc.recoveryWindows.map fun x => (⟨x, .discard⟩ : Drain) }
       ∧ t.mail = v.mail ++ (s.wvc.recoveryWindows.flatMap fun x => [.drainQueue x, .closeWindow x])
           ++ (noticed.map fun b => .partStateNotice b .run)
       ∧ t.psv.recovery = .checked ∧ t.psv.recoveryTimer = none ∧ t.psv.lastRecoveryEnd = some s.tmb.siteSeconds ∧ t.psv.jobMark = s.psv.jobMark
       ∧ t.tmb = s.tmb ∧ t.vdu = s.vdu ∧ t.fds = s.fds ∧ t.ltr = s.ltr
       ∧ (s.wvc.climb = .held → t.wvc.climb = .held)
     (isSettling s = true → (∀ x, isActive s x = true → isFresh s x = true) → ended (.readingNotice st) (took (.readingNotice st) s))
     ∧ (isSettling s = true → (∃ x, isActive s x = true ∧ isFresh s x = false) →
         leadsTo (.readingNotice st) s (took (.readingNotice st) s))
     ∧ (isSettling s = false → leadsTo (.readingNotice st) s (took (.readingNotice st) s)
         ∧ leadsTo .recoveryWindowExpiry s s)
     ∧ (isSettling s = true → ended .recoveryWindowExpiry s))
  ∧ (∀ s : State,
       let S := comparedStations s
       let out (u : State) (st : Station) : Prop :=
         st ∈ S ∧ S.length * u.psv.rig.probeTolerance < (scaledDifference u S st).natAbs
       let n : Int := S.length
       let height (x : Station) : Int := ((readingOf s x).map fun r => r.elevation.toInt).getD 0
       let count (x : Station) : Int := (recordOf s x).count
       (∀ x, scaledDifference s S x = (n * height x - (S.map height).sum)
         - (s.psv.rig.strokeLength : Int) * (n * count x - (S.map count).sum))
       ∧ (∀ x, x ∈ S ↔ (recordOf s x).service = .active ∧ ∃ r, readingOf s x = some r ∧ r.status = .good
           ∧ r.inMotion = false ∧ (s.tmb.fineTime - r.taken).toNat < 1000 * s.psv.rig.freshnessLimit)
       ∧ (S.length < 4 → restartCheck s = s)
       ∧ (4 ≤ S.length → (restartCheck s).wvc.table = (barOutOfTolerance S (resolveDoubts S s)).wvc.table)
       ∧ (4 ≤ S.length → s.wvc.climb = .held →
           let v := restartCheck s
           let barred : List Station := S.filter fun x => decide
             (S.length * s.psv.rig.probeTolerance < (scaledDifference (resolveDoubts S s) S x).natAbs)
           let asked (x : Station) : List Instr :=
             if (recordOf s x).events ||| (0x010#9 ||| 0x080#9) = (recordOf s x).events then []
             else [.attentionSetRequest .event]
           let short (k : Sector) : Prop := used s k = true
             ∧ ((stationsOf k).filter fun x => isActive s x && !barred.contains x).length < s.psv.rig.minActive
           let rises (x : Station) : Bool := (recordOf s x).inDoubt && decide ((recordOf s x).count < 65535)
             && decide ((S.length : Int) * s.psv.rig.strokeLength ≤ 2 * scaledDifference s S x)
           let owed : Bool := s.wvc.countsDirty || S.any rises || !barred.isEmpty
           let told : Bool := owed && s.wvc.ending.isNone && s.wvc.drains.all fun d => decide (d.purpose = .discard)
           v = { s with wvc := v.wvc, mail := v.mail }
           ∧ v.wvc = { s.wvc with
               table := v.wvc.table, holds := v.wvc.holds, countsDirty := owed && !told
               drains := s.wvc.drains ++ barred.map fun x => (⟨x, .discard⟩ : Drain) }
           ∧ ((∃ x ∈ barred, short (sectorOf x)) → v.wvc.holds = s.wvc.holds ||| 0x10#6)
           ∧ ((∀ x ∈ barred, ¬short (sectorOf x)) → v.wvc.holds = s.wvc.holds)
           ∧ v.mail = s.mail ++ (barred.flatMap fun x => asked x ++ [.drainQueue x, .closeWindow x, .offValve x])
               ++ (if told = true then [.countsChanged] else []))
       ∧ (4 ≤ S.length → (∀ st ∈ S, (recordOf s st).inDoubt = false) → (∀ st, ¬out s st) → s.wvc.countsDirty = false →
           restartCheck s = s)
       ∧ (∀ st, recordOf (barOutOfTolerance S s) st = if out s st
           then { recordOf s st with service := .barred, events := (recordOf s st).events ||| (0x010#9 ||| 0x080#9) }
           else recordOf s st)
       ∧ (∀ st, st ∈ S → (recordOf s st).inDoubt = true →
           recordOf (resolveDoubts S s) st = { recordOf s st with
             inDoubt := false
             count := if (S.length : Int) * s.psv.rig.strokeLength ≤ 2 * scaledDifference s S st
               then min 65535 ((recordOf s st).count + 1) else (recordOf s st).count })
       ∧ (∀ st, (st ∉ S ∨ (recordOf s st).inDoubt = false) → recordOf (resolveDoubts S s) st = recordOf s st)
       ∧ (∀ st, (recordOf (barOutOfTolerance S s) st).service =
           if st ∈ S ∧ outOfTolerance s S st = true then .barred else (recordOf s st).service))

/-- FIRST_OF_KIND_NOTICE. In DRIVE an awaited participant's EXTEND takes it off the await set, and the last one ends
the phase: the climb is SETTLE and each participant is drained for judgement, in ascending order (the model's choice,
log 78, as at the end of SETTLE). In SETTLE an awaited RETRACT does the same to the set, the last one ending SETTLE
once the fall timer has expired (the motion-off notice first, log 25), and a late EXTEND of a participant judged
MISSING or IN_DOUBT puts it back. While the drains of a phase end or of a warning are being answered the set alone
changes and no phase ends. Every other notice has no effect: of a station that takes no part or is not awaited, a
RETRACT in DRIVE, an EXTEND in SETTLE of a participant judged otherwise, and any with no wave in flight. -/
def Obligations.FirstOfKindNoticesCountTheStationsIn : Prop :=
  ∀ (s : State) (st : Station) (time : Word), acting s = true → s.wvc.view ≠ .halted →
    let ext : Instr := .firstOfKindNotice st .extend time
    let ret : Instr := .firstOfKindNotice st .retract time
    let i := itemOf s st
    let othersAwaited : Prop := ∃ x, x ≠ st ∧ (itemOf s x).participant = true ∧ (itemOf s x).awaited = true
    let doubtful : Prop := i.verdict = some .missing ∨ i.verdict = some .inDoubt
    (i.participant = false ∨ (s.wvc.climb ≠ .drive ∧ s.wvc.climb ≠ .settle) →
        leadsTo ext s (took ext s) ∧ leadsTo ret s (took ret s))
    ∧ (s.wvc.climb = .drive → leadsTo ret s (took ret s) ∧ (i.awaited = false → leadsTo ext s (took ext s)))
    ∧ (s.wvc.climb = .settle → (i.awaited = false → leadsTo ret s (took ret s)) ∧ (¬doubtful → leadsTo ext s (took ext s)))
    ∧ (i.participant = true → i.awaited = true → s.wvc.climb = .drive →
        (othersAwaited ∨ s.wvc.ending ≠ none →
          leadsTo ext s (setItem (took ext s) st { i with reportedExtend := true, awaited := false }))
        ∧ (¬othersAwaited → s.wvc.ending = none → ∃ u, leadsTo ext s u ∧ u.wvc.climb = .settle
            ∧ u.wvc.driveTimer = none ∧ u.wvc.ending = some .driveEnd ∧ u.wvc.table = s.wvc.table
            ∧ u.mail = (s.mail.erase ext) ++ (allStations.filter fun x => (itemOf s x).participant).map Instr.drainQueue))
    ∧ (i.participant = true → i.awaited = true → s.wvc.climb = .settle → (othersAwaited ∨ s.wvc.fallTimer ≠ none ∨ s.wvc.ending ≠ none) →
        leadsTo ret s (setItem (took ret s) st { i with reportedRetract := true, awaited := false }))
    ∧ (i.participant = true → i.awaited = true → s.wvc.climb = .settle → ¬othersAwaited → s.wvc.fallTimer = none → s.wvc.ending = none →
        ∃ u, leadsTo ret s u ∧ u.wvc.climb = .settle ∧ u.wvc.ending = some .settleEnd ∧ u.wvc.settleTimer = none
          ∧ u.wvc.table = s.wvc.table
          ∧ u.mail = (s.mail.erase ret) ++ .motionOffNotice ::
              (allStations.filter fun x => (itemOf s x).participant).map Instr.drainQueue)
    ∧ (i.participant = true → s.wvc.climb = .settle → doubtful →
        leadsTo ext s (setItem (took ext s) st { i with lateExtend := true, awaited := true }))

/-- DRAIN_ANSWER of the DRIVE judgement, by the rows of R64 and R77: an EXTEND is EXTENDED and credits the stroke with
its duration, with a mark and CHATTER unless it is the one record; none is MISSING, with a mark, MISSED_EXTEND and,
where there are records, CHATTER; IN_DOUBT with DOUBT where a STOP or line hold ended the phase before the report. One
EVENT request stands for the events that one judgement sets (log 54). A third mark bars, a participant's window
staying open until its drain is answered (log 76). A station barred meanwhile is judged too. The last answer, whatever
it is, forms the await set of SETTLE, sends CLOSE to the remaining participants, in ascending order (the model's
choice, log 78, as for the messages of the wave's end), starts the SETTLE and fall timers and tells a count that has
gone up (log 24). DRAIN_ANSWER of the SETTLE judgement, by the rows of R68: of an awaited EXTENDED station one RETRACT
is clean, no record a mark with MISSED_RETRACT, anything else one with CHATTER; of a retracted one any record is a
mark with CHATTER; of a MISSING or IN_DOUBT one a RETRACT alone is, and an EXTEND is a late stroke, credited, which
clears the doubt of an IN_DOUBT one (a MISSING one keeps an earlier doubt, log 52), its other records judged as an
awaited one's. The last answer, whatever it is, ends the wave: CLOSE_WINDOW and then REST go to every remaining
participant (OFF to one whose retirement waits, which is then carried out and answered), an owed counts-changed notice
is sent, the clean runs follow, and the climb is DWELL in RUN with no hold reason, else HELD, the end being told in
STOPPING; RUN and STOPPING are those last noticed, and RUN is the part state as well, so that with a STOP taken and
its WAVE_STOP on its way the climb is HELD and no end is told (the model's choice, logs 9 and 62). An answer to a
discarded drain changes the drains outstanding alone, one to no drain nothing. -/
def Obligations.DrainedRecordsAreJudgedAndEndThePhase : Prop :=
  (∀ (s : State) (st : Station) (records : List EdgeRecord) (overflow : Bool), acting s = true → s.wvc.view ≠ .halted →
     (s.wvc.drains.find? fun d => decide (d.station = st)) = some ⟨st, .driveEnd⟩ → s.wvc.ending = some .driveEnd →
     let c : Instr := .drainAnswer st records overflow
     let i := itemOf s st
     let r := recordOf s st
     let rest := s.wvc.drains.erase ⟨st, .driveEnd⟩
     let others : Bool := rest.any fun d => decide (d.purpose = .driveEnd)
     let asked (events more : BitVec 9) : List Instr :=
       if events ||| more = events then [] else [.attentionSetRequest .event]
     let credited (time : Word) : StationRecord := { r with
       count := min 65535 (r.count + 1), lastStroke := some (min 65535 (time - s.wvc.driveStart).toNat) }
     let judged (barred : Bool) (item : WaveItem) (rec : StationRecord) (told : List Instr) : Prop :=
       let drains : List Drain := if barred then rest ++ [⟨st, if i.participant then .barSettle else .discard⟩] else rest
       let left : List Station := allStations.filter fun x => inWave s && (if x = st then item else itemOf s x).participant
       let owed : Bool := s.wvc.countsDirty || barred || decide (r.count < rec.count)
       let settled (j : WaveItem) : WaveItem := { j with
         awaited := j.awaited || (j.participant && decide (j.verdict = some .extended) && !j.retracted) }
       ∃ u, leadsTo c s u ∧ u.wvc.drains = drains ∧ u.wvc.climb = s.wvc.climb
         ∧ recordOf u st = rec ∧ (∀ x, x ≠ st → recordOf u x = recordOf s x)
         ∧ u.wvc.holds = (if barred && shortIn u (sectorOf st) then s.wvc.holds ||| 0x10#6 else s.wvc.holds)
         ∧ (others = true → u.wvc.ending = s.wvc.ending ∧ u.wvc.countsDirty = owed
           ∧ itemOf u st = item ∧ (∀ x, x ≠ st → itemOf u x = itemOf s x) ∧ u.mail = (s.mail.erase c) ++ told)
         ∧ (others = false → u.wvc.ending = none
           ∧ u.wvc.settleTimer = some ⟨s.tmb.fineTime, 1000 * s.psv.rig.settleTimeout⟩
           ∧ u.wvc.fallTimer = some ⟨s.tmb.fineTime, s.psv.rig.fallRamp⟩
           ∧ itemOf u st = settled item ∧ (∀ x, x ≠ st → itemOf u x = settled (itemOf s x))
           ∧ u.mail = (s.mail.erase c) ++ told ++ left.map Instr.closeValve
               ++ (if owed && !(drains.any fun d => decide (d.purpose ≠ .discard)) then [.countsChanged] else []))
     let leaves (item : WaveItem) (rec : StationRecord) : Prop := judged false item rec (asked r.events rec.events)
     let marks (item : WaveItem) (rec : StationRecord) (events : BitVec 9) : Prop :=
       (r.service = .active → r.marks < 2 → leaves { item with marked := item.marked || isParticipant s st }
         { rec with marks := r.marks + 1, cleanRun := 0, events := r.events ||| events })
       ∧ (r.service ≠ .active → leaves item { rec with events := r.events ||| events })
       ∧ (r.service = .active → r.marks = 2 → s.wvc.climb = .settle → judged true
           (if i.participant then { item with marked := true, participant := false, awaited := false } else item)
           { rec with service := .barred, marks := 3, cleanRun := 0, events := r.events ||| events ||| 0x080#9 }
           (asked r.events events ++ asked (r.events ||| events) 0x080 ++ .drainQueue st ::
             (if i.participant then [.offValve st] else [.closeWindow st, .offValve st])))
     let retracts : Bool := (records.getLast?.map fun e => decide (e.kind = .retract)).getD false
     (∀ before time after, records = before ++ ⟨.extend, time⟩ :: after → (∀ e ∈ before, e.kind = .retract) →
         let item (clean : Bool) : WaveItem := { i with verdict := some .extended, retracted := retracts, cleanDrive := clean }
         (before = [] → after = [] → overflow = false → leaves (item true) (credited time))
         ∧ ((before ≠ [] ∨ after ≠ [] ∨ overflow = true) → marks (item false) (credited time) 0x004))
     ∧ ((∀ e ∈ records, e.kind = .retract) → i.unreported = false →
         marks { i with verdict := some .missing, retracted := retracts } r (if records = [] then 0x001 else 0x005))
     ∧ ((∀ e ∈ records, e.kind = .retract) → i.unreported = true →
         leaves { i with verdict := some .inDoubt, retracted := retracts }
           { r with inDoubt := true, events := r.events ||| 0x040 }))
  ∧ (∀ (s : State) (st : Station) (records : List EdgeRecord) (overflow : Bool), acting s = true → s.wvc.view ≠ .halted →
       (s.wvc.drains.find? fun d => decide (d.station = st)) = some ⟨st, .settleEnd⟩ → s.wvc.ending = some .settleEnd →
       let c : Instr := .drainAnswer st records overflow
       let i := itemOf s st
       let r := recordOf s st
       let rest := s.wvc.drains.erase ⟨st, .settleEnd⟩
       let others : Bool := rest.any fun d => decide (d.purpose = .settleEnd)
       let asked (events more : BitVec 9) : List Instr :=
         if events ||| more = events then [] else [.attentionSetRequest .event]
       let late (time : Word) : StationRecord := { r with
         count := min 65535 (r.count + 1), lastStroke := some (min 65535 (time - s.wvc.driveStart).toNat)
         inDoubt := r.inDoubt && decide (i.verdict ≠ some .inDoubt) }
       let judged (barred : Bool) (item : WaveItem) (rec : StationRecord) (told : List Instr) : Prop :=
         let drains : List Drain := if barred then rest ++ [⟨st, if i.participant then .barSettle else .discard⟩] else rest
         let items (x : Station) : WaveItem := if x = st then item else itemOf s x
         let records' (x : Station) : StationRecord := if x = st then rec else recordOf s x
         let left : List Station := allStations.filter fun x => (items x).participant
         let owed : Bool := s.wvc.countsDirty || barred || decide (r.count < rec.count)
         let tells : Bool := owed && !(drains.any fun d => decide (d.purpose ≠ .discard))
         let clean (x : Station) : Bool := (items x).participant && (items x).cleanDrive && (items x).cleanSettle
           && !(items x).marked && decide ((items x).verdict ≠ some .inDoubt)
         let counted (q : StationRecord) : StationRecord :=
           if q.cleanRun + 1 < 16 then { q with cleanRun := q.cleanRun + 1 } else { q with cleanRun := 0, marks := q.marks - 1 }
         let commands : List Instr := left.map Instr.closeWindow
           ++ left.map fun x => if (recordOf s x).retirePending = none then .restValve x else .offValve x
         ∃ u, leadsTo c s u ∧ (∀ x, itemOf u x = items x)
           ∧ (others = true → u.wvc.drains = drains ∧ u.wvc.ending = s.wvc.ending ∧ u.wvc.climb = s.wvc.climb
             ∧ u.wvc.countsDirty = owed ∧ (∀ x, recordOf u x = records' x) ∧ u.mail = (s.mail.erase c) ++ told)
           ∧ (others = false → s.wvc.climb = .settle → u.wvc.ending = none
             ∧ ((s.wvc.view = .run ∧ s.psv.state = .run ∧ u.wvc.holds = 0) → u.wvc.climb = .dwell)
             ∧ (¬(s.wvc.view = .run ∧ s.psv.state = .run ∧ u.wvc.holds = 0) → u.wvc.climb = .held)
             ∧ (s.mail.erase c) ++ told ++ commands <+: u.mail
             ∧ (∀ x, (recordOf s x).retirePending = none →
                 recordOf u x = if clean x then counted (records' x) else records' x)
             ∧ (∀ x slot, (recordOf s x).retirePending = some slot →
                 recordOf u x = { records' x with service := .retired, marks := 0, cleanRun := 0, retirePending := none }
                 ∧ .orderOutcome slot (.outcome .done 0) ∈ u.mail
                 ∧ ((records' x).service = .active → [.drainQueue x, .closeWindow x, .offValve x] ⊆ u.mail
                   ∧ ((∀ d ∈ drains, d.purpose = .discard) → .countsChanged ∈ u.mail)))
             ∧ ((∀ x, (recordOf s x).retirePending = none) → u.wvc.drains = drains
               ∧ u.wvc.holds = (if barred && shortIn u (sectorOf st) then s.wvc.holds ||| 0x10#6 else s.wvc.holds)
               ∧ u.mail = (s.mail.erase c) ++ told ++ commands ++ (if tells then [.countsChanged] else [])
                 ++ (if u.wvc.climb = .dwell then [] else [.attentionSetRequest .hold])
                 ++ (if s.wvc.view = .stopping then [.waveEnded] else [])))
       let leaves (item : WaveItem) (rec : StationRecord) : Prop := judged false item rec (asked r.events rec.events)
       let marks (item : WaveItem) (rec : StationRecord) (events : BitVec 9) : Prop :=
         (r.service = .active → r.marks < 2 → leaves { item with marked := item.marked || isParticipant s st }
           { rec with marks := r.marks + 1, cleanRun := 0, events := r.events ||| events })
         ∧ (r.service ≠ .active → leaves item { rec with events := r.events ||| events })
         ∧ (r.service = .active → r.marks = 2 → s.wvc.climb = .settle → judged true
             (if i.participant then { item with marked := true, participant := false, awaited := false } else item)
             { rec with service := .barred, marks := 3, cleanRun := 0, events := r.events ||| events ||| 0x080#9 }
             (asked r.events events ++ asked (r.events ||| events) 0x080 ++ .drainQueue st ::
               (if i.participant then [.offValve st] else [.closeWindow st, .offValve st])))
       let clean : Prop := overflow = false ∧ ∃ time, records = [⟨.retract, time⟩]
       let doubtful : Prop := i.verdict = some .missing ∨ i.verdict = some .inDoubt
       (i.verdict = some .extended → i.retracted = false →
         (clean → leaves { i with cleanSettle := true } r)
         ∧ (records = [] → overflow = false → marks { i with cleanSettle := false } r 0x002)
         ∧ (¬clean → (records ≠ [] ∨ overflow = true) → marks { i with cleanSettle := false } r 0x004))
       ∧ (i.verdict = some .extended → i.retracted = true →
         (records = [] → leaves i r) ∧ (records ≠ [] → marks i r 0x004))
       ∧ (doubtful →
         (records = [] → leaves i r)
         ∧ (records ≠ [] → (∀ e ∈ records, e.kind = .retract) → marks i r 0x004)
         ∧ ∀ before time after, records = before ++ ⟨.extend, time⟩ :: after → (∀ e ∈ before, e.kind = .retract) →
           let one : Prop := ∃ w, after = [⟨.retract, w⟩]
           (before = [] → one → overflow = false → leaves i (late time))
           ∧ (after = [] → overflow = false → marks i (late time) (if before = [] then 0x002 else 0x006))
           ∧ ((after ≠ [] ∨ overflow = true) → (before ≠ [] ∨ ¬one ∨ overflow = true) → marks i (late time) 0x004)))
  ∧ (∀ (s : State) (st : Station) (records : List EdgeRecord) (overflow : Bool), acting s = true → s.wvc.view ≠ .halted →
       let c : Instr := .drainAnswer st records overflow
       let found := s.wvc.drains.find? fun d => decide (d.station = st)
       (found = none → leadsTo c s (took c s))
       ∧ (found = some ⟨st, .discard⟩ → s.wvc.ending = none →
         (s.wvc.countsDirty = false ∨ ∃ d ∈ s.wvc.drains, d.purpose ≠ .discard) →
         leadsTo c s { took c s with wvc := { s.wvc with drains := s.wvc.drains.erase ⟨st, .discard⟩ } }))

/-- MARK_REQUEST adds 1 to the marks of an ACTIVE station and ends its clean run, the third barring it as stated
below; a station that is not ACTIVE has the event set alone, an ABSENT one too (the model's choice, log 68). A third
mark or a COIL_FAULT_NOTICE bars an ACTIVE station at once, one EVENT request standing for the events set together
(log 54). One that takes no part in a wave is sent DRAIN_QUEUE, CLOSE_WINDOW and OFF; a participant leaves the
participants and the await set and is sent DRAIN_QUEUE and OFF, its CLOSE_WINDOW waiting for the answer (log 76).
SHORT joins a sector left short. A phase with no more to wait for ends: DRIVE drains the participants left, in
ascending order (the model's choice, log 78, as SETTLE does), or goes to SETTLE at once with none; SETTLE does so with
its fall timer over, and ends the wave at once with none, the climb being DWELL only where RUN is both the state last
noticed and the part state (the model's choice, logs 9 and 62). The counts-changed notice goes out once no drain that
may credit is open (log 24). DRAIN_ANSWER of a participant's bar, the notice of the bar being owed still: an EXTEND of
a station barred in DRIVE is credited, and one of a station barred in SETTLE as MISSING or IN_DOUBT is credited as a
late stroke; any other answer changes no record. CLOSE_WINDOW follows, and counts-changed once no drain that may
credit is open, whether a stroke was credited or not (log 24; logs 51, 52 as for the judgements). COIL_FAULT_NOTICE of
a station that is not ACTIVE sets COIL alone; EVENT_REQUEST sets PROBE_LOST of any; an ABSENT station is among them
(the model's choice, log 68). In HALTED none of the three has an effect (log 36). -/
def Obligations.MarksBarsCoilFaultsAndLostProbes : Prop :=
  (∀ (s : State) (st : Station) (cause : MarkCause), acting s = true →
     let c : Instr := .markRequest st cause
     let r := recordOf s st
     let event : BitVec 9 := match cause with
       | .stray => 0x008#9
       | .deviation => 0x010#9
     let leaves (rec : StationRecord) (item : WaveItem) : Prop := ∃ u, leadsTo c s u
       ∧ recordOf u st = rec ∧ itemOf u st = item
       ∧ (∀ x, x ≠ st → recordOf u x = recordOf s x ∧ itemOf u x = itemOf s x)
       ∧ u.wvc.climb = s.wvc.climb ∧ u.wvc.holds = s.wvc.holds ∧ u.wvc.ending = s.wvc.ending ∧ u.wvc.drains = s.wvc.drains
       ∧ u.mail = (s.mail.erase c) ++ (if r.events ||| event = r.events then [] else [.attentionSetRequest .event])
     (s.wvc.view = .halted → leadsTo c s (took c s))
     ∧ (s.wvc.view ≠ .halted → r.service ≠ .active → leaves { r with events := r.events ||| event } (itemOf s st))
     ∧ (s.wvc.view ≠ .halted → r.service = .active → r.marks < 2 →
         leaves { r with marks := r.marks + 1, cleanRun := 0, events := r.events ||| event }
           { itemOf s st with marked := (itemOf s st).marked || isParticipant s st }))
  ∧ (∀ (s : State) (st : Station) (cause : MarkCause), acting s = true → s.wvc.view ≠ .halted →
       (recordOf s st).service = .active →
       let r := recordOf s st
       let event : BitVec 9 := match cause with
         | .stray => 0x008#9
         | .deviation => 0x010#9
       let asked (events more : BitVec 9) : List Instr :=
         if events ||| more = events then [] else [.attentionSetRequest .event]
       let takesPart : Bool := isParticipant s st
       let left : List Station :=
         allStations.filter fun x => inWave s && decide (x ≠ st) && (itemOf s x).participant
       let awaits : Prop := ∃ x, x ≠ st ∧ (itemOf s x).participant = true ∧ (itemOf s x).awaited = true
       let driveEnds : Prop := s.wvc.ending = none ∧ s.wvc.climb = .drive ∧ ¬awaits
       let settleEnds : Prop := s.wvc.ending = none ∧ s.wvc.climb = .settle ∧ ¬awaits ∧ s.wvc.fallTimer = none
       let drains : List Drain := s.wvc.drains ++
         [⟨st, if takesPart then (if s.wvc.climb = .drive then .barDrive else .barSettle) else .discard⟩]
       let open_ : Prop := ∃ d ∈ drains, d.purpose ≠ .discard
       let short : Bool := used s (sectorOf st) && decide (((stationsOf (sectorOf st)).filter fun x =>
         decide (x ≠ st) && decide ((recordOf s x).service = .active)).length < s.psv.rig.minActive)
       let falls : Bool := short && decide (s.wvc.climb = .dwell)
       let bars (c : Instr) (item : WaveItem) (rec : StationRecord) (told : List Instr) : Prop :=
         let items (x : Station) : WaveItem := if x = st then item else itemOf s x
         let sent : List Instr := (s.mail.erase c) ++ told ++ .drainQueue st ::
           (if takesPart then [.offValve st] else [.closeWindow st, .offValve st])
           ++ (if falls then [.attentionSetRequest .hold] else [])
         let leaves (climb : Climb) (ending : Option WaveEnding) (more : List Drain) (after : List Instr) (tells : Prop)
             (u : State) : Prop :=
           recordOf u st = rec ∧ (∀ x, x ≠ st → recordOf u x = recordOf s x) ∧ u.wvc.climb = climb ∧ u.wvc.ending = ending
             ∧ u.wvc.holds = (if short then s.wvc.holds ||| 0x10#6 else s.wvc.holds) ∧ u.wvc.drains = drains ++ more
             ∧ (tells → u.mail = sent ++ after ++ [.countsChanged] ∧ u.wvc.countsDirty = false)
             ∧ (¬tells → u.mail = sent ++ after ∧ u.wvc.countsDirty = true)
         (¬driveEnds → ¬settleEnds → ∃ u, leadsTo c s u ∧ (∀ x, itemOf u x = items x)
           ∧ leaves (if falls then .held else s.wvc.climb) s.wvc.ending [] [] (s.wvc.ending = none ∧ ¬open_) u)
         ∧ (driveEnds → ∃ u, leadsTo c s u ∧ u.wvc.driveTimer = none
           ∧ (∀ x, itemOf u x = { items x with awaited := false, unreported := false })
           ∧ ((left ≠ [] ∨ ∃ d ∈ s.wvc.drains, d.purpose = .driveEnd) →
             leaves .settle (some .driveEnd) (left.map fun x => ⟨x, .driveEnd⟩) (left.map Instr.drainQueue) False u)
           ∧ (left = [] → (∀ d ∈ s.wvc.drains, d.purpose ≠ .driveEnd) → leaves .settle none [] [] (¬open_) u
             ∧ u.wvc.settleTimer = some ⟨s.tmb.fineTime, 1000 * s.psv.rig.settleTimeout⟩
             ∧ u.wvc.fallTimer = some ⟨s.tmb.fineTime, s.psv.rig.fallRamp⟩))
         ∧ (settleEnds → ∃ u, leadsTo c s u ∧ u.wvc.settleTimer = none ∧ (∀ x, itemOf u x = items x)
           ∧ ((left ≠ [] ∨ ∃ d ∈ s.wvc.drains, d.purpose = .settleEnd) →
             leaves .settle (some .settleEnd) (left.map fun x => ⟨x, .settleEnd⟩)
               (.motionOffNotice :: left.map Instr.drainQueue) False u)
           ∧ (left = [] → (∀ d ∈ s.wvc.drains, d.purpose ≠ .settleEnd) →
             u.wvc.ending = none ∧ sent ++ [.motionOffNotice] <+: u.mail ∧ (r.retirePending = none → recordOf u st = rec)
             ∧ ((s.wvc.view = .run ∧ s.psv.state = .run ∧ u.wvc.holds = 0) → u.wvc.climb = .dwell)
             ∧ (¬(s.wvc.view = .run ∧ s.psv.state = .run ∧ u.wvc.holds = 0) → u.wvc.climb = .held)))
       let i := itemOf s st
       let out (marked : Bool) : WaveItem :=
         if takesPart then { i with marked := i.marked || marked, participant := false, awaited := false } else i
       (r.marks = 2 → bars (.markRequest st cause) (out true)
         { r with service := .barred, marks := 3, cleanRun := 0, events := r.events ||| event ||| 0x080#9 }
         (asked r.events event ++ asked (r.events ||| event) 0x080))
       ∧ bars (.coilFaultNotice st) (out false)
         { r with service := .barred, events := r.events ||| 0x020#9 ||| 0x080#9 } (asked r.events (0x020#9 ||| 0x080#9)))
  ∧ (∀ (s : State) (st : Station) (records : List EdgeRecord) (overflow : Bool), acting s = true → s.wvc.view ≠ .halted →
       s.wvc.countsDirty = true →
       let drainOf : WaveEnding → DrainPurpose
         | .driveEnd => .driveEnd
         | .settleEnd => .settleEnd
         | .powerDown => .powerDown
       (∀ e, s.wvc.ending = some e → ∃ d ∈ s.wvc.drains, d.purpose = drainOf e) →
       let c : Instr := .drainAnswer st records overflow
       let i := itemOf s st
       let r := recordOf s st
       let found := s.wvc.drains.find? fun d => decide (d.station = st)
       let leaves (p : DrainPurpose) (rec : StationRecord) : Prop :=
         let tells : Prop := s.wvc.ending = none ∧ ∀ d ∈ s.wvc.drains.erase ⟨st, p⟩, d.purpose = .discard
         ∃ u, leadsTo c s u
           ∧ u.wvc.drains = s.wvc.drains.erase ⟨st, p⟩ ∧ u.wvc.climb = s.wvc.climb ∧ u.wvc.wave = s.wvc.wave
           ∧ u.wvc.ending = s.wvc.ending ∧ u.wvc.holds = s.wvc.holds ∧ u.wvc.table = put s.wvc.table st rec
           ∧ (tells → u.mail = (s.mail.erase c) ++ [.closeWindow st, .countsChanged] ∧ u.wvc.countsDirty = false)
           ∧ (¬tells → u.mail = (s.mail.erase c) ++ [.closeWindow st] ∧ u.wvc.countsDirty = true)
       let credited (time : Word) : StationRecord := { r with
         count := min 65535 (r.count + 1), lastStroke := some (min 65535 (time - s.wvc.driveStart).toNat) }
       let doubtful : Prop := i.verdict = some .missing ∨ i.verdict = some .inDoubt
       let none_ : Prop := ∀ e ∈ records, e.kind = .retract
       (found = some ⟨st, .barDrive⟩ →
         (none_ → leaves .barDrive r)
         ∧ ∀ before time after, records = before ++ ⟨.extend, time⟩ :: after → (∀ e ∈ before, e.kind = .retract) →
           leaves .barDrive (credited time))
       ∧ (found = some ⟨st, .barSettle⟩ →
         ((none_ ∨ ¬doubtful) → leaves .barSettle r)
         ∧ ∀ before time after, records = before ++ ⟨.extend, time⟩ :: after → (∀ e ∈ before, e.kind = .retract) →
           doubtful → leaves .barSettle
             { credited time with inDoubt := r.inDoubt && decide (i.verdict ≠ some .inDoubt) }))
  ∧ (∀ (s : State) (st : Station), acting s = true →
       let c : Instr := .coilFaultNotice st
       let e : Instr := .eventRequest st
       let r := recordOf s st
       let leaves (c : Instr) (event : BitVec 9) : Prop := ∃ u, leadsTo c s u
         ∧ recordOf u st = { r with events := r.events ||| event } ∧ (∀ x, x ≠ st → recordOf u x = recordOf s x)
         ∧ u = { took c s with wvc := { s.wvc with table := u.wvc.table }, mail := u.mail }
         ∧ u.mail = (s.mail.erase c) ++ (if r.events ||| event = r.events then [] else [.attentionSetRequest .event])
       (s.wvc.view = .halted → leadsTo c s (took c s) ∧ leadsTo e s (took e s))
       ∧ (s.wvc.view ≠ .halted → (r.service ≠ .active → leaves c 0x020#9) ∧ leaves e 0x100#9))

/-- RISE_PERMISSION_ANSWER outside a wave rebuilds the hold reason set: DIRECTIVE for run request HOLD or rise rate 0,
TOP for the lowest ACTIVE count at the top, AGE and FILL by the answer, SHORT for a used sector with too few ACTIVE
stations, RESUME carried over. The climb then goes to HELD, DWELL or, by a DRIVE start, DRIVE, HOLD attention being
asked for as HELD is entered or left; it leaves HELD only in RUN, as the Wave Controller was last told (log 9) and as
the part state stands (log 62). A DRIVE start: the wave number goes up by 1, wrapping to 1; the dwell counter becomes
0; the participants are the ACTIVE stations within the level band of the lowest; they are the await set; the DRIVE
timer starts; the poller is told of the motion, and each participant is sent OPEN_WINDOW for both kinds with notices,
and OPEN, every OPEN_WINDOW before the first OPEN and each in ascending order (the model's choice, log 78). -/
def Obligations.HoldReasonsAreRebuiltAndAWaveStarts : Prop :=
  (∀ (s : State) (age fill : BitVec 16), acting s = true → s.wvc.view ≠ .halted →
     let c : Instr := .risePermissionAnswer age fill
     let rest : List Instr := s.mail.erase c
     let ask (b : Prop) [Decidable b] : List Instr := if b then [.attentionSetRequest .hold] else []
     let active (x : Station) : Prop := (recordOf s x).service = .active
     let climbs : Prop := s.wvc.view = .run ∧ s.psv.state = .run
     let due : Prop := s.wvc.values.riseRate ≠ 0 ∧ s.psv.rig.strokeLength * 3600000 / s.wvc.values.riseRate ≤ s.wvc.dwell
     (inWave s = true → leadsTo c s { took c s with wvc := { s.wvc with permission := false } })
     ∧ (inWave s = false → ∃ u, leadsTo c s u ∧ u.wvc.permission = false ∧ u.wvc.table = s.wvc.table
       ∧ (u.wvc.holds.getLsbD 0 = true ↔ s.wvc.values.runRequest = .hold ∨ s.wvc.values.riseRate = 0)
       ∧ (u.wvc.holds.getLsbD 1 = true ↔
           (∃ x, active x) ∧ ∀ x, active x → s.wvc.values.topElevation ≤ (recordOf s x).count * s.psv.rig.strokeLength)
       ∧ (u.wvc.holds.getLsbD 2 = true ↔ age ≠ 0)
       ∧ (u.wvc.holds.getLsbD 3 = true ↔ fill ≠ 0)
       ∧ (u.wvc.holds.getLsbD 4 = true ↔ ∃ k, used s k = true ∧ (activeIn s k).length < s.psv.rig.minActive)
       ∧ (u.wvc.holds.getLsbD 5 = s.wvc.holds.getLsbD 5)
       ∧ (¬climbs ∨ u.wvc.holds ≠ 0 → u.wvc.climb = .held ∧ u.mail = rest ++ ask (s.wvc.climb ≠ .held))
       ∧ (climbs → u.wvc.holds = 0 → ¬due →
           u.wvc.climb = .dwell ∧ u.mail = rest ++ ask (s.wvc.climb = .held))
       ∧ (climbs → u.wvc.holds = 0 → due → u.wvc.climb = .drive
           ∧ u = startDrive { took c s with wvc := { s.wvc with permission := false, holds := 0 } })))
  ∧ (∀ s : State,
       let t := startDrive s
       t.wvc.climb = .drive ∧ t.wvc.dwell = 0 ∧ t.wvc.table = s.wvc.table ∧ t.wvc.driveStart = s.tmb.fineTime
       ∧ t.wvc.waveNumber = (if s.wvc.waveNumber = 0xFFFFFFFF#32 then 1 else s.wvc.waveNumber + 1)
       ∧ t.wvc.driveTimer = some ⟨s.tmb.fineTime, 1000 * s.psv.rig.driveTimeout⟩
       ∧ (∀ st, itemOf t st = { WaveItem.clear with participant := chosen s st, awaited := chosen s st })
       ∧ (∀ st, chosen s st = true ↔ (recordOf s st).service = .active ∧
           ∀ x, (recordOf s x).service = .active → effectiveCount s st < effectiveCount s x + s.psv.rig.levelBand)
       ∧ t.mail = s.mail ++ (.motionOnNotice :: ((allStations.filter (chosen s)).map fun st => .openWindow st .both true)
           ++ (allStations.filter (chosen s)).map Instr.openValve)
           ++ (if s.wvc.climb = .held then [.attentionSetRequest .hold] else []))

/-- DWELL_EXPIRY begins a hold evaluation with a rise-permission request, unless one is outstanding; it has none of
this effect outside DWELL or while the rise rate is 0. The DRIVE timer ends DRIVE, the SETTLE timer ends SETTLE, and
the fall timer ends SETTLE if nothing is awaited: each participant is drained for judgement, in ascending order (the
model's choice, log 78), and at SETTLE end the poller is told that the motion is over (the motion-off notice first,
log 25); with no participant left the phase ends at once. A timer that does not run, or that comes when the phase is
over or a warning is settling the wave, has no effect (the model's choice, log 7). -/
def Obligations.DwellAndWaveTimersAct : Prop :=
  (∀ s : State, acting s = true → s.wvc.view ≠ .halted →
     (s.wvc.climb = .dwell → s.wvc.values.riseRate ≠ 0 → s.wvc.permission = false →
       leadsTo .dwellExpiry s { s with
         wvc := { s.wvc with permission := true }, mail := s.mail ++ [.risePermissionRequest] })
     ∧ ((s.wvc.climb ≠ .dwell ∨ s.wvc.values.riseRate = 0 ∨ s.wvc.permission = true) → leadsTo .dwellExpiry s s))
  ∧ (∀ s : State, acting s = true → s.wvc.view ≠ .halted →
       let ps := participants s
       let ended (c : Instr) : Prop := ∃ u, leadsTo c s u ∧ u.wvc.climb = .settle ∧ u.wvc.ending = some .settleEnd
         ∧ u.wvc.settleTimer = none ∧ u.wvc.fallTimer = none ∧ u.wvc.table = s.wvc.table
         ∧ u.mail = s.mail ++ .motionOffNotice :: ps.map Instr.drainQueue
       let finished (c : Instr) : Prop := ∃ u, leadsTo c s u ∧ u.wvc.ending = none ∧ (u.wvc.climb = .held ∨ u.wvc.climb = .dwell)
         ∧ u.wvc.settleTimer = none ∧ u.wvc.fallTimer = none ∧ .motionOffNotice ∈ u.mail
       let driving : Prop := s.wvc.climb = .drive ∧ s.wvc.driveTimer ≠ none ∧ s.wvc.ending = none
       let none_ (p : DrainPurpose) : Prop := ∀ d ∈ s.wvc.drains, d.purpose ≠ p
       let settling (timer : Option Timer) : Prop := s.wvc.climb = .settle ∧ timer ≠ none ∧ s.wvc.ending = none
       (driving → ps ≠ [] → ∃ u, leadsTo .driveTimerExpiry s u ∧ u.wvc.climb = .settle
         ∧ u.wvc.ending = some .driveEnd ∧ u.wvc.driveTimer = none ∧ u.wvc.table = s.wvc.table
         ∧ (∀ st, (itemOf u st).awaited = false ∧ (itemOf u st).unreported = false)
         ∧ u.mail = s.mail ++ ps.map Instr.drainQueue)
       ∧ (driving → ps = [] → none_ .driveEnd → ∃ u, leadsTo .driveTimerExpiry s u ∧ u.wvc.climb = .settle ∧ u.wvc.ending = none
         ∧ u.wvc.driveTimer = none ∧ u.wvc.settleTimer = some ⟨s.tmb.fineTime, 1000 * s.psv.rig.settleTimeout⟩
         ∧ u.wvc.fallTimer = some ⟨s.tmb.fineTime, s.psv.rig.fallRamp⟩)
       ∧ (¬driving → leadsTo .driveTimerExpiry s s)
       ∧ (settling s.wvc.settleTimer → (ps ≠ [] → ended .settleTimerExpiry) ∧ (ps = [] → none_ .settleEnd → finished .settleTimerExpiry))
       ∧ (¬settling s.wvc.settleTimer → leadsTo .settleTimerExpiry s s)
       ∧ (settling s.wvc.fallTimer →
           (awaitEmpty s = false → leadsTo .fallTimerExpiry s { s with wvc := { s.wvc with fallTimer := none } })
           ∧ (awaitEmpty s = true → (ps ≠ [] → ended .fallTimerExpiry) ∧ (ps = [] → none_ .settleEnd → finished .fallTimerExpiry)))
       ∧ (¬settling s.wvc.fallTimer → leadsTo .fallTimerExpiry s s))

/-- WAVE_STOP: a climb in HELD or DWELL is HELD and the wave's end is told at once; one in SETTLE goes on; one in
DRIVE goes to SETTLE, the participants that have not reported being noted, nobody being awaited, the DRIVE timer
cancelled and the participants drained in ascending order (log 78), or the timers of SETTLE begun at once where none
is left, unless a warning is settling the wave already. No wave starts from then on. WAVE_POWER_DOWN: the windows
opened for RECOVERY are drained and closed, the answers being discarded; in a wave each participant is sent
DRAIN_QUEUE and CLOSE_WINDOW for settlement, in ascending order too, the timers being stopped; with none in flight, or
with no participant left and no such drain open, retirements that wait are carried out and answered, counts that
changed are told, RESUME joins the hold reasons, the climb is HELD and the report is sent at once. A permission
request and the drains of a phase end stay open (log 71). DRAIN_ANSWER of a power-down drain. Before the DRIVE
judgement an EXTEND is credited and its want puts the station in doubt; after it a MISSING or IN_DOUBT station's
EXTEND is a late stroke, and nothing else counts (logs 51, 52). The last answer settles its own station so and then
ends the wave: retirements that wait are carried out and answered, counts that changed are told, the climb is HELD
with RESUME, and the report is sent last. -/
def Obligations.WavesStopAndSettleAtPowerDown : Prop :=
  (∀ s : State, acting s = true → s.wvc.view ≠ .halted →
     let view : PartState := if s.wvc.view = .run then .stopping else s.wvc.view
     let rest := s.mail.erase .waveStop
     let told : Bool := s.wvc.countsDirty && s.wvc.drains.all fun d => decide (d.purpose = .discard)
     (s.wvc.climb = .held → leadsTo .waveStop s { took .waveStop s with
       wvc := { s.wvc with view := view }, mail := rest ++ [.waveEnded] })
     ∧ (s.wvc.climb = .dwell → leadsTo .waveStop s { took .waveStop s with
       wvc := { s.wvc with view := view, climb := .held }, mail := rest ++ [.attentionSetRequest .hold, .waveEnded] })
     ∧ (s.wvc.climb = .settle → leadsTo .waveStop s { took .waveStop s with wvc := { s.wvc with view := view } })
     ∧ (s.wvc.climb = .drive → s.wvc.ending ≠ none →
         leadsTo .waveStop s { took .waveStop s with wvc := { s.wvc with view := view } })
     ∧ (s.wvc.climb = .drive → s.wvc.ending = none → ∃ u, leadsTo .waveStop s u
         ∧ u = { took .waveStop s with wvc := u.wvc, mail := u.mail }
         ∧ (∀ st, itemOf u st = { itemOf s st with
             awaited := false, unreported := (itemOf s st).participant && (itemOf s st).awaited })
         ∧ (participants s ≠ [] →
           u.wvc = { s.wvc with
             view := view, climb := .settle, driveTimer := none, ending := some .driveEnd, wave := u.wvc.wave
             drains := s.wvc.drains ++ (participants s).map fun st => (⟨st, .driveEnd⟩ : Drain) }
           ∧ u.mail = rest ++ (participants s).map Instr.drainQueue)
         ∧ (participants s = [] → (∀ d ∈ s.wvc.drains, d.purpose ≠ .driveEnd) →
           u.wvc = { s.wvc with
             view := view, climb := .settle, driveTimer := none, wave := u.wvc.wave
             settleTimer := some ⟨s.tmb.fineTime, 1000 * s.psv.rig.settleTimeout⟩
             fallTimer := some ⟨s.tmb.fineTime, s.psv.rig.fallRamp⟩
             countsDirty := s.wvc.countsDirty && !told }
           ∧ u.mail = rest ++ if told = true then [.countsChanged] else [])))
  ∧ (∀ s : State, acting s = true → s.wvc.view ≠ .halted →
       let c : Instr := .wavePowerDown
       let rest : List Instr := (s.mail.erase c) ++ s.wvc.recoveryWindows.flatMap fun st => [.drainQueue st, .closeWindow st]
       let discarded : List Drain := s.wvc.drains ++ s.wvc.recoveryWindows.map (fun st => (⟨st, .discard⟩ : Drain))
       let told : Prop := s.wvc.countsDirty = true ∧ ∀ d ∈ s.wvc.drains, d.purpose = .discard
       let held : List Instr := if s.wvc.climb = .held then [] else [.attentionSetRequest .hold]
       (inWave s = true → participants s ≠ [] → ∃ u, leadsTo c s u ∧ u.wvc.view = .powerDown
         ∧ u.wvc.ending = some .powerDown ∧ u.wvc.recoveryWindows = [] ∧ u.wvc.driveTimer = none ∧ u.wvc.settleTimer = none ∧ u.wvc.fallTimer = none
         ∧ u.wvc.climb = s.wvc.climb ∧ u.wvc.table = s.wvc.table ∧ u.wvc.permission = s.wvc.permission
         ∧ u.wvc.drains = discarded ++ (participants s).map (fun st => (⟨st, .powerDown⟩ : Drain))
         ∧ u.mail = rest ++ (participants s).flatMap fun st => [.drainQueue st, .closeWindow st])
       ∧ (inWave s = false ∨ (participants s = [] ∧ ∀ d ∈ s.wvc.drains, d.purpose ≠ .powerDown) →
           ∃ u, leadsTo c s u ∧ u.wvc.view = .powerDown ∧ u.wvc.ending = none ∧ u.wvc.climb = .held
             ∧ u.wvc.recoveryWindows = [] ∧ u.wvc.driveTimer = none ∧ u.wvc.settleTimer = none ∧ u.wvc.fallTimer = none
             ∧ u.wvc.permission = s.wvc.permission ∧ u.wvc.holds.getLsbD 5 = true
             ∧ rest <+: u.mail ∧ u.mail.getLast? = some .powerDownActionsDone
             ∧ (∀ x, (recordOf s x).retirePending = none → recordOf u x = recordOf s x)
             ∧ (∀ x slot, (recordOf s x).retirePending = some slot →
               recordOf u x = { recordOf s x with service := .retired, marks := 0, cleanRun := 0, retirePending := none }
               ∧ .orderOutcome slot (.outcome .done 0) ∈ u.mail
               ∧ ((recordOf s x).service = .active → [.drainQueue x, .closeWindow x, .offValve x] ⊆ u.mail
                 ∧ ((∀ d ∈ s.wvc.drains, d.purpose = .discard) → .countsChanged ∈ u.mail)))
             ∧ ((∀ x, (recordOf s x).retirePending = none) →
               u.wvc.holds = s.wvc.holds ||| 0x20#6 ∧ u.wvc.drains = discarded
               ∧ (told → u.mail = rest ++ [.countsChanged] ++ held ++ [.powerDownActionsDone])
               ∧ (¬told → u.mail = rest ++ held ++ [.powerDownActionsDone]))))
  ∧ (∀ (s : State) (st : Station) (records : List EdgeRecord) (overflow : Bool), acting s = true → s.wvc.view ≠ .halted →
       (s.wvc.drains.find? fun d => decide (d.station = st)) = some ⟨st, .powerDown⟩ → s.wvc.ending = some .powerDown →
       let c : Instr := .drainAnswer st records overflow
       let i := itemOf s st
       let r := recordOf s st
       let others : Bool := (s.wvc.drains.erase ⟨st, .powerDown⟩).any fun d => decide (d.purpose = .powerDown)
       let asked (rec : StationRecord) : List Instr := if rec.events = r.events then [] else [.attentionSetRequest .event]
       let told (rec : StationRecord) : Prop := (s.wvc.countsDirty = true ∨ r.count < rec.count)
         ∧ ∀ d ∈ s.wvc.drains.erase ⟨st, .powerDown⟩, d.purpose = .discard
       let leaves (rec : StationRecord) : Prop :=
         (others = true → ∃ u, leadsTo c s u
           ∧ u.wvc.drains = s.wvc.drains.erase ⟨st, .powerDown⟩ ∧ u.wvc.climb = s.wvc.climb ∧ u.wvc.wave = s.wvc.wave
           ∧ u.wvc.table = put s.wvc.table st rec ∧ u.mail = (s.mail.erase c) ++ asked rec)
         ∧ (others = false → ∃ u, leadsTo c s u ∧ u.wvc.ending = none ∧ u.wvc.climb = .held ∧ u.wvc.holds.getLsbD 5 = true
           ∧ u.mail.getLast? = some .powerDownActionsDone
           ∧ (∀ x, let r' := if x = st then rec else recordOf s x
             (r'.retirePending = none → recordOf u x = r')
             ∧ ∀ slot, r'.retirePending = some slot →
               recordOf u x = { r' with service := .retired, marks := 0, cleanRun := 0, retirePending := none }
               ∧ .orderOutcome slot (.outcome .done 0) ∈ u.mail)
           ∧ ((∀ x, (recordOf s x).retirePending = none) →
             u.wvc.holds = s.wvc.holds ||| 0x20#6
             ∧ (told rec → u.mail = (s.mail.erase c) ++ asked rec ++ [.countsChanged]
                 ++ (if s.wvc.climb = .held then [] else [.attentionSetRequest .hold]) ++ [.powerDownActionsDone])
             ∧ (¬told rec → u.mail = (s.mail.erase c) ++ asked rec
                 ++ (if s.wvc.climb = .held then [] else [.attentionSetRequest .hold]) ++ [.powerDownActionsDone])))
       let credited (time : Word) : StationRecord := { r with
         count := min 65535 (r.count + 1), lastStroke := some (min 65535 (time - s.wvc.driveStart).toNat) }
       let doubtful : Prop := i.verdict = some .missing ∨ i.verdict = some .inDoubt
       ((∀ e ∈ records, e.kind = .retract) →
         (i.verdict = none → leaves { r with inDoubt := true, events := r.events ||| 0x040#9 })
         ∧ (i.verdict ≠ none → leaves r))
       ∧ (∀ before time after, records = before ++ ⟨.extend, time⟩ :: after → (∀ e ∈ before, e.kind = .retract) →
         (i.verdict = none → leaves (credited time))
         ∧ (i.verdict = some .extended → leaves r)
         ∧ (doubtful → leaves { credited time with inDoubt := r.inDoubt && decide (i.verdict ≠ some .inDoubt) })))

/-- CLIMB_DIRECTIVE: the values are replaced and RESUME leaves the hold reasons; where RESUME was held, in RUN or
STOPPING, by the part state as it stands (log 62), WAKE is sent, and REST for every ACTIVE station that takes no part
in a wave, in ascending order (the model's choice, log 78). -/
def Obligations.ClimbDirectivesReplaceTheValues : Prop :=
  ∀ (s : State) (values : ClimbValues), acting s = true → s.wvc.view ≠ .halted →
    let c : Instr := .climbDirective values
    let w : Wvc := { s.wvc with values := values, holds := s.wvc.holds &&& ~~~0x20#6 }
    let standing := allStations.filter fun st => decide ((recordOf s st).service = .active) && !isParticipant s st
    ((s.wvc.holds.getLsbD 5 = false ∨ (s.psv.state ≠ .run ∧ s.psv.state ≠ .stopping)) →
      leadsTo c s { took c s with wvc := w })
    ∧ (s.wvc.holds.getLsbD 5 = true → (s.psv.state = .run ∨ s.psv.state = .stopping) →
      leadsTo c s { took c s with wvc := w, mail := (s.mail.erase c) ++ (.wake :: standing.map Instr.restValve) })

/-- REQUALIFY: BAD_ARGUMENT for no such station or count, WRONG_STATE for an ABSENT or ACTIVE station, BUSY during a
wave, BAD_ARGUMENT for a count out of the band of the ACTIVE stations, else DONE: the station is ACTIVE at that count,
without marks or doubt, STRAY_RESET, FAULT_RESET and REST are sent for it, and counts-changed, once no phase end and
no drain that may credit is open (log 24). RETIRE: BAD_ARGUMENT for no such station, WRONG_STATE for an ABSENT one,
DONE for a RETIRED one; an ACTIVE or BARRED one is RETIRED, without marks, its window drained and closed, its valve
off and counts-changed sent (log 24) if it was ACTIVE; SHORT joins where its sector is left short, a climb in DWELL
being HELD then; a participant's is TAKEN and put off, and a second one is BUSY. -/
def Obligations.StationsAreRequalifiedAndRetired : Prop :=
  (∀ (s : State) (slot : OrderSlot) (station count : Word), acting s = true → s.wvc.view ≠ .halted →
     let c : Instr := .requalify slot station count
     let answered (r : OrderOutcome) : Prop :=
       leadsTo c s { took c s with mail := (s.mail.erase c) ++ [.orderOutcome slot (.outcome r 0)] }
     let out : Prop := ∃ x, (recordOf s x).service = .active
     ((64 ≤ station.toNat ∨ 65535 < count.toNat) → answered .badArgument)
     ∧ ∀ st : Station, st.1 = station.toNat → count.toNat ≤ 65535 →
       let r := recordOf s st
       let e : Int := (count.toNat : Int) - s.wvc.values.trims[st]
       let inBand : Prop := (∀ x, (recordOf s x).service = .active → e < effectiveCount s x + s.psv.rig.levelBand)
         ∧ (out → ∃ x, (recordOf s x).service = .active ∧ effectiveCount s x ≤ e)
       ((r.service = .absent ∨ r.service = .active) → answered .wrongState)
       ∧ ((r.service = .barred ∨ r.service = .retired) → inWave s = true → answered .busy)
       ∧ ((r.service = .barred ∨ r.service = .retired) → inWave s = false → ¬inBand → answered .badArgument)
       ∧ ((r.service = .barred ∨ r.service = .retired) → inWave s = false → inBand →
           let tells : Bool := decide (s.wvc.ending = none) && s.wvc.drains.all fun d => decide (d.purpose = .discard)
           leadsTo c s { took c s with
             wvc := { s.wvc with
               table := put s.wvc.table st { r with
                 service := .active, count := count.toNat, marks := 0, cleanRun := 0, inDoubt := false, retirePending := none }
               countsDirty := !tells }
             mail := (s.mail.erase c) ++ [.strayReset st, .faultReset st, .restValve st]
               ++ (if tells then [.countsChanged] else []) ++ [.orderOutcome slot (.outcome .done 0)] }))
  ∧ (∀ (s : State) (slot : OrderSlot) (station : Word), acting s = true → s.wvc.view ≠ .halted →
       let c : Instr := .retire slot station
       let answered (a : OrderAnswer) (w : Wvc) : Prop :=
         leadsTo c s { took c s with wvc := w, mail := (s.mail.erase c) ++ [.orderOutcome slot a] }
       (64 ≤ station.toNat → answered (.outcome .badArgument 0) s.wvc)
       ∧ ∀ st : Station, st.1 = station.toNat →
         let r := recordOf s st
         (r.service = .absent → answered (.outcome .wrongState 0) s.wvc)
         ∧ (r.service = .retired → answered (.outcome .done 0) s.wvc)
         ∧ ((r.service = .active ∨ r.service = .barred) → isParticipant s st = true →
             (r.retirePending ≠ none → answered (.outcome .busy 0) s.wvc)
             ∧ (r.retirePending = none →
                 answered .taken { s.wvc with table := put s.wvc.table st { r with retirePending := some slot } }))
         ∧ ((r.service = .active ∨ r.service = .barred) → isParticipant s st = false →
             let acts : Bool := decide (r.service = .active)
             let short : Bool := used s (sectorOf st) && decide (((stationsOf (sectorOf st)).filter fun x =>
               decide (x ≠ st) && decide ((recordOf s x).service = .active)).length < s.psv.rig.minActive)
             let falls : Bool := short && decide (s.wvc.climb = .dwell)
             let owed : Bool := s.wvc.countsDirty || acts
             let tells : Bool := owed && decide (s.wvc.ending = none) && s.wvc.drains.all fun d => decide (d.purpose = .discard)
             leadsTo c s { took c s with
               wvc := { s.wvc with
                 table := put s.wvc.table st { r with service := .retired, marks := 0, cleanRun := 0 }
                 drains := if acts then s.wvc.drains ++ [⟨st, .discard⟩] else s.wvc.drains
                 holds := if short then s.wvc.holds ||| 0x10#6 else s.wvc.holds
                 climb := if falls then .held else s.wvc.climb
                 countsDirty := owed && !tells }
               mail := (s.mail.erase c) ++ (if acts then [.drainQueue st, .closeWindow st, .offValve st] else [])
                 ++ (if falls then [.attentionSetRequest .hold] else [])
                 ++ (if tells then [.countsChanged] else []) ++ [.orderOutcome slot (.outcome .done 0)] }))

/-- CLEAR_EVENTS of the three scopes: the named events of the station, of the sector or of the rig are cleared and the
order is DONE; an index or an event set that names nothing is BAD_ARGUMENT. The rig order is answered in its slot,
each owner clearing its event in the same step (log 44). -/
def Obligations.ClearEventsClearsWhatItNames : Prop :=
  ∀ (s : State) (slot : OrderSlot) (index events : Word), acting s = true →
    let station : Instr := .clearEventsStation slot index events
    let sector : Instr := .clearEventsSector slot index events
    let rig : Instr := .clearEventsRig slot events
    let answer (c : Instr) (r : OrderOutcome) : List Instr := (s.mail.erase c) ++ [.orderOutcome slot (.outcome r 0)]
    (s.wvc.view ≠ .halted →
      (64 ≤ index.toNat ∨ 512 ≤ events.toNat →
        leadsTo station s { took station s with mail := answer station .badArgument })
      ∧ ∀ st : Station, st.1 = index.toNat → events.toNat < 512 →
        leadsTo station s { setRecord s st { recordOf s st with
          events := (recordOf s st).events &&& ~~~ events.setWidth 9 } with mail := answer station .done })
    ∧ (s.ltr.view ≠ .halted →
      (16 ≤ index.toNat ∨ 16 ≤ events.toNat →
        leadsTo sector s { took sector s with mail := answer sector .badArgument })
      ∧ ∀ k : Sector, k.1 = index.toNat → events.toNat < 16 →
        leadsTo sector s { took sector s with
          ltr := { s.ltr with events := put s.ltr.events k (s.ltr.events[k] &&& ~~~ events.setWidth 4) }
          mail := answer sector .done })
    ∧ (s.exc.view ≠ .halted →
      let answers (r : OrderOutcome) (u : State) : Prop := leadsTo rig s u ∧ u.exc.orderImages[slot] = .answered
        ∧ u.exc.attn = s.exc.attn ||| 2#6 ∧ u.mail = s.mail.erase rig
        ∧ u.exc.misuse = s.exc.misuse ∧ u.exc.lastRejected = s.exc.lastRejected
        ∧ (windowCanonical s → readWord u.window (orderBase slot) = 3
          ∧ readWord u.window (orderBase slot + 0x14) = orderOutcomeCode (some r)
          ∧ readWord u.window (orderBase slot + 0x18) = 0
          ∧ ∀ a, a < orderBase slot ∨ (orderBase slot + 4 ≤ a ∧ a < orderBase slot + 0x14) ∨ orderBase slot + 0x1C ≤ a →
              readByte u.window a = readByte s.window a)
      (32 ≤ events.toNat → ∃ u, answers .badArgument u ∧ rigEvents u = rigEvents s ∧ u.tmb = s.tmb)
      ∧ (events.toNat < 32 → ∃ u, answers .done u
        ∧ rigEvents u = rigEvents s &&& ~~~ events.setWidth 5
        ∧ u.tmb = { s.tmb with clockValid := s.tmb.clockValid || events.getLsbD 2
                               clockLost := s.tmb.clockLost && !events.getLsbD 2 }))

/-- MOTION_ON_NOTICE sets the motion flag and the in-motion mark of every reading; MOTION_OFF_NOTICE clears the flag
alone; READING_MADE_ABSENT takes a reading away; SETTLE_HOLD_END ends the hold. TRANSACTION_BEGIN sends the query to
the next fitted station in ascending order, the lowest after the highest, and to none only where none is fitted;
QUERY_SENT releases the line and awaits the reply. The query is 5Ah, the station number, 01h and their check byte, the
CRC-8 of R84 by value: generator x^8 + x^2 + x + 1, initial value 0, each byte most significant bit first. -/
def Obligations.MotionMarksReadingsAndPollsGoRound : Prop :=
  (∀ (s : State) (st : Station), acting s = true →
     (s.lbp.view ≠ .halted → ∃ u, leadsTo .motionOnNotice s u ∧ u = { took .motionOnNotice s with lbp := u.lbp }
       ∧ u.lbp = { s.lbp with motion := true, readings := u.lbp.readings }
       ∧ ∀ x, readingOf u x = (readingOf s x).map fun r => { r with inMotion := true })
     ∧ (s.lbp.view ≠ .halted →
       leadsTo .motionOffNotice s { took .motionOffNotice s with lbp := { s.lbp with motion := false } })
     ∧ leadsTo (.readingMadeAbsent st) s { s with lbp := { s.lbp with readings := put s.lbp.readings st none } }
     ∧ leadsTo .settleHoldEnd s { s with lbp := { s.lbp with settleHold := none } })
  ∧ (∀ (s : State) (st : Station), acting s = true →
       let frame := [0x5A#8, BitVec.ofNat 8 st.1, 0x01#8, crc8 [BitVec.ofNat 8 st.1, 0x01#8]]
       (st.1 = 0 → frame = [0x5A#8, 0x00#8, 0x01#8, 0x07#8]) ∧ (st.1 = 1 → frame = [0x5A#8, 0x01#8, 0x01#8, 0x12#8])
       ∧ (nextPoll s = none ↔ ∀ x, fitted s x = false)
       ∧ (nextPoll s = some st → fitted s st = true ∧
         ((∃ p, s.lbp.pollPosition = some p ∧ p < st ∧ ∀ x, p < x → x < st → fitted s x = false)
           ∨ ((∀ p, s.lbp.pollPosition = some p → ∀ x, p < x → fitted s x = false) ∧ ∀ x, x < st → fitted s x = false)))
       ∧ (s.lbp.transaction = .idle → nextPoll s = some st → polls s.lbp.view = true →
           leadsTo .transactionBegin s { s with lbp := { s.lbp with
             transaction := .query st, pollPosition := some st, lastEnd := none, bus := frame
             roundHeard := s.lbp.roundHeard && !decide ((fittedStations s).head? = some st) } })
       ∧ ((s.lbp.transaction ≠ .idle ∨ nextPoll s = none ∨ polls s.lbp.view = false) → leadsTo .transactionBegin s s)
       ∧ (s.lbp.transaction = .query st → leadsTo .querySent s { s with lbp := { s.lbp with
           transaction := .await st .first s.tmb.fineTime, bus := [], incoming := none } })
       ∧ (s.lbp.transaction = .retry st → leadsTo .querySent s { s with lbp := { s.lbp with
           transaction := .await st .second s.tmb.fineTime, bus := [], incoming := none } })
       ∧ ((∀ x, s.lbp.transaction ≠ .query x ∧ s.lbp.transaction ≠ .retry x) → leadsTo .querySent s s))
  ∧ isCrc8 crc8

/-- REPLY_FRAME in time, by the bytes that have arrived in this frame and before it (log 61): fewer than seven are
kept; the seventh of a valid reply makes the miss run 0, has the round heard, replaces the reading with the elevation,
the status, the time and the motion flag, unless the settle hold runs, has a good one noticed in RECOVERY and checked
for deviation, and ends the transaction. Bytes outside AWAIT have no effect. REPLY_TIMEOUT, a framing error, bytes
that come late, or seven that make no valid reply: the first attempt is repeated; the second is a miss, which ends the
transaction, adds 1 to the miss run up to 8, asks for PROBE_LOST at the eighth, and sets PROBE_BUS at the end of a
round that heard nothing. A reply is valid when it is A5h, the address, a status, three bytes and the check byte,
the CRC-8 of R84 by value. Outside AWAIT a timeout has no effect. -/
def Obligations.RepliesReplaceReadingsOrAreMissed : Prop :=
  (∀ (s : State) (st : Station) (attempt : Attempt) (query : Word) (status e2 e1 e0 : Byte) (before bytes : List Byte),
     acting s = true →
     let a := BitVec.ofNat 8 st.1
     let r : Reading := ⟨e2 ++ e1 ++ e0, if status = 0 then .good else .cellFault, s.tmb.fineTime, s.lbp.motion⟩
     let c : Instr := .replyFrame bytes false
     let begins : Prop := s.lbp.incoming = none ∧ before = [] ∧ (s.tmb.fineTime - query).toNat ≤ 4
     let goesOn (begun : Word) : Prop := s.lbp.incoming = some ⟨begun, before⟩ ∧ (s.tmb.fineTime - begun).toNat ≤ 2
     let heard : State := { s with lbp := { s.lbp with missRuns := put s.lbp.missRuns st 0, roundHeard := true } }
     let stored (notice : List Instr) : State := { heard with
       lbp := { heard.lbp with readings := put s.lbp.readings st (some r) }, mail := s.mail ++ notice }
     let ended (t : State) : State := { t with lbp := { t.lbp with
       transaction := .idle, lastEnd := some s.tmb.fineTime, incoming := none } }
     (s.lbp.transaction = .await st attempt query →
       (before ++ bytes).take 7 = [0xA5#8, a, status, e2, e1, e0, crc8 [a, status, e2, e1, e0]] → (begins ∨ ∃ b, goesOn b) →
       (s.lbp.settleHold ≠ none → leadsTo c s (ended heard))
       ∧ (s.lbp.settleHold = none → status ≠ 0 → leadsTo c s (ended (stored [])))
       ∧ (s.lbp.settleHold = none → status = 0 → leadsTo c s (ended (checkDeviation st
           (stored (if s.psv.state = .recovery then [.readingNotice st] else []))))))
     ∧ (s.lbp.transaction = .await st attempt query → (before ++ bytes).length < 7 → bytes ≠ [] →
       (begins → leadsTo c s { s with lbp := { s.lbp with incoming := some ⟨s.tmb.fineTime, bytes⟩ } })
       ∧ ∀ b, goesOn b → leadsTo c s { s with lbp := { s.lbp with incoming := some ⟨b, before ++ bytes⟩ } })
     ∧ ((∀ x b w, s.lbp.transaction ≠ .await x b w) → ∀ bs f, leadsTo (.replyFrame bs f) s s))
  ∧ (∀ (s : State) (st : Station) (query : Word) (bytes : List Byte) (framing : Bool), acting s = true →
       let before : List Byte := match s.lbp.incoming with
         | none => []
         | some r => r.bytes
       let late : Prop := (s.lbp.incoming = none ∧ 4 < (s.tmb.fineTime - query).toNat)
         ∨ ∃ r, s.lbp.incoming = some r ∧ 2 < (s.tmb.fineTime - r.begun).toNat
       let a := BitVec.ofNat 8 st.1
       let valid (frame : List Byte) : Prop :=
         ∃ status e2 e1 e0, frame = [0xA5#8, a, status, e2, e1, e0, crc8 [a, status, e2, e1, e0]]
       let bad : Prop := framing = true ∨ late ∨ (7 ≤ (before ++ bytes).length ∧ ¬valid ((before ++ bytes).take 7))
       let fails (c : Instr) : Prop :=
         let run := s.lbp.missRuns[st]
         let missed : Lbp := { s.lbp with
           missRuns := put s.lbp.missRuns st (min 8 (run + 1)), transaction := .idle, lastEnd := some s.tmb.fineTime
           incoming := none }
         let lost : List Instr := if run + 1 = 8 then [.eventRequest st] else []
         let silent : Prop := (fittedStations s).getLast? = some st ∧ s.lbp.roundHeard = false
         (s.lbp.transaction = .await st .first query → leadsTo c s { s with lbp := { s.lbp with
           transaction := .retry st, incoming := none
           bus := [0x5A#8, BitVec.ofNat 8 st.1, 0x01#8, crc8 [BitVec.ofNat 8 st.1, 0x01#8]] } })
         ∧ (s.lbp.transaction = .await st .second query → ¬silent ∨ s.lbp.probeBus = true →
             leadsTo c s { s with lbp := missed, mail := s.mail ++ lost })
         ∧ (s.lbp.transaction = .await st .second query → silent → s.lbp.probeBus = false →
             leadsTo c s { s with lbp := { missed with probeBus := true }
                                  mail := s.mail ++ lost ++ [.attentionSetRequest .event] })
       fails .replyTimeout ∧ (bad → fails (.replyFrame bytes framing))
       ∧ (∀ frame, judgeReply st frame false = none ↔ ¬valid frame)
       ∧ ((∀ x b w, s.lbp.transaction ≠ .await x b w) → leadsTo .replyTimeout s s))
  ∧ isCrc8 crc8

/-- The deviation check, run in RUN for an ACTIVE station with a fresh reading when 4 such stations or more are
compared: out of tolerance opens the episode and asks for a mark, once; within tolerance closes it. The stations
compared and the scaled difference are given by value. It is part of taking a good reply (O44). -/
def Obligations.DeviationChecksOpenOneEpisode : Prop :=
  ∀ (s : State) (st : Station), isFresh s st = true →
    let out : Prop := (comparedStations s).length * s.psv.rig.probeTolerance
      < (scaledDifference s (comparedStations s) st).natAbs
    let episode (b : Bool) : State := { s with lbp := { s.lbp with episodes := put s.lbp.episodes st b } }
    (isActive s st = false → checkDeviation st s = episode false)
    ∧ (isActive s st = true → (s.psv.state ≠ .run ∨ (comparedStations s).length < 4) → checkDeviation st s = s)
    ∧ (isActive s st = true → s.psv.state = .run → 4 ≤ (comparedStations s).length →
        (¬out → checkDeviation st s = episode false)
        ∧ (out → s.lbp.episodes[st] = false →
            checkDeviation st s = send (.markRequest st .deviation) (episode true))
        ∧ (out → s.lbp.episodes[st] = true → checkDeviation st s = s))
    ∧ (∀ x, x ∈ comparedStations s ↔ (recordOf s x).service = .active ∧ ∃ r, readingOf s x = some r ∧ r.status = .good
        ∧ r.inMotion = false ∧ (s.tmb.fineTime - r.taken).toNat < 1000 * s.psv.rig.freshnessLimit)
    ∧ (comparedStations s).Nodup
    ∧ (let S := comparedStations s
       let n : Int := S.length
       let height (x : Station) : Int := ((readingOf s x).map fun r => r.elevation.toInt).getD 0
       let count (x : Station) : Int := (recordOf s x).count
       ∀ x, scaledDifference s S x = (n * height x - (S.map height).sum)
         - (s.psv.rig.strokeLength : Int) * (n * count x - (S.map count).sum))

/-- COUNTS_CHANGED recomputes the form bottom of each used sector with ACTIVE stations as the stroke length times the
mean of their counts, the whole part being kept; the layers at or below it leave from the bottom of the stack, but for
one a plan will merge into, and openings are then converted. An exit notice of each CONCRETE layer goes out, bottom
layer first, the sectors in ascending order (the model's choice, log 53); one EVENT request follows where sector
events become set (log 54); one deficit notice comes last when a bottom changed or a layer left, for all that the take
changes, openings converted included (log 73). A try of conversion looks at the opening at position 0 while it is due,
that is not above the fill top: it becomes a GAP layer on the fill top, with OPENING_SET, where it ends above the fill
top and the stack has room; it leaves with OPENING_MISSED where it ends at or below the fill top; it stays, and the
try ends, where the stack is full. -/
def Obligations.CountsChangedMovesTheFormBottoms : Prop :=
  (∀ s : State, acting s = true → s.ltr.view ≠ .halted →
     let c : Instr := .countsChanged
     let sum (k : Sector) : Nat := ((activeIn s k).map fun st => (recordOf s st).count).sum
     let bottom (k : Sector) : Int := if used s k = true ∧ activeIn s k ≠ []
       then ((s.psv.rig.strokeLength * sum k / (activeIn s k).length : Nat) : Int) else formBottom s k
     let gone (k : Sector) : List Layer := (stackOf s k).takeWhile (leaves s.ltr.plan k (bottom k))
     let rest (k : Sector) : List Layer := (stackOf s k).dropWhile (leaves s.ltr.plan k (bottom k))
     let converted (k : Sector) : List Layer × List Opening × BitVec 4 :=
       if gone k = [] ∨ (s.ltr.plan.map Plan.sector) = some k then (rest k, s.ltr.openings[k], 0)
       else convertOpenings (bottom k) (rest k) s.ltr.openings[k]
     let exits (k : Sector) : List Instr := (gone k).flatMap fun l => match l.kind with
       | .concrete x => [.exitNotice x.slot x.index s.tmb.siteSeconds]
       | .gap => []
     let sectors := allSectors.filter (used s)
     ∃ u, leadsTo c s u ∧ u = { s with ltr := u.ltr, mail := u.mail }
       ∧ u.ltr = { s.ltr with stack := u.ltr.stack, openings := u.ltr.openings, bottoms := u.ltr.bottoms
                              events := u.ltr.events }
       ∧ (∀ k, formBottom u k = bottom k)
       ∧ (∀ k, used s k = true → stackOf u k = (converted k).1 ∧ u.ltr.openings[k] = (converted k).2.1
           ∧ u.ltr.events[k] = s.ltr.events[k] ||| (converted k).2.2)
       ∧ (∀ k, used s k = false → stackOf u k = stackOf s k ∧ u.ltr.openings[k] = s.ltr.openings[k]
           ∧ u.ltr.events[k] = s.ltr.events[k])
       ∧ u.mail = (s.mail.erase c) ++ (sectors.flatMap fun k => exits k
             ++ (if s.ltr.events[k] ||| (converted k).2.2 = s.ltr.events[k] then [] else [.attentionSetRequest .event]))
           ++ (if (∀ k, bottom k = formBottom s k) ∧ (∀ k ∈ sectors, gone k = []) then [] else [.deficitNotice]))
  ∧ (∀ (bottom : Int) (stack : List Layer) (o : Opening) (os : List Opening),
       let top : Int := match stack.getLast? with
         | none => bottom
         | some l => l.bottom + l.thickness
       let with_ (stack : List Layer) (event : BitVec 4) : List Layer × List Opening × BitVec 4 :=
         let r := convertOpenings bottom stack os
         (r.1, r.2.1, r.2.2 ||| event)
       convertOpenings bottom stack [] = (stack, [], 0)
       ∧ (top < o.lower → convertOpenings bottom stack (o :: os) = (stack, o :: os, 0))
       ∧ (o.lower ≤ top → o.upper ≤ top → convertOpenings bottom stack (o :: os) = with_ stack 4)
       ∧ (o.lower ≤ top → top < o.upper → stack.length < 10 →
           convertOpenings bottom stack (o :: os) = with_ (stack ++ [⟨top, (o.upper - top).toNat, .gap⟩]) 2)
       ∧ (o.lower ≤ top → top < o.upper → 10 ≤ stack.length →
           convertOpenings bottom stack (o :: os) = (stack, o :: os, 0)))

/-- FEED_VIEW answers, for each sector, whether it is eligible (used, in the feed mask and the destination, its
deficit at least the minimum layer, and room in its stack), its deficit volume (0 for an unused sector, the model's
choice, log 85), its urgency, the open age of its top layer and whether that merges; the answer is kept in a field of
the model (log 13); a sector that wants concrete and is full has STACK_FULL set. RISE_PERMISSION_REQUEST is answered
with the used sectors where a rise of one stroke would expose a layer younger than its class's exit age (AGE) and
those where it would take the fill depth past the maximum (FILL). -/
def Obligations.FeedViewsAndRisePermissionNameTheSectors : Prop :=
  (∀ (s : State) (slot : BatchSlot) (destination : BitVec 16) (n : Nat), acting s = true → s.ltr.view ≠ .halted →
     let c : Instr := .feedView slot destination n
     let wants (k : Sector) : Prop := used s k = true ∧ s.ltr.feedMask.getLsbD k.1 = true
       ∧ destination.getLsbD k.1 = true
       ∧ (s.psv.rig.minLayer : Int) ≤ fillDepth s k - s.psv.rig.targetFill
     ∃ u v, leadsTo c s u ∧ u.ltr = { s.ltr with lastView := some v, events := u.ltr.events }
       ∧ (∀ k : Sector, v[k] = viewOf s slot destination k)
       ∧ (∀ k : Sector, v[k].eligible = true ↔ wants k ∧ (stackOf s k).length < 10)
       ∧ (∀ k : Sector, used s k = true → v[k].deficitVolume =
           (fillDepth s k - s.psv.rig.targetFill).toNat * s.psv.rig.areas[k] / 100)
       ∧ (∀ k : Sector, used s k = false → v[k].deficitVolume = 0)
       ∧ (∀ k : Sector, v[k].openAge = (topConcrete s k).map fun l => (s.tmb.siteSeconds - l.placed).toNat)
       ∧ (∀ k : Sector, v[k].merges = true ↔ ∃ l, topConcrete s k = some l ∧ l.slot = slot
           ∧ (s.tmb.siteSeconds - l.placed).toNat ≤ s.psv.rig.mergeWindow)
       ∧ (∀ k : Sector, v[k].urgent = true ↔ used s k = true ∧ ∃ l, topConcrete s k = some l
           ∧ (s.psv.rig.mixes[l.mix]).warnOpen ≤ (s.tmb.siteSeconds - l.placed).toNat)
       ∧ (∀ k : Sector, wants k → 10 ≤ (stackOf s k).length → u.ltr.events[k] = s.ltr.events[k] ||| 8#4)
       ∧ (∀ k : Sector, (¬wants k ∨ (stackOf s k).length < 10) → u.ltr.events[k] = s.ltr.events[k]))
  ∧ (∀ s : State, acting s = true → s.ltr.view ≠ .halted →
       ∃ age fill : BitVec 16,
         leadsTo .risePermissionRequest s { took .risePermissionRequest s with
           ltr := { s.ltr with age := age, fill := fill }
           mail := (s.mail.erase .risePermissionRequest) ++ [.risePermissionAnswer age fill] }
         ∧ ∀ k : Sector,
           (age.getLsbD k.1 = true ↔ used s k = true ∧ ∃ l ∈ stackOf s k, ∃ c, l.kind = .concrete c
             ∧ l.bottom < formBottom s k + s.psv.rig.strokeLength
             ∧ (s.tmb.siteSeconds - c.origin).toNat < (s.psv.rig.mixes[c.mix]).minExit)
           ∧ (fill.getLsbD k.1 = true ↔ used s k = true
             ∧ (s.psv.rig.maxFill : Int) < fillDepth s k + s.psv.rig.strokeLength))

/-- POUR_PLAN_REQUEST: refused while a plan is held or for a sector not used; a remainder merges into the top layer it
names; else the plan is a merge with a top layer of the same batch placed within the merge window, or a new layer
where the stack has room and the batch an index left. -/
def Obligations.PourPlansMergeOrMakeALayer : Prop :=
  ∀ (s : State) (r : PlanRequest), acting s = true → s.ltr.view ≠ .halted →
    let c : Instr := .pourPlanRequest r
    let answered (a : PlanAnswer) (p : Option Plan) : Prop := leadsTo c s { took c s with
      ltr := { s.ltr with plan := p }, mail := (s.mail.erase c) ++ [.pourPlanAnswer a] }
    let top := topConcrete s r.sector
    let merges (l : Concrete) : Prop := l.slot = r.slot ∧ (s.tmb.siteSeconds - l.placed).toNat ≤ s.psv.rig.mergeWindow
    ((s.ltr.plan ≠ none ∨ used s r.sector = false) → answered .refused s.ltr.plan)
    ∧ (s.ltr.plan = none → used s r.sector = true →
      (∀ i, r.remainder = some i →
        (∀ l, top = some l → l.slot = r.slot → l.index = i →
          answered .merge (some ⟨r.sector, r.slot, r.mix, r.origin, .merge i⟩))
        ∧ ((∀ l, top = some l → l.slot ≠ r.slot ∨ l.index ≠ i) → answered .refused none))
      ∧ (r.remainder = none →
        (∀ l, top = some l → merges l → answered .merge (some ⟨r.sector, r.slot, r.mix, r.origin, .merge l.index⟩))
        ∧ ((∀ l, top = some l → ¬merges l) →
          (∀ i, (stackOf s r.sector).length < 10 → r.newIndex = some i →
            answered .new (some ⟨r.sector, r.slot, r.mix, r.origin, .new i⟩))
          ∧ ((10 ≤ (stackOf s r.sector).length ∨ r.newIndex = none) → answered .refused none))))

/-- PLACEMENT under its plan: a NEW plan puts a layer of the volume's thickness on the fill top, a MERGE plan thickens
its layer and renews its placed time, and volume 0 places nothing; the plan ends and the placement is answered. Then
openings are converted, one EVENT request standing for the events that one try sets (log 54), the layers that have
come to the form bottom leave with their exit notices, openings are tried once more where a layer left (log 74), and
one deficit notice goes out. DROP_PLAN ends the plan in the same way, with nothing placed and no answer. A placement
that matches no plan places nothing. -/
def Obligations.PlacementsMakeOrThickenALayer : Prop :=
  ∀ (s : State) (k : Sector) (slot : BatchSlot) (volume : Nat), acting s = true → s.ltr.view ≠ .halted →
    let c : Instr := .placement k slot volume
    let ends (c : Instr) (x : Sector) (stack : List Layer) (answer : List Instr) : Prop :=
      let bottom := formBottom s x
      let due (l : Layer) : Bool := decide (l.bottom + l.thickness ≤ bottom)
      let first := convertOpenings bottom stack s.ltr.openings[x]
      let gone := first.1.takeWhile due
      let second : List Layer × List Opening × BitVec 4 :=
        if gone = [] then (first.1, first.2.1, 0) else convertOpenings bottom (first.1.dropWhile due) first.2.1
      let before := s.ltr.events[x]
      let between := before ||| first.2.2
      let after := between ||| second.2.2
      let asked (old new : BitVec 4) : List Instr := if new = old then [] else [.attentionSetRequest .event]
      let exits : List Instr := gone.flatMap fun l => match l.kind with
        | .concrete y => [.exitNotice y.slot y.index s.tmb.siteSeconds]
        | .gap => []
      leadsTo c s { took c s with
        ltr := { s.ltr with plan := none, stack := put s.ltr.stack x second.1, openings := put s.ltr.openings x second.2.1
                            events := put s.ltr.events x after }
        mail := (s.mail.erase c) ++ answer ++ asked before between ++ exits ++ asked between after ++ [.deficitNotice] }
    let placed (p : Plan) (stack : List Layer) (a : PlacementResult) : Prop :=
      s.ltr.plan = some p → p.sector = k → p.slot = slot → ends c k stack [.placementAnswer a]
    let thickness := volume * 100 / s.psv.rig.areas[k]
    (∀ mix origin i, volume ≠ 0 → placed ⟨k, slot, mix, origin, .new i⟩
      (stackOf s k ++ [⟨fillTop s k, thickness, .concrete ⟨slot, i, s.tmb.siteSeconds, origin, mix, false⟩⟩]) (.new i))
    ∧ (∀ mix origin i, volume ≠ 0 → placed ⟨k, slot, mix, origin, .merge i⟩
      ((stackOf s k).map fun l => match l.kind with
        | .concrete x => if x.slot = slot ∧ x.index = i then
            ⟨l.bottom, l.thickness + thickness, .concrete { x with placed := s.tmb.siteSeconds, jointReported := false }⟩
          else l
        | .gap => l) (.merged i))
    ∧ (∀ p, volume = 0 → placed p (stackOf s k) .nothingPlaced)
    ∧ ((∀ p, s.ltr.plan = some p → p.sector ≠ k ∨ p.slot ≠ slot) → leadsTo c s { took c s with
        mail := (s.mail.erase c) ++ [.placementAnswer .nothingPlaced] })
    ∧ (s.ltr.plan = none → leadsTo .dropPlan s (took .dropPlan s))
    ∧ (∀ p, s.ltr.plan = some p → ends .dropPlan p.sector (stackOf s p.sector) [])

/-- ADD_OPENING: BAD_ARGUMENT for no used sector or bounds out of order or too far apart, PAST below the fill top,
FULL with 2 openings pending, BAD_ARGUMENT where it overlaps one, else DONE: the opening joins the list in its place
in ascending order of from elevation, and a try of conversion follows unless a plan names the sector, asking for EVENT
once (log 54), with a deficit notice where a GAP layer joins, and none where openings are only missed (the model's
choice, log 86). DROP_OPENING: BAD_ARGUMENT for no such sector or position in its list; else DONE, the opening at that
position leaving the list. -/
def Obligations.OpeningsAreAddedAndDropped : Prop :=
  (∀ (s : State) (slot : OrderSlot) (sector lower upper : Word), acting s = true → s.ltr.view ≠ .halted →
     let c : Instr := .addOpening slot sector lower upper
     let answered (r : OrderOutcome) : Prop :=
       leadsTo c s { took c s with mail := (s.mail.erase c) ++ [.orderOutcome slot (.outcome r 0)] }
     let o : Opening := ⟨lower.toInt, upper.toInt⟩
     (16 ≤ sector.toNat → answered .badArgument)
     ∧ ∀ k : Sector, k.1 = sector.toNat →
       let bad : Prop := used s k = false ∨ o.upper ≤ o.lower ∨ (s.psv.rig.formHeight : Int) < o.upper - o.lower
       let clash : Prop := ∃ p ∈ s.ltr.openings[k], o.lower < p.upper ∧ p.lower < o.upper
       (bad → answered .badArgument)
       ∧ (¬bad → o.lower < fillTop s k → answered .past)
       ∧ (¬bad → fillTop s k ≤ o.lower → 2 ≤ (s.ltr.openings[k]).length → answered .full)
       ∧ (¬bad → fillTop s k ≤ o.lower → (s.ltr.openings[k]).length < 2 → clash → answered .badArgument)
       ∧ (¬bad → fillTop s k ≤ o.lower → (s.ltr.openings[k]).length < 2 → ¬clash → ∃ u, leadsTo c s u
           ∧ .orderOutcome slot (.outcome .done 0) ∈ u.mail
           ∧ (∀ x, x ≠ k → u.ltr.openings[x] = s.ltr.openings[x] ∧ stackOf u x = stackOf s x)
           ∧ (let list := (s.ltr.openings[k]).takeWhile (fun p => decide (p.lower ≤ o.lower))
               ++ o :: (s.ltr.openings[k]).dropWhile (fun p => decide (p.lower ≤ o.lower))
             let r : List Layer × List Opening × BitVec 4 := if (s.ltr.plan.map Plan.sector) = some k
               then (stackOf s k, list, 0) else convertOpenings (formBottom s k) (stackOf s k) list
             u.ltr = { s.ltr with stack := put s.ltr.stack k r.1, openings := put s.ltr.openings k r.2.1
                                  events := put s.ltr.events k (s.ltr.events[k] ||| r.2.2) }
             ∧ u.mail = (s.mail.erase c) ++ [.orderOutcome slot (.outcome .done 0)]
               ++ (if s.ltr.events[k] ||| r.2.2 = s.ltr.events[k] then [] else [.attentionSetRequest .event])
               ++ (if r.1.length = (stackOf s k).length then [] else [.deficitNotice]))
           ∧ (fillTop s k < o.lower → (∀ p ∈ s.ltr.openings[k], fillTop s k < p.lower) →
               o ∈ u.ltr.openings[k] ∧ (u.ltr.openings[k]).length = (s.ltr.openings[k]).length + 1
               ∧ stackOf u k = stackOf s k)))
  ∧ (∀ (s : State) (slot : OrderSlot) (sector position : Word), acting s = true → s.ltr.view ≠ .halted → stacksSound s →
       let c : Instr := .dropOpening slot sector position
       let answered (r : OrderOutcome) (l : Ltr) : Prop :=
         leadsTo c s { took c s with ltr := l, mail := (s.mail.erase c) ++ [.orderOutcome slot (.outcome r 0)] }
       (16 ≤ sector.toNat → answered .badArgument s.ltr)
       ∧ ∀ k : Sector, k.1 = sector.toNat →
         ((2 ≤ position.toNat ∨ (s.ltr.openings[k]).length ≤ position.toNat) → answered .badArgument s.ltr)
         ∧ (∀ a, position = 0 → s.ltr.openings[k] = [a] →
             answered .done { s.ltr with openings := put s.ltr.openings k [] })
         ∧ (∀ a b, position = 0 → s.ltr.openings[k] = [a, b] →
             answered .done { s.ltr with openings := put s.ltr.openings k [b] })
         ∧ (∀ a b, position = 1 → s.ltr.openings[k] = [a, b] →
             answered .done { s.ltr with openings := put s.ltr.openings k [a] }))

/-- The arbiter does nothing unless the gate is IDLE, no plan is asked for or being ended (log 27), the part is in
RUN, as the distributor has been told too (log 62), the feed is not paused, the flow is above 0 and the line is not
empty. The arbiter with a head to decide: the head is wasted when it is marked to-waste (CANCELLED) or has reached its
class's placement age (AGED); a remainder too small for a layer asks to merge into the last portion's layer; else a
plan is asked for in the first candidate sector, for the deficit volume, the remaining volume or the portion limit,
the least of the three; with no candidate nothing is asked. The request names the portion count as the new index, or
none when that is 8. The candidates are the sectors the feed view finds eligible, and with 8 portion entries only
those whose top layer merges. The candidate the arbiter takes is one of them, and stands before every other: an urgent
sector before one that is not, the greater open age among urgent ones, then the greater deficit volume, then the lower
sector number. -/
def Obligations.ArbiterDecidesTheHeadOfTheLine : Prop :=
  ((∀ s : State, s.fds.gate ≠ .idle ∨ s.fds.plan ≠ .none ∨ s.fds.view ≠ .run ∨ s.psv.state ≠ .run ∨ s.fds.paused = true
       ∨ s.fds.flow = 0 ∨ s.fds.line = [] → tryArbiter s = s)
   ∧ ∀ s : State, acting s = true → s.fds.view ≠ .halted →
       leadsTo .deficitNotice s (tryArbiter (took .deficitNotice s)))
  ∧ (∀ (s : State) (slot : BatchSlot) (rest : List BatchSlot) (r : BatchRecord),
       s.fds.gate = .idle → s.fds.plan = .none → s.fds.view = .run → s.psv.state = .run → s.fds.paused = false → 0 < s.fds.flow →
       s.fds.line = slot :: rest → batchOf s slot = some r → s.ltr.view ≠ .halted →
       let aged : Prop := (s.psv.rig.mixes[r.mix]).maxPlacement ≤ (s.tmb.siteSeconds - r.origin).toNat
       let run : GateRun := ⟨slot, r.remaining, s.tmb.fineTime, s.fds.flow,
         s.tmb.fineTime + natWord (r.remaining * 60000 / s.fds.flow), none, none⟩
       let waste (cause : WasteCause) : State := { s with fds := { s.fds with gate := .waste run cause } }
       let short (i : PortionIndex) (e : PortionEntry) : Prop := r.lastPortion = some i ∧ r.entries[i.1]? = some e
         ∧ r.remaining < s.psv.rig.minLayer * s.psv.rig.areas[e.sector] / 100
       (∀ i : PortionIndex, newIndexOf r = some i ↔ i.1 = r.entries.length)
       ∧ (r.toWaste = true → tryArbiter s = waste .cancelled)
       ∧ (r.toWaste = false → aged → tryArbiter s = waste .aged)
       ∧ (r.toWaste = false → ¬aged → ∀ i e, short i e →
           tryArbiter s = { s with
             fds := { s.fds with plan := .asked e.sector slot (min r.remaining s.psv.rig.maxPortion) true }
             mail := s.mail ++ [.pourPlanRequest ⟨e.sector, slot, r.mix, r.origin, none, some i⟩] })
       ∧ (r.toWaste = false → ¬aged → (∀ i e, ¬short i e) →
           (candidates s slot r = [] → (tryArbiter s).fds = s.fds)
           ∧ (∀ k v, firstCandidate (candidates s slot r) = some (k, v) →
               (tryArbiter s).fds = { s.fds with
                 plan := .asked k slot (min v.deficitVolume (min r.remaining s.psv.rig.maxPortion)) false }
               ∧ .pourPlanRequest ⟨k, slot, r.mix, r.origin, newIndexOf r, none⟩ ∈ (tryArbiter s).mail)))
  ∧ (∀ (s : State) (slot : BatchSlot) (r : BatchRecord),
       (∀ k v, (k, v) ∈ candidates s slot r ↔ v = viewOf s slot r.destination k ∧ v.eligible = true
         ∧ (r.entries.length < 8 ∨ v.merges = true))
       ∧ (firstCandidate (candidates s slot r) = none ↔ candidates s slot r = [])
       ∧ ∀ (k : Sector) (v : SectorView), firstCandidate (candidates s slot r) = some (k, v) →
         (k, v) ∈ candidates s slot r
         ∧ ∀ x w, (x, w) ∈ candidates s slot r → x ≠ k →
           (w.urgent = true → v.urgent = true)
           ∧ (v.urgent = w.urgent →
             (v.urgent = true → w.openAge.getD 0 ≤ v.openAge.getD 0)
             ∧ ((v.urgent = false ∨ v.openAge = w.openAge) →
                 w.deficitVolume ≤ v.deficitVolume ∧ (w.deficitVolume = v.deficitVolume → k < x))))

/-- POUR_PLAN_ANSWER: a granted plan opens the drop gate for its volume, the slot becoming POURING, if the head is
still the batch, not marked to-waste, and the arbiter is free; otherwise, a flow of 0 included (log 26), it is ended
with a placement of 0 and a stage of its own (log 27). A refused portion waits for the next try, whatever has become
of the head (log 55). A refused remainder goes to waste under the same conditions; without them the arbiter is tried
at once. Where nothing is then in hand, a feed-stopped report that is owed is sent. The part state counts as it stands
(log 62). -/
def Obligations.PlanAnswersOpenTheGate : Prop :=
  ∀ (s : State) (k : Sector) (slot : BatchSlot) (volume : Nat) (remainder : Bool), acting s = true →
    s.fds.view ≠ .halted → s.fds.plan = .asked k slot volume remainder →
    let run (v : Nat) : GateRun := ⟨slot, v, s.tmb.fineTime, s.fds.flow,
      s.tmb.fineTime + natWord (v * 60000 / s.fds.flow), none, none⟩
    let holds (r : BatchRecord) : Prop := s.fds.gate = .idle ∧ s.fds.view = .run ∧ s.psv.state = .run
      ∧ s.fds.paused = false ∧ 0 < s.fds.flow ∧ s.fds.line.head? = some slot ∧ batchOf s slot = some r ∧ r.toWaste = false
    let no : Instr := .pourPlanAnswer .refused
    let ended : State := { took no s with fds := { s.fds with plan := .none } }
    let reports (t : State) : Prop :=
      let reported : State := { t with fds := { t.fds with owesReport := false }, mail := t.mail ++ [.feedStopped] }
      (t.fds.owesReport = true → t.fds.gate = .idle → t.fds.plan = .none → leadsTo no s reported)
      ∧ ((t.fds.owesReport = false ∨ t.fds.gate ≠ .idle ∨ t.fds.plan ≠ .none) → leadsTo no s t)
    (∀ a r, a = .merge ∨ a = .new → holds r →
      leadsTo (.pourPlanAnswer a) s { took (.pourPlanAnswer a) s with
        fds := { s.fds with gate := .drop k (run volume), plan := .none
                            records := put s.fds.records slot (some { r with state := .pouring }) }
        mail := (s.mail.erase (.pourPlanAnswer a)) ++ [.slotWriteRequest (.batch slot (some .pouring) r.report)] })
    ∧ (∀ a, a = .merge ∨ a = .new → (∀ r, ¬holds r) →
      leadsTo (.pourPlanAnswer a) s { took (.pourPlanAnswer a) s with
        fds := { s.fds with plan := .ending }
        mail := (s.mail.erase (.pourPlanAnswer a)) ++ [.placement k slot 0] })
    ∧ (remainder = false → reports ended)
    ∧ (∀ r, remainder = true → holds r →
        leadsTo no s { ended with fds := { ended.fds with gate := .waste (run r.remaining) .remainder } })
    ∧ (remainder = true → (∀ r, ¬holds r) → reports (tryArbiter ended))

/-- GATE_CLOSE places the volume of the open drop gate. WASTE_GATE_CLOSE moves the volume from remaining to wasted
with its cause, the slot being written; a batch with nothing left leaves the line, and is SPENT when no entry lacks an
exit time. The arbiter is then tried, and a feed-stopped report that is owed is sent where that leaves nothing in
hand. PLACEMENT_ANSWER of a gate that has closed: NEW opens a portion entry with the volume and, as its placed time,
the site seconds of the take (log 66), MERGED adds the volume to its entry, NOTHING_PLACED moves no volume; the volume
moves from remaining to delivered, a batch with nothing left leaves the line, and the slot is written. Of a plan being
ended, NOTHING_PLACED ends it. The arbiter is then tried, and a report that is owed is sent where that leaves nothing
in hand. Any other answer has no effect. -/
def Obligations.GatesCloseAndTheRecordFollows : Prop :=
  (∀ s : State, acting s = true → s.fds.view ≠ .halted →
     let c : Instr := .wasteGateClose
     let goesOn (t : State) : Prop :=
       let u := tryArbiter t
       let reported : State := { u with fds := { u.fds with owesReport := false }, mail := u.mail ++ [.feedStopped] }
       (u.fds.owesReport = true → u.fds.gate = .idle → u.fds.plan = .none → leadsTo c s reported)
       ∧ ((u.fds.owesReport = false ∨ u.fds.gate ≠ .idle ∨ u.fds.plan ≠ .none) → leadsTo c s u)
     (∀ k g, s.fds.gate = .drop k g → g.passed = none → leadsTo .gateClose s { s with
       fds := { s.fds with gate := .drop k { g with passed := some g.volume } }
       mail := s.mail ++ [.placement k g.slot g.volume] })
     ∧ ((∀ k g, s.fds.gate = .drop k g → g.passed ≠ none) → leadsTo .gateClose s s)
     ∧ (∀ g cause, s.fds.gate = .waste g cause →
       (∀ r, batchOf s g.slot = some r →
         let r' : BatchRecord :=
           { r with wasted := r.wasted + g.volume, remaining := r.remaining - g.volume, cause := cause }
         let settled : BatchState := if 0 < r'.remaining then .lined
           else if r.entries.any (fun e => e.exit.isNone) then .casting else .spent
         goesOn { s with
           fds := { s.fds with
             gate := .idle, line := if r'.remaining = 0 then s.fds.line.erase g.slot else s.fds.line
             records := put s.fds.records g.slot (if settled = .spent then none else some { r' with state := settled }) }
           mail := s.mail ++ [.slotWriteRequest (.batch g.slot
             (if settled = r.state then none else some settled) r'.report)] })
       ∧ (batchOf s g.slot = none → goesOn { s with fds := { s.fds with gate := .idle } }))
     ∧ ((∀ g cause, s.fds.gate ≠ .waste g cause) → leadsTo .wasteGateClose s s))
  ∧ (∀ (s : State) (a : PlacementResult), acting s = true → s.fds.view ≠ .halted →
       let c : Instr := .placementAnswer a
       let goesOn (t : State) : Prop :=
         let u := tryArbiter t
         let reported : State := { u with fds := { u.fds with owesReport := false }, mail := u.mail ++ [.feedStopped] }
         (u.fds.owesReport = true → u.fds.gate = .idle → u.fds.plan = .none → leadsTo c s reported)
         ∧ ((u.fds.owesReport = false ∨ u.fds.gate ≠ .idle ∨ u.fds.plan ≠ .none) → leadsTo c s u)
       (∀ k g volume, s.fds.gate = .drop k g → g.passed = some volume →
         (∀ r, batchOf s g.slot = some r →
           let kept (r' : BatchRecord) : Prop :=
             let settled : BatchState := if 0 < r'.remaining then .lined
               else if r'.entries.any (fun e => e.exit.isNone) then .casting else .spent
             goesOn { took c s with
               fds := { s.fds with
                 gate := .idle, line := if r'.remaining = 0 then s.fds.line.erase g.slot else s.fds.line
                 records := put s.fds.records g.slot (if settled = .spent then none else some { r' with state := settled }) }
               mail := (s.mail.erase c) ++ [.slotWriteRequest (.batch g.slot
                 (if settled = r.state then none else some settled) r'.report)] }
           (∀ i, a = .new i → kept { r with
               entries := r.entries ++ [⟨k, .new, volume, s.tmb.siteSeconds, none⟩], lastPortion := some i
               delivered := r.delivered + volume, remaining := r.remaining - volume })
           ∧ (∀ i, a = .merged i → kept { r with
               entries := r.entries.modify i.1 fun e => { e with volume := e.volume + volume, disposition := .merged }
               lastPortion := some i, delivered := r.delivered + volume, remaining := r.remaining - volume })
           ∧ (a = .nothingPlaced → kept r))
         ∧ (batchOf s g.slot = none → goesOn { took c s with fds := { s.fds with gate := .idle } }))
       ∧ (∀ k g, s.fds.gate = .drop k g → g.passed = none → leadsTo c s (took c s))
       ∧ ((∀ k g, s.fds.gate ≠ .drop k g) →
         (s.fds.plan = .ending → a = .nothingPlaced → goesOn { took c s with fds := { s.fds with plan := .none } })
         ∧ ((s.fds.plan ≠ .ending ∨ a ≠ .nothingPlaced) → leadsTo c s (took c s))))

/-- FEED_STOP and FEED_POWER_DOWN report at once with nothing in hand, and otherwise owe the report, an open gate
being cut: what has passed a drop gate is placed, what has passed a waste gate is wasted, with the rest of the batch
remaining; of a drop gate that has closed and whose placement answer is still to come, nothing changes but that;
FEED_PAUSE_REQUEST pauses the feed and cuts nothing; FLOW_DIRECTIVE takes the flow, ends the pause and tries the
arbiter. -/
def Obligations.FeedStopsPausesAndGoesOn : Prop :=
  ∀ (s : State) (flow : Nat), acting s = true → s.fds.view ≠ .halted →
    let stopped : PartState := if s.fds.view = .run then .stopping else s.fds.view
    let ran (g : GateRun) : Bool := decide ((g.closeAt - g.openedAt).toNat ≤ (s.tmb.fineTime - g.openedAt).toNat)
    let reported (c : Instr) (view : PartState) : Prop :=
      (s.fds.gate = .idle → s.fds.plan = .none → leadsTo c s { took c s with
        fds := { s.fds with view := view, owesReport := false }, mail := (s.mail.erase c) ++ [.feedStopped] })
      ∧ (s.fds.gate = .idle → s.fds.plan ≠ .none → leadsTo c s { took c s with
        fds := { s.fds with view := view, owesReport := true } })
      ∧ (∀ k g, s.fds.gate = .drop k g → g.passed = none →
        let v := if ran g then g.volume else min g.volume (g.flow * (s.tmb.fineTime - g.openedAt).toNat / 60000)
        leadsTo c s { took c s with
          fds := { s.fds with view := view, owesReport := true, gate := .drop k { g with passed := some v, cut := some v } }
          mail := (s.mail.erase c) ++ [.placement k g.slot v] })
      ∧ (∀ k g, s.fds.gate = .drop k g → g.passed ≠ none → leadsTo c s { took c s with
          fds := { s.fds with view := view, owesReport := true } })
      ∧ (∀ g cause r, s.fds.gate = .waste g cause → batchOf s g.slot = some r →
        let v := if ran g then g.volume else min g.volume (g.flow * (s.tmb.fineTime - g.openedAt).toNat / 60000)
        let r' : BatchRecord := { r with wasted := r.wasted + v, remaining := r.remaining - v, cause := cause }
        let settled : BatchState := if 0 < r'.remaining then .lined
          else if r.entries.any (fun e => e.exit.isNone) then .casting else .spent
        leadsTo c s { took c s with
          fds := { s.fds with
            view := view, owesReport := decide (s.fds.plan ≠ .none), gate := .idle
            line := if r'.remaining = 0 then s.fds.line.erase g.slot else s.fds.line
            records := put s.fds.records g.slot (if settled = .spent then none else some { r' with state := settled }) }
          mail := (s.mail.erase c) ++ [.slotWriteRequest (.batch g.slot
            (if settled = r.state then none else some settled) r'.report)]
            ++ (if s.fds.plan = .none then [.feedStopped] else []) })
      ∧ (∀ g cause, s.fds.gate = .waste g cause → batchOf s g.slot = none → leadsTo c s { took c s with
          fds := { s.fds with view := view, owesReport := decide (s.fds.plan ≠ .none), gate := .idle }
          mail := (s.mail.erase c) ++ (if s.fds.plan = .none then [.feedStopped] else []) })
    reported .feedStop stopped ∧ reported .feedPowerDown .powerDown
    ∧ leadsTo .feedPauseRequest s { took .feedPauseRequest s with fds := { s.fds with paused := true } }
    ∧ leadsTo (.flowDirective flow) s (tryArbiter { took (.flowDirective flow) s with
        fds := { s.fds with flow := flow, paused := false } })

/-- CANCEL_BATCH: BAD_ARGUMENT for no such slot; a posted batch not yet taken is REFUSED as CANCELLED; one waiting in
the line is marked to-waste; one that pours is marked and its gate cut, the volume passed being the detail, 0 where
the gate has closed already (log 28); any other is NOT_CANCELLABLE. One handed over before a STOP or a warning is
carried out and answered in STOPPING and POWER_DOWN too (the model's choice, log 90). EXIT_NOTICE sets the exit time
of the entry it names, once; a batch with nothing remaining and no entry without an exit time is then SPENT and live
no more. A notice that names no such entry has no effect. -/
def Obligations.CancelsAndExitsSettleABatch : Prop :=
  (∀ (s : State) (order : OrderSlot) (batch : Word) (image : BatchState), acting s = true → s.fds.view ≠ .halted →
     let c : Instr := .cancelBatch order batch image
     let answered (f : Fds) (ms : List Instr) : Prop := leadsTo c s { took c s with fds := f, mail := (s.mail.erase c) ++ ms }
     let outcome (o : OrderOutcome) (d : Word) : Instr := .orderOutcome order (.outcome o d)
     let ran (g : GateRun) : Bool := decide ((g.closeAt - g.openedAt).toNat ≤ (s.tmb.fineTime - g.openedAt).toNat)
     (48 ≤ batch.toNat → answered s.fds [outcome .badArgument 0])
     ∧ ∀ slot : BatchSlot, slot.1 = batch.toNat →
       (batchOf s slot = none → image = .posted → answered s.fds
         [.slotWriteRequest (.batch slot (some .refused) ⟨.cancelled, s.tmb.siteSeconds, 0, 0, 0, .none, false, []⟩),
          outcome .done 0])
       ∧ (batchOf s slot = none → image ≠ .posted → answered s.fds [outcome .notCancellable 0])
       ∧ ∀ r, batchOf s slot = some r →
         let marked : Fds := { s.fds with records := put s.fds.records slot (some { r with toWaste := true }) }
         let write : Instr := .slotWriteRequest (.batch slot none { r.report with toWaste := true })
         (r.state = .lined → s.fds.line.head? ≠ some slot → answered marked [write, outcome .done 0])
         ∧ (r.state = .lined → s.fds.line.head? = some slot →
             leadsTo c s (tryArbiter { took c s with fds := marked, mail := (s.mail.erase c) ++ [write, outcome .done 0] }))
         ∧ (r.state = .pouring → ∀ k g, s.fds.gate = .drop k g → g.slot = slot → g.passed = none →
             let v := if ran g then g.volume else min g.volume (g.flow * (s.tmb.fineTime - g.openedAt).toNat / 60000)
             answered { marked with gate := .drop k { g with passed := some v, cut := some v } }
               [write, .placement k slot v, outcome .done (natWord v)])
         ∧ (r.state = .pouring → (∀ k g, s.fds.gate = .drop k g → g.slot = slot → g.passed ≠ none) →
             answered marked [write, outcome .done 0])
         ∧ (r.state ≠ .lined → r.state ≠ .pouring → answered s.fds [outcome .notCancellable 0]))
  ∧ (∀ (s : State) (slot : BatchSlot) (i : PortionIndex) (time : Word), acting s = true → s.fds.view ≠ .halted →
       let c : Instr := .exitNotice slot i time
       (∀ r e, batchOf s slot = some r → r.entries[i.1]? = some e → e.exit = none →
         let r' : BatchRecord := { r with entries := r.entries.modify i.1 fun x => { x with exit := some time } }
         let spent : Prop := r.remaining = 0 ∧ ∀ x ∈ r'.entries, x.exit ≠ none
         (spent → leadsTo c s { took c s with
           fds := { s.fds with records := put s.fds.records slot none }
           mail := (s.mail.erase c) ++ [.slotWriteRequest (.batch slot (some .spent) r'.report)] })
         ∧ (¬spent → leadsTo c s { took c s with
           fds := { s.fds with records := put s.fds.records slot (some r') }
           mail := (s.mail.erase c) ++ [.slotWriteRequest (.batch slot none r'.report)] }))
       ∧ ((batchOf s slot = none ∨ ∃ r, batchOf s slot = some r ∧ ∀ e, r.entries[i.1]? = some e → e.exit ≠ none) →
           leadsTo c s (took c s)))

/-- BATCH_HANDOVER of a slot POSTED no more passes it by. One on its way at a STOP or a warning is judged in STOPPING,
in CONFIG or in POWER_DOWN too, and after a STOP the next candidates as well (the model's choice, log 88). Of a slot
still POSTED: with 4 batches in the line nothing is taken and no further candidate is handed over; a batch that fails
a check is REFUSED with the reason of the first it fails; one that passes joins the tail of the line with its record
set up and its slot written LINED, and the arbiter is tried. After a take, a refusal or a passing by, the next
candidate that is POSTED still is handed over (log 12). -/
def Obligations.HandoversTakeOrRefuseABatch : Prop :=
  ∀ (s : State) (slot : BatchSlot) (q : BatchRequest), acting s = true → s.fds.view ≠ .halted →
    let c : Instr := .batchHandover slot q
    let ready (w : State) (x : BatchSlot) : Prop := w.exc.batchImages[x] = .posted
      ∧ ∀ state report, .slotWriteRequest (.batch x (some state) report) ∉ w.mail
    let goesOn (w : State) : Prop := ∃ u, leadsTo c s u
      ∧ ((∀ x ∈ w.exc.candidates, ¬ready w x) → u = { w with exc := { w.exc with candidates := [] } })
      ∧ ∀ before x rest, w.exc.candidates = before ++ x :: rest → (∀ y ∈ before, ¬ready w y) → ready w x →
        let word (o : Nat) : Word := readWord w.window (0x800 + 256 * x.1 + o)
        u = { w with
          exc := { w.exc with candidates := rest, batchHanded := put w.exc.batchHanded x true }
          mail := w.mail ++ [.batchHandover x
            ⟨word 0x04, word 0x08, word 0x0C, word 0x10, (word 0x14).setWidth 16⟩] }
    let refused (reason : Reason) : Prop := goesOn { took c s with mail := (s.mail.erase c) ++ [.slotWriteRequest
      (.batch slot (some .refused) ⟨reason, s.tmb.siteSeconds, 0, 0, 0, .none, false, []⟩)] }
    let fresh : Prop := s.fds.lastPost.toNat < q.postNumber.toNat
    let volumeOk : Prop := 50 ≤ q.volume.toNat ∧ q.volume.toNat ≤ 12000
    let ageOk : Prop := q.ageAtPost.toNat ≤ 7200
    (¬ready (took c s) slot → goesOn { took c s with
      exc := { s.exc with batchHanded := put s.exc.batchHanded slot false } })
    ∧ (ready (took c s) slot → 4 ≤ s.fds.line.length → leadsTo c s { took c s with
        exc := { s.exc with candidates := [], batchHanded := put s.exc.batchHanded slot false } })
    ∧ (ready (took c s) slot → s.fds.line.length < 4 →
      (¬fresh → refused .stale)
      ∧ (fresh → ¬volumeOk → refused .badVolume)
      ∧ (fresh → volumeOk → ¬ageOk → refused .badAge)
      ∧ (fresh → volumeOk → ageOk → 4 ≤ q.mixClass.toNat → refused .badMix)
      ∧ ∀ m : MixClass, fresh → volumeOk → ageOk → m.1 = q.mixClass.toNat →
        let named : Prop := ∃ k, used s k = true ∧ q.destination.getLsbD k.1 = true
        (¬named → refused .badMask)
        ∧ (named → (s.psv.rig.mixes[m]).maxPlacement ≤ q.ageAtPost.toNat → refused .tooOld)
        ∧ (named → q.ageAtPost.toNat < (s.psv.rig.mixes[m]).maxPlacement →
          goesOn (tryArbiter { took c s with
            fds := { s.fds with
              records := put s.fds.records slot (some ⟨q.postNumber, q.volume.toNat, q.ageAtPost.toNat, m, q.destination,
                s.tmb.siteSeconds, s.tmb.siteSeconds - q.ageAtPost, 0, 0, q.volume.toNat, .none, false, [], none, .lined⟩)
              lastPost := q.postNumber, line := s.fds.line ++ [slot] }
            mail := (s.mail.erase c) ++ [.slotWriteRequest (.batch slot (some .lined)
              ⟨.none, s.tmb.siteSeconds, 0, 0, q.volume.toNat, .none, false, []⟩)] })))

/-- The attention registers: a written 1 clears its source; the mask and the pace take the written value, a pace above
16 being 16; a request sets its source; the ATTN line follows. A write to a register that ignores writes changes
nothing, nor does one to an offset beyond the six registers (the model's choice, log 77). FEED_MASK_DIRECTIVE gives
the Layer Tracker its mask. HOST_WINDOW_WRITE, in every part state and while held in reset: the word written reads
back and every other word reads as before; the unused areas 0300h to 03FFh, 0600h to 07FFh and 3800h to 3FFFh keep
reading 0. An offset that names no word of the window faults (the model's choice, log 30), and without power a write
has no effect (log 31). The port registers read by their layouts, bits that hold nothing 0 (those of CONTROL and STATE
by the model's choice, log 89): ID with its revision a free value (log 3), CONTROL, STATE, ATTN, ATTN_MASK and
ATTN_PACE; STATE reads a free value while the part is held in reset (log 4), and without power, or at any other
offset, no register reads (log 34). The codes of commands, outcomes, part states, climb states, bench results and halt
causes are those of 11, Codes. -/
def Obligations.RegisterAndWindowWritesTakeEffect : Prop :=
  (∀ (s : State) (value : Word), acting s = true →
     let attn (c : Instr) (a m : BitVec 6) : State := { took c s with exc := { s.exc with
       attn := a, attnMask := m, attnLine := decide (a &&& ~~~m ≠ 0) } }
     leadsTo (.attnWrite value) s { s with exc := { s.exc with
         attn := s.exc.attn &&& ~~~ value.setWidth 6
         attnLine := decide (s.exc.attn &&& ~~~ value.setWidth 6 &&& ~~~s.exc.attnMask ≠ 0) } }
     ∧ leadsTo (.attnMaskWrite value) s { s with exc := { s.exc with
         attnMask := value.setWidth 6, attnLine := decide (s.exc.attn &&& ~~~ value.setWidth 6 ≠ 0) } }
     ∧ leadsTo (.attnPaceWrite value) s { s with exc := { s.exc with attnPace := min 16 (value.toNat % 32) } }
     ∧ (∀ source (position : Nat), (source, position) ∈ [(AttnSource.batch, 0), (.order, 1), (.event, 2), (.hold, 3),
           (.publish, 4), (.fault, 5)] →
         leadsTo (.attentionSetRequest source) s
           (attn (.attentionSetRequest source) (s.exc.attn ||| (1#6 <<< position)) s.exc.attnMask))
     ∧ (∀ offset, exec (.ignoredRegisterWrite offset value) s = .next s)
     ∧ (∀ mask, s.ltr.view ≠ .halted → leadsTo (.feedMaskDirective mask) s { took (.feedMaskDirective mask) s with
         ltr := { s.ltr with feedMask := mask } }))
  ∧ (∀ (s : State) (offset : Nat) (value : Word), windowCanonical s →
       let unused (o : Nat) : Prop := (0x300 ≤ o ∧ o < 0x400) ∨ (0x600 ≤ o ∧ o < 0x800) ∨ (0x3800 ≤ o ∧ o < 0x4000)
       (∀ o, unused o → o % 4 = 0 → s.power ≠ .off → s.readWindow o = some 0)
       ∧ ((0x8000 ≤ offset ∨ offset % 4 ≠ 0) → exec (.hostWindowWrite offset value) s = .fault .noSuchWord)
       ∧ (offset < 0x8000 → offset % 4 = 0 → s.power = .off → exec (.hostWindowWrite offset value) s = .next s)
       ∧ (offset < 0x8000 → offset % 4 = 0 → s.power ≠ .off → ∃ t, exec (.hostWindowWrite offset value) s = .next t
           ∧ t = { s with window := t.window }
           ∧ (unused offset → t = s) ∧ (¬unused offset → t.readWindow offset = some value)
           ∧ ∀ o, o ≠ offset → t.readWindow o = s.readWindow o))
  ∧ (∀ s : State,
       let one (b : Bool) : Nat := if b = true then 1 else 0
       let shows (offset : Nat) (fields : List (Nat × Nat × Nat)) : Prop := ∃ w, s.readPort offset = some w
         ∧ ∀ low width value, (low, width, value) ∈ fields → w.toNat / 2 ^ low % 2 ^ width = value
       (s.power = .off → ∀ offset, s.readPort offset = none)
       ∧ (s.power ≠ .off →
         (∀ offset, offset ∉ [0x00, 0x04, 0x08, 0x0C, 0x10, 0x14] → s.readPort offset = none)
         ∧ shows 0x00 [(0, 8, Config.revision.toNat), (8, 8, 0x40), (16, 16, 0x3C71)]
         ∧ shows 0x04 [(0, 8, s.psv.control.code.toNat), (8, 8, commandOutcomeCode s.psv.control.outcome),
             (16, 12, s.psv.control.detail % 4096), (28, 2, 0), (30, 1, one s.psv.control.dropped),
             (31, 1, one s.psv.control.waiting)]
         ∧ shows 0x0C [(0, 6, s.exc.attn.toNat), (6, 26, 0)] ∧ shows 0x10 [(0, 6, s.exc.attnMask.toNat), (6, 26, 0)]
         ∧ (paceSound s → shows 0x14 [(0, 5, s.exc.attnPace), (5, 27, 0)]))
       ∧ (s.power = .on → shows 0x08 [(0, 8, partStateCode s.psv.state), (8, 8, climbCode s.wvc.climb),
           (16, 8, benchCode s.psv.bench), (24, 4, haltCode s.psv.haltCause), (28, 1, one s.tmb.clockValid),
           (29, 1, one (decide (s.psv.lineMode = .hold))), (30, 2, 0)])
       ∧ (∀ cause, s.power = .held cause → s.readPort 0x08 = some Config.stateInReset))
  ∧ ([Command.start, .stop, .clear, .reset, .lineModeRestart, .lineModeHold].map commandCode = [1#8, 2#8, 3#8, 4#8, 5#8, 6#8]
     ∧ [CommandOutcome.done, .waiting, .wrongState, .busy, .rigInvalid, .rigChanged, .unknown].map commandOutcomeCode
         = [0, 1, 2, 3, 4, 5, 6]
     ∧ [PartState.bench, .config, .run, .stopping, .powerDown, .recovery, .halted].map partStateCode = [1, 2, 3, 4, 5, 6, 7]
     ∧ [Climb.held, .dwell, .drive, .settle].map climbCode = [0, 1, 2, 3]
     ∧ [BenchResult.none, .running, .pass, .clockFault, .matrixFault, .storeFault].map benchCode = [0, 1, 2, 3, 4, 5]
     ∧ [none, some StoreFailure.read, some .write].map haltCode = [0, 1, 2])

/-- SLOT_WRITE_REQUEST of a batch writes the report by its layout: reason, take time, delivered, wasted, remaining,
waste cause, to-waste flag and portion count from 20h, and five words for each portion entry from 40h, 0 beyond the
portion count; of an order, its outcome at 14h and its detail at 18h. Where it changes, the state word is written by
its code, the image following: a batch that becomes SPENT or REFUSED sets BATCH and an order that is ANSWERED sets
ORDER. Every other byte reads as before, those of the request among them. ORDER_OUTCOME writes the outcome, its detail
and ANSWERED, or TAKEN with neither (log 38). -/
def Obligations.SlotWritesFillTheSlot : Prop :=
  ∀ s : State, acting s = true → s.exc.view ≠ .halted → windowCanonical s →
    let batchCode (state : BatchState) : Word := match state with
      | .free => 0 | .posted => 1 | .lined => 2 | .pouring => 3 | .casting => 4 | .spent => 5 | .refused => 6
    let orderCode (state : OrderState) : Word := match state with
      | .free => 0 | .posted => 1 | .taken => 2 | .answered => 3
    let outcomeCode (result : OrderOutcome) : Word := match result with
      | .done => 1 | .badKind => 2 | .badArgument => 3 | .wrongState => 4 | .busy => 5 | .notCancellable => 6
      | .past => 7 | .full => 8
    let number (n : Nat) : Word := BitVec.ofNat 32 n
    let flag (b : Bool) : Nat := if b then 1 else 0
    (∀ (slot : BatchSlot) (state : Option BatchState) (report : BatchReport),
      let c : Instr := .slotWriteRequest (.batch slot state report)
      let base : Nat := 0x800 + 256 * slot.1
      let reason : Word := match report.reason with
        | .none => 0 | .stale => 1 | .badVolume => 2 | .badAge => 3 | .badMix => 4 | .badMask => 5 | .tooOld => 6
        | .cancelled => 7
      let cause : Word := match report.cause with
        | .none => 0 | .aged => 1 | .cancelled => 2 | .remainder => 3
      let disposition (d : Disposition) : Nat := match d with
        | .new => 1 | .merged => 2
      ∃ u, leadsTo c s u ∧ u = { took c s with exc := u.exc, window := u.window }
        ∧ (let word (o : Nat) : Word := readWord u.window (base + o)
          [word 0x20, word 0x24, word 0x28, word 0x2C, word 0x30, word 0x34, word 0x38, word 0x3C]
            = [reason, report.takeTime, number report.delivered, number report.wasted, number report.remaining, cause,
                number (flag report.toWaste), number report.entries.length]
          ∧ (∀ j e, j < 8 → report.entries[j]? = some e →
              [word (0x40 + 20 * j), word (0x44 + 20 * j), word (0x48 + 20 * j), word (0x4C + 20 * j), word (0x50 + 20 * j)]
                = [number e.sector.1, number (disposition e.disposition + 256 * flag e.exit.isSome), number e.volume,
                    e.firstPlaced, e.exit.getD 0])
          ∧ ∀ j i, j < 8 → report.entries.length ≤ j → i < 5 → word (0x40 + 20 * j + 4 * i) = 0)
        ∧ (∀ a, (a < base ∨ (base + 0x04 ≤ a ∧ a < base + 0x20) ∨ base + 0xE0 ≤ a) →
            readByte u.window a = readByte s.window a)
        ∧ (∀ st, state = some st → readWord u.window base = batchCode st
            ∧ u.exc.batchImages[slot] = st ∧ (∀ x, x ≠ slot → u.exc.batchImages[x] = s.exc.batchImages[x])
            ∧ ((st = .spent ∨ st = .refused) → u.exc.attn = s.exc.attn ||| 1#6)
            ∧ (st ≠ .spent → st ≠ .refused → u.exc.attn = s.exc.attn))
        ∧ (state = none → u.exc = s.exc ∧ readWord u.window base = readWord s.window base))
    ∧ (∀ (slot : OrderSlot) (result : OrderOutcome) (detail : Word),
      let c : Instr := .orderOutcome slot (.outcome result detail)
      let base : Nat := 0x400 + 32 * slot.1
      ∃ u, leadsTo c s u ∧ u.exc.orderImages[slot] = .answered ∧ u.exc.attn = s.exc.attn ||| 2#6
        ∧ readWord u.window base = 3 ∧ readWord u.window (base + 0x14) = outcomeCode result
        ∧ readWord u.window (base + 0x18) = detail
        ∧ ∀ a, a < base ∨ (base + 4 ≤ a ∧ a < base + 0x14) ∨ base + 0x1C ≤ a →
            readByte u.window a = readByte s.window a)
    ∧ (∀ slot : OrderSlot,
      let base : Nat := 0x400 + 32 * slot.1
      ∃ u, leadsTo (.orderOutcome slot .taken) s u ∧ u.exc.orderImages[slot] = .taken
        ∧ u.exc.attn = s.exc.attn ∧ readWord u.window base = 2
        ∧ readWord u.window (base + 0x14) = 0 ∧ readWord u.window (base + 0x18) = 0
        ∧ ∀ a, a < base ∨ (base + 4 ≤ a ∧ a < base + 0x14) ∨ base + 0x1C ≤ a →
            readByte u.window a = readByte s.window a)
    ∧ (∀ (slot : OrderSlot) (state : Option OrderState) (result : Option OrderOutcome) (detail : Word),
      let c : Instr := .slotWriteRequest (.order slot state result detail)
      let base : Nat := 0x400 + 32 * slot.1
      ∃ u, leadsTo c s u ∧ u = { took c s with exc := u.exc, window := u.window }
        ∧ readWord u.window (base + 0x14) = (match result with
          | none => 0
          | some r => outcomeCode r)
        ∧ readWord u.window (base + 0x18) = detail
        ∧ (∀ a, a < base ∨ (base + 4 ≤ a ∧ a < base + 0x14) ∨ base + 0x1C ≤ a →
            readByte u.window a = readByte s.window a)
        ∧ (∀ st, state = some st → readWord u.window base = orderCode st
            ∧ u.exc.orderImages[slot] = st ∧ u.exc.orderHanded[slot] = false
            ∧ (∀ x, x ≠ slot → u.exc.orderImages[x] = s.exc.orderImages[x])
            ∧ (st = .answered → u.exc.attn = s.exc.attn ||| 2#6) ∧ (st ≠ .answered → u.exc.attn = s.exc.attn))
        ∧ (state = none → u.exc = s.exc ∧ readWord u.window base = readWord s.window base))

/-- EXCHANGE_SCAN restarts its timer and compares every slot of both boards with its image: a FREE or terminal slot
the host has POSTED is POSTED, a terminal one it has freed is FREE, and any other difference is a misuse: the state
word is written back, and the last one found stays in the misuse record (the boards being walked in the order of log
56). What the takes of the same scan make of a posted order is stated with them below. Outside CONFIG, RUN, STOPPING
and RECOVERY, and with the timer stopped, nothing is scanned. The Directive Page: a head that differs from its tail,
is 0, or is the edition in force or last rejected is passed over; a new one whose body is in range is accepted and
goes to its three takers; another is rejected at its first bad field: the run request, the rise rate, the top
elevation, the pump flow, the feed mask, then the trims in station order. What a scan does beside its comparisons: in
CONFIG it hands over the orders and reads the directive, in RUN it hands over the orders and the batches and reads the
directive, in STOPPING it reads the directive alone, and in RECOVERY none of these. The whole scan is one step (log
11). The posted orders that have not been handed over are, in ascending slot index, each to the owner of its kind with
its arguments; one whose kind is none of the six, or whose scope is none of the three, is answered BAD_KIND with the
kind, or BAD_ARGUMENT, with ORDER set. The batch candidates of a scan in RUN are the POSTED slots that have not been
handed over, in ascending post number, equal ones in ascending index. They are handed over one at a time, the first at
once unless a hand-over is still on its way (log 12), and one that is POSTED no more is passed by; a STOP does not end
this (the model's choice, log 88). -/
def Obligations.ScansCompareSlotsAndReadTheDirective : Prop :=
  ((∀ s : State, acting s = true → (exchanges s.psv.state = false ∨ s.exc.scanTimer = none) → leadsTo .exchangeScan s s)
   ∧ (∀ s : State, acting s = true → exchanges s.psv.state = true → s.exc.scanTimer ≠ none → s.exc.clearStage ≠ .none →
       leadsTo .exchangeScan s { s with exc := { s.exc with scanTimer := some s.tmb.fineTime } })
   ∧ (∀ s : State, acting s = true → exchanges s.psv.state = true → s.exc.scanTimer ≠ none → s.exc.clearStage = .none →
       windowCanonical s →
       let batchAt (m : Memory) (slot : BatchSlot) : Word := readWord m (0x800 + 256 * slot.1)
       let orderAt (m : Memory) (slot : OrderSlot) : Word := readWord m (0x400 + 32 * slot.1)
       let batchCode (image : BatchState) : Word := match image with
         | .free => 0 | .posted => 1 | .lined => 2 | .pouring => 3 | .casting => 4 | .spent => 5 | .refused => 6
       let orderCode (image : OrderState) : Word := match image with
         | .free => 0 | .posted => 1 | .taken => 2 | .answered => 3
       let batchWord (slot : BatchSlot) : Word := batchAt s.window slot
       let orderWord (slot : OrderSlot) : Word := orderAt s.window slot
       let terminal (image : BatchState) : Prop := image = .spent ∨ image = .refused
       let postedB (slot : BatchSlot) : Prop :=
         batchWord slot = 1 ∧ (s.exc.batchImages[slot] = .free ∨ terminal s.exc.batchImages[slot])
       let freedB (slot : BatchSlot) : Prop := batchWord slot = 0 ∧ terminal s.exc.batchImages[slot]
       let wrongB (slot : BatchSlot) : Prop :=
         batchWord slot ≠ batchCode s.exc.batchImages[slot] ∧ ¬postedB slot ∧ ¬freedB slot
       let postedO (slot : OrderSlot) : Prop :=
         orderWord slot = 1 ∧ (s.exc.orderImages[slot] = .free ∨ s.exc.orderImages[slot] = .answered)
       let freedO (slot : OrderSlot) : Prop := orderWord slot = 0 ∧ s.exc.orderImages[slot] = .answered
       let wrongO (slot : OrderSlot) : Prop :=
         orderWord slot ≠ orderCode s.exc.orderImages[slot] ∧ ¬postedO slot ∧ ¬freedO slot
       ∃ u, leadsTo .exchangeScan s u ∧ u.exc.scanTimer = some s.tmb.fineTime
         ∧ (∀ slot : BatchSlot,
           (postedB slot → u.exc.batchImages[slot] = .posted ∧ batchAt u.window slot = 1)
           ∧ (freedB slot → u.exc.batchImages[slot] = .free ∧ batchAt u.window slot = 0)
           ∧ (¬postedB slot → ¬freedB slot → u.exc.batchImages[slot] = s.exc.batchImages[slot]
               ∧ batchAt u.window slot = batchCode s.exc.batchImages[slot]))
         ∧ (∀ slot : OrderSlot,
           (postedO slot → (s.psv.state = .stopping ∨ s.psv.state = .recovery) →
             u.exc.orderImages[slot] = .posted ∧ orderAt u.window slot = 1)
           ∧ (freedO slot → u.exc.orderImages[slot] = .free ∧ orderAt u.window slot = 0)
           ∧ (¬postedO slot → ¬freedO slot →
               (s.exc.orderImages[slot] ≠ .posted ∨ s.psv.state = .stopping ∨ s.psv.state = .recovery) →
               u.exc.orderImages[slot] = s.exc.orderImages[slot]
               ∧ orderAt u.window slot = orderCode s.exc.orderImages[slot]))
         ∧ (∀ slot, wrongB slot → (∀ x, slot < x → ¬wrongB x) →
             u.exc.misuse = some (.batch, slot.1) ∧ u.exc.misuseEvent = true)
         ∧ (∀ slot, wrongO slot → (∀ x, slot < x → ¬wrongO x) → (∀ x, ¬wrongB x) →
             u.exc.misuse = some (.order, slot.1) ∧ u.exc.misuseEvent = true)
         ∧ ((∀ x, ¬wrongO x) → (∀ x, ¬wrongB x) →
             u.exc.misuse = s.exc.misuse ∧ u.exc.misuseEvent = s.exc.misuseEvent)
         ∧ (((∃ x, wrongO x) ∨ ∃ x, wrongB x) → s.exc.misuseEvent = false → u.exc.attn.getLsbD 2 = true)))
  ∧ (∀ s : State,
       let head := readWord s.window 0x200
       let isNew : Prop := head = readWord s.window 0x2FC ∧ head ≠ 0 ∧ head ≠ s.exc.edition ∧ head ≠ s.exc.lastRejected
       let first (fields : List (Nat × Prop)) (found : Option Nat) : Prop :=
         (found = none ↔ ∀ c ∈ fields, c.2)
         ∧ ∀ f, found = some f ↔ ∃ p, (f, p) ∈ fields ∧ ¬p ∧ ∀ c ∈ fields, c.1 < f → c.2
       let atMost (o limit : Nat) : Prop := (readWord s.window o).toNat ≤ limit
       let trim (st : Station) : Int := (readByte s.window (0x218 + st.1)).toInt
       (¬isNew → readDirective s = s)
       ∧ (isNew → badDirectiveField s.window = none → readDirective s = { s with
           exc := { s.exc with edition := head }
           mail := s.mail ++ [.climbDirective (climbValuesOf s.window), .flowDirective (readWord s.window 0x210).toNat,
             .feedMaskDirective (readHalf s.window 0x214)] })
       ∧ climbValuesOf s.window = ⟨if readWord s.window 0x204 = 1 then .climb else .hold, (readWord s.window 0x208).toNat,
           (readWord s.window 0x20C).toNat, Vector.ofFn trim⟩
       ∧ (∀ f, isNew → badDirectiveField s.window = some f → ∃ t, readDirective s = t ∧ t.mail = s.mail
           ∧ t = { s with exc := t.exc } ∧ (s.exc.directiveBad = true → t.exc.attn = s.exc.attn)
           ∧ t.exc.edition = s.exc.edition ∧ t.exc.lastRejected = head ∧ t.exc.badField = f ∧ t.exc.directiveBad = true
           ∧ (s.exc.directiveBad = false → t.exc.attn = s.exc.attn ||| 4#6))
       ∧ first ([(1, atMost 0x204 1), (2, atMost 0x208 600), (3, atMost 0x20C 200000), (4, atMost 0x210 1000),
             (5, atMost 0x214 65535)] ++ allStations.map fun st => (6 + st.1, -4 ≤ trim st ∧ trim st ≤ 4))
           (badDirectiveField s.window))
  ∧ (∀ s : State, acting s = true → s.exc.scanTimer ≠ none → s.exc.clearStage = .none →
       let compared := compareBoards { s with exc := { s.exc with scanTimer := some s.tmb.fineTime } }
       (s.psv.state = .config → leadsTo .exchangeScan s (readDirective (handOrders compared)))
       ∧ (s.psv.state = .run → leadsTo .exchangeScan s (readDirective (handBatches (handOrders compared))))
       ∧ (s.psv.state = .stopping → leadsTo .exchangeScan s (readDirective compared))
       ∧ (s.psv.state = .recovery → leadsTo .exchangeScan s compared))
  ∧ (∀ s : State, windowCanonical s →
       let u := handOrders s
       let base (slot : OrderSlot) : Nat := 0x400 + 32 * slot.1
       let word (slot : OrderSlot) (o : Nat) : Word := readWord s.window (base slot + o)
       let waits (slot : OrderSlot) : Bool :=
         decide (s.exc.orderImages[slot] = .posted) && !s.exc.orderHanded[slot]
       let owner (slot : OrderSlot) : Option Instr :=
         let a := word slot 0x08
         let b := word slot 0x0C
         let c := word slot 0x10
         match (word slot 0x04).toNat with
         | 1 => some (.cancelBatch slot a (if h : a.toNat < 48 then s.exc.batchImages[(⟨a.toNat, h⟩ : BatchSlot)] else .free))
         | 2 => some (.requalify slot a b)
         | 3 => some (.retire slot a)
         | 4 => if a = 1 then some (.clearEventsStation slot b c)
           else if a = 2 then some (.clearEventsSector slot b c)
           else if a = 3 then some (.clearEventsRig slot c) else none
         | 5 => some (.addOpening slot a b c)
         | 6 => some (.dropOpening slot a b)
         | _ => none
       u = { s with exc := u.exc, window := u.window, mail := u.mail }
       ∧ u.mail = s.mail ++ (List.finRange 16).filterMap (fun slot => if waits slot then owner slot else none)
       ∧ u.exc.batchImages = s.exc.batchImages
       ∧ ∀ slot : OrderSlot,
         (waits slot = false → u.exc.orderImages[slot] = s.exc.orderImages[slot]
           ∧ u.exc.orderHanded[slot] = s.exc.orderHanded[slot]
           ∧ ∀ i, i < 8 → readWord u.window (base slot + 4 * i) = word slot (4 * i))
         ∧ (waits slot = true → owner slot ≠ none → u.exc.orderImages[slot] = .posted ∧ u.exc.orderHanded[slot] = true)
         ∧ (waits slot = true → owner slot = none → u.exc.orderImages[slot] = .answered
             ∧ u.exc.attn.getLsbD 1 = true ∧ readWord u.window (base slot) = 3
             ∧ (word slot 0x04 = 4 → readWord u.window (base slot + 0x14) = 3
                 ∧ readWord u.window (base slot + 0x18) = 0)
             ∧ (word slot 0x04 ≠ 4 → readWord u.window (base slot + 0x14) = 2
                 ∧ readWord u.window (base slot + 0x18) = word slot 0x04)))
  ∧ (∀ s : State,
       let cs := sortedCandidates s
       let word (slot : BatchSlot) (o : Nat) : Word := readWord s.window (0x800 + 256 * slot.1 + o)
       let number (slot : BatchSlot) : Nat := (word slot 0x04).toNat
       (∀ slot, slot ∈ cs ↔ s.exc.batchImages[slot] = .posted ∧ s.exc.batchHanded[slot] = false) ∧ cs.Nodup
       ∧ cs.Pairwise (fun a b => number a < number b ∨ (number a = number b ∧ a < b))
       ∧ ((∃ slot q, .batchHandover slot q ∈ s.mail) → handBatches s = { s with exc := { s.exc with candidates := cs } })
       ∧ ((∀ slot q, .batchHandover slot q ∉ s.mail) →
           handBatches s = handNext { s with exc := { s.exc with candidates := cs } })
       ∧ (∀ slot, stillPosted s slot = true ↔ s.exc.batchImages[slot] = .posted
           ∧ ∀ state report, .slotWriteRequest (.batch slot (some state) report) ∉ s.mail)
       ∧ (∀ before slot rest, s.exc.candidates = before ++ slot :: rest → (∀ x ∈ before, stillPosted s x = false) →
           stillPosted s slot = true → handNext s = { s with
             exc := { s.exc with candidates := rest, batchHanded := put s.exc.batchHanded slot true }
             mail := s.mail ++ [.batchHandover slot ⟨word slot 0x04, word slot 0x08, word slot 0x0C, word slot 0x10,
               (word slot 0x14).setWidth 16⟩] })
       ∧ ((∀ x ∈ s.exc.candidates, stillPosted s x = false) →
           handNext s = { s with exc := { s.exc with candidates := [] } }))

/-- PUBLISH_TIMER_EXPIRY begins a publication under the next edition, which wraps to 1: the head edition and the whole
body are written in one step, from one state (the model's choice, log 10); while one is in progress the next is
deferred, and so it is while a CLEAR goes on (the model's choice, log 87). The timers run only where the exchange
does. PUBLICATION_END of a publication in progress writes the tail edition and counts towards PUBLISH: at a pace other
than 0 that the count reaches, the source is set and the count is 0; at pace 0 the count stays at 16. A deferred
publication then begins at once under the next edition; while a CLEAR has yet to reach the exchange none does (log
87), and one in which the CLEAR itself waits is in O15. With none in progress nothing happens. The body of the Status
Page, which a publication writes word by word from 4004h on, shows the state: the rig record of 63 words, then 16
words for each station, then 128 for each sector. A word that no layout names is 0, those from 7100h to the tail among
them; what is absent shows as FFh in a byte and FFFFFFFFh in a word. -/
def Obligations.PublicationsWriteThePageAndCount : Prop :=
  (∀ s : State, acting s = true → windowCanonical s →
     let c : Instr := .publishTimerExpiry
     let edition : Word := if s.exc.statusEdition = 0xFFFFFFFF#32 then 1 else s.exc.statusEdition + 1
     let timer : Option Timer := some ⟨s.tmb.fineTime, 1000 * s.psv.rig.publishInterval⟩
     ((exchanges s.psv.state = false ∨ s.exc.publishTimer = none) → leadsTo c s (took c s))
     ∧ (exchanges s.psv.state = true → s.exc.publishTimer ≠ none → (s.exc.publication ≠ none ∨ s.exc.clearStage ≠ .none) →
         leadsTo c s { took c s with exc := { s.exc with publishTimer := timer, deferred := true } })
     ∧ (exchanges s.psv.state = true → s.exc.publishTimer ≠ none → s.exc.publication = none → s.exc.clearStage = .none → ∃ u, leadsTo c s u
         ∧ u.exc = { s.exc with publishTimer := timer, statusEdition := edition, publication := some edition }
         ∧ u.mail = (s.mail.erase c) ++ [.publicationEnd]
         ∧ readWord u.window 0x4000 = edition
         ∧ (∀ i w, (statusBody s)[i]? = some w → readWord u.window (0x4004 + 4 * i) = w)
         ∧ (∀ a, 0x7100 ≤ a → a < 0x7FFC → readByte u.window a = 0)
         ∧ (∀ a, a < 0x4000 ∨ 0x7FFC ≤ a → readByte u.window a = readByte s.window a)))
  ∧ (∀ s : State, acting s = true → windowCanonical s →
       let c : Instr := .publicationEnd
       let next : Word := if s.exc.statusEdition = 0xFFFFFFFF#32 then 1 else s.exc.statusEdition + 1
       let n := s.exc.postscaler + 1
       let attn := s.exc.attn ||| 0x10#6
       let counted : Exc := if s.exc.attnPace ≠ 0 ∧ s.exc.attnPace ≤ n
         then { s.exc with publication := none, postscaler := 0, attn := attn
                           attnLine := decide (attn &&& ~~~s.exc.attnMask ≠ 0) }
         else { s.exc with publication := none, postscaler := min 16 n }
       let begins (u : State) : Prop := readWord u.window 0x4000 = next
         ∧ (∀ i w, (statusBody s)[i]? = some w → readWord u.window (0x4004 + 4 * i) = w)
         ∧ (∀ a, 0x7100 ≤ a → a < 0x7FFC → readByte u.window a = 0)
         ∧ ∀ a, a < 0x4000 ∨ 0x8000 ≤ a → readByte u.window a = readByte s.window a
       (s.exc.publication = none → leadsTo c s (took c s))
       ∧ ∀ edition, s.exc.publication = some edition →
         ((s.exc.clearStage = .begun ∨ (s.exc.clearStage = .none ∧ s.exc.deferred = false)) → ∃ u, leadsTo c s u
           ∧ u = { took c s with exc := counted, window := u.window } ∧ readWord u.window 0x7FFC = edition
           ∧ ∀ a, a < 0x7FFC ∨ 0x8000 ≤ a → readByte u.window a = readByte s.window a)
         ∧ (s.exc.clearStage = .none → s.exc.deferred = true → ∃ u, leadsTo c s u
           ∧ u = { took c s with
               exc := { counted with deferred := false, statusEdition := next, publication := some next }
               window := u.window, mail := (s.mail.erase c) ++ [.publicationEnd] }
           ∧ readWord u.window 0x7FFC = edition ∧ begins u)
         ∧ (s.exc.clearStage = .publishing → s.exc.deferred = true → ∃ u, leadsTo c s u
           ∧ u = { took c s with
               exc := { counted with clearStage := .none, deferred := false, statusEdition := next, publication := some next }
               window := u.window, mail := (s.mail.erase c) ++ [.clearDone .exc, .publicationEnd] }
           ∧ readWord u.window 0x7FFC = edition ∧ begins u))
  ∧ ([PartState.bench, .config, .run, .stopping, .powerDown, .recovery, .halted].map partStateCode = [1, 2, 3, 4, 5, 6, 7]
     ∧ [Climb.held, .dwell, .drive, .settle].map climbCode = [0, 1, 2, 3]
     ∧ [ServiceState.absent, .active, .barred, .retired].map serviceCode = [0, 1, 2, 3]
     ∧ [CommandOutcome.done, .waiting, .wrongState, .busy, .rigInvalid, .rigChanged, .unknown].map commandOutcomeCode
         = [0, 1, 2, 3, 4, 5, 6]
     ∧ ∀ s : State, stacksSound s →
       let word (i : Nat) (w : Word) : Prop := (statusBody s)[i]? = some w
       let bytes (a b c d : Nat) : Word := BitVec.ofNat 8 d ++ BitVec.ofNat 8 c ++ BitVec.ofNat 8 b ++ BitVec.ofNat 8 a
       let bits (i : Nat) (ps : List Prop) : Prop :=
         ∃ w, word i w ∧ ∀ n, w.getLsbD n = true ↔ ∃ p, ps[n]? = some p ∧ p
       let zeros (i n : Nat) : Prop := ∀ x, i ≤ x → x < i + n → word x 0
       let effective (st : Station) : Int := ((recordOf s st).count : Int) - s.wvc.values.trims[st]
       let active (st : Station) : Prop := (recordOf s st).service = .active
       let gate (code sector slot volume : Nat) (opened : Word) : Prop :=
         word 0 (bytes (partStateCode s.psv.state) (climbCode s.wvc.climb) code sector)
         ∧ word 9 (bytes slot 0 0 0) ∧ word 10 (natWord volume) ∧ word 11 opened
       let shown : Prop :=
         (s.fds.gate = .idle → gate 0 255 255 0 0)
         ∧ (∀ k g, s.fds.gate = .drop k g → gate 1 k.1 g.slot.1 g.volume (s.tmb.fineTime - g.openedAt))
         ∧ (∀ g cause, s.fds.gate = .waste g cause → gate 2 255 g.slot.1 g.volume (s.tmb.fineTime - g.openedAt))
       let deck : Prop :=
         ((∀ x, ¬active x) → word 4 0 ∧ word 5 0)
         ∧ ∀ st, active st → ((∀ x, active x → effective st ≤ effective x) → word 4 (intWord (effective st)))
           ∧ ((∀ x, active x → effective x ≤ effective st) → word 5 (intWord (effective st)))
       let rig : Prop := shown ∧ deck ∧ word 1 (s.wvc.holds.setWidth 32) ∧ word 2 s.wvc.waveNumber
         ∧ (s.wvc.values.riseRate = 0 → word 3 0xFFFFFFFF#32)
         ∧ (s.wvc.values.riseRate ≠ 0 →
             word 3 (natWord (s.psv.rig.strokeLength * 3600000 / s.wvc.values.riseRate - s.wvc.dwell)))
         ∧ word 6 s.exc.edition ∧ word 7 s.exc.lastRejected ∧ word 8 (natWord s.exc.badField)
         ∧ word 12 (natWord s.fds.line.length)
         ∧ (∃ w, word 13 w ∧ ∀ i, i < 4 → wordByte w i = (match s.fds.line[i]? with
             | some slot => BitVec.ofNat 8 slot.1
             | none => 0xFF#8))
         ∧ bits 14 [s.fds.paused = true, s.tmb.clockValid = true] ∧ word 15 s.tmb.siteSeconds
         ∧ bits 16 [s.exc.misuseEvent = true, s.exc.directiveBad = true, s.tmb.clockLost = true, s.lbp.probeBus = true,
             s.psv.repeatedOutage = true]
         ∧ (s.exc.misuse = none → word 17 0)
         ∧ (∀ i, (s.exc.misuse = some (.order, i) → word 17 (bytes 1 i 0 0))
             ∧ (s.exc.misuse = some (.batch, i) → word 17 (bytes 2 i 0 0)))
         ∧ (s.psv.rigCheck = none → word 18 0)
         ∧ (∀ o f, s.psv.rigCheck = some (o, f) → word 18 (bytes (commandOutcomeCode o) f 0 0))
         ∧ zeros 19 44
       let station (st : Station) : Prop :=
         let base := 63 + 16 * st.1
         let r := recordOf s st
         let read := readingOf s st
         word base (bytes (serviceCode r.service) r.marks r.cleanRun (ssuOf s st).strays) ∧ word (base + 1) (natWord r.count)
         ∧ word (base + 2) (intWord s.wvc.values.trims[st]) ∧ word (base + 3) (intWord (effective st))
         ∧ word (base + 4) (r.events.setWidth 32)
         ∧ bits (base + 5) [r.inDoubt = true, r.lastStroke ≠ none, read ≠ none,
             ∃ x, read = some x ∧ x.status = .good ∧ x.inMotion = false
               ∧ (s.tmb.fineTime - x.taken).toNat < 1000 * s.psv.rig.freshnessLimit,
             ∃ x, read = some x ∧ x.inMotion = true]
         ∧ word (base + 6) (natWord (r.lastStroke.getD 0))
         ∧ (read = none → word (base + 7) 0 ∧ word (base + 8) 0 ∧ word (base + 9) 0xFFFFFFFF#32)
         ∧ (∀ x, read = some x → word (base + 7) (x.elevation.signExtend 32)
             ∧ word (base + 8) (if x.status = .good then 0 else 1) ∧ word (base + 9) (s.tmb.fineTime - x.taken))
         ∧ zeros (base + 10) 6
       let sector (k : Sector) : Prop :=
         let base := 63 + 16 * 64 + 128 * k.1
         let stack := stackOf s k
         let bottom := formBottom s k
         let top := bottom + s.psv.rig.formHeight
         let fill := match stack.getLast? with
           | none => bottom
           | some l => l.bottom + l.thickness
         let events : Word := (s.ltr.events[k]).setWidth 32
         let eligible (destination : BitVec 16) : Prop := s.ltr.feedMask.getLsbD k.1 = true
           ∧ destination.getLsbD k.1 = true ∧ (s.psv.rig.minLayer : Int) ≤ top - fill - s.psv.rig.targetFill
           ∧ stack.length < 10
         let urgent : Prop := ∃ l, topConcrete s k = some l
           ∧ (s.psv.rig.mixes[l.mix]).warnOpen ≤ (s.tmb.siteSeconds - l.placed).toNat
         let layer (j : Nat) : Prop :=
           let at_ := base + 16 + 8 * j
           (stack[j]? = none → zeros at_ 8)
           ∧ ∀ l, stack[j]? = some l → word (at_ + 1) (intWord l.bottom) ∧ word (at_ + 2) (natWord l.thickness)
             ∧ zeros (at_ + 5) 3
             ∧ (l.kind = .gap → word at_ (bytes 2 255 255 0) ∧ word (at_ + 3) 0xFFFFFFFF#32 ∧ word (at_ + 4) 0xFFFFFFFF#32)
             ∧ ∀ x, l.kind = .concrete x →
               word at_ (bytes 1 x.slot.1 x.index.1 (if x.jointReported = true then 1 else 0))
               ∧ word (at_ + 3) x.placed ∧ word (at_ + 4) (s.tmb.siteSeconds - x.origin)
         let opening (j : Nat) : Prop :=
           let at_ := base + 96 + 2 * j
           ((s.ltr.openings[k])[j]? = none → zeros at_ 2)
           ∧ ∀ o, (s.ltr.openings[k])[j]? = some o → word at_ (intWord o.lower) ∧ word (at_ + 1) (intWord o.upper)
         (used s k = false → word (base + 6) events ∧ zeros base 6 ∧ zeros (base + 7) 121)
         ∧ (used s k = true → word base (intWord bottom) ∧ word (base + 1) (intWord top) ∧ word (base + 2) (intWord fill)
           ∧ word (base + 3) (intWord (top - fill))
           ∧ word (base + 4) (natWord ((top - fill - s.psv.rig.targetFill).toNat * s.psv.rig.areas[k] / 100))
           ∧ (∀ destination, (s.fds.line = [] → destination = 0xFFFF#16) →
               (∀ slot, s.fds.line.head? = some slot → ∃ r, batchOf s slot = some r ∧ destination = r.destination) →
               bits (base + 5) [urgent, eligible destination, s.ltr.age.getLsbD k.1 = true, s.ltr.fill.getLsbD k.1 = true])
           ∧ word (base + 6) events ∧ word (base + 7) (bytes stack.length (s.ltr.openings[k]).length 0 0)
           ∧ zeros (base + 8) 8 ∧ (∀ j, j < 10 → layer j) ∧ (∀ j, j < 2 → opening j) ∧ zeros (base + 100) 28)
       rig ∧ (∀ st, station st) ∧ (∀ k, sector k) ∧ (statusBody s).length = 63 + 16 * 64 + 128 * 16)

end
end

