-- ==== Sys2Proof/Laws/State.lean ====
section
/-! SUPPORT. One lemma for each field under each named update of the state: what the update leaves there. -/

namespace Sys2Proof.Machine

open Sys2Proof

/-! ### took -/

@[simp] theorem took_pending (c : Instr) (s : State) : (took c s).pending = s.pending := rfl
@[simp] theorem took_mail (c : Instr) (s : State) : (took c s).mail = s.mail.erase c := rfl
@[simp] theorem took_power (c : Instr) (s : State) : (took c s).power = s.power := rfl
@[simp] theorem took_strap (c : Instr) (s : State) : (took c s).strap = s.strap := rfl
@[simp] theorem took_storeFails (c : Instr) (s : State) : (took c s).storeFails = s.storeFails := rfl
@[simp] theorem took_resetReads (c : Instr) (s : State) : (took c s).resetReads = s.resetReads := rfl
@[simp] theorem took_tmb (c : Instr) (s : State) : (took c s).tmb = s.tmb := rfl
@[simp] theorem took_ssu (c : Instr) (s : State) : (took c s).ssu = s.ssu := rfl
@[simp] theorem took_vdu (c : Instr) (s : State) : (took c s).vdu = s.vdu := rfl
@[simp] theorem took_wvc (c : Instr) (s : State) : (took c s).wvc = s.wvc := rfl
@[simp] theorem took_lbp (c : Instr) (s : State) : (took c s).lbp = s.lbp := rfl
@[simp] theorem took_ltr (c : Instr) (s : State) : (took c s).ltr = s.ltr := rfl
@[simp] theorem took_fds (c : Instr) (s : State) : (took c s).fds = s.fds := rfl
@[simp] theorem took_exc (c : Instr) (s : State) : (took c s).exc = s.exc := rfl
@[simp] theorem took_psv (c : Instr) (s : State) : (took c s).psv = s.psv := rfl
@[simp] theorem took_window (c : Instr) (s : State) : (took c s).window = s.window := rfl

/-! ### send -/

@[simp] theorem send_pending (c : Instr) (s : State) : (send c s).pending = s.pending := rfl
@[simp] theorem send_mail (c : Instr) (s : State) : (send c s).mail = s.mail ++ [c] := rfl
@[simp] theorem send_power (c : Instr) (s : State) : (send c s).power = s.power := rfl
@[simp] theorem send_strap (c : Instr) (s : State) : (send c s).strap = s.strap := rfl
@[simp] theorem send_storeFails (c : Instr) (s : State) : (send c s).storeFails = s.storeFails := rfl
@[simp] theorem send_resetReads (c : Instr) (s : State) : (send c s).resetReads = s.resetReads := rfl
@[simp] theorem send_tmb (c : Instr) (s : State) : (send c s).tmb = s.tmb := rfl
@[simp] theorem send_ssu (c : Instr) (s : State) : (send c s).ssu = s.ssu := rfl
@[simp] theorem send_vdu (c : Instr) (s : State) : (send c s).vdu = s.vdu := rfl
@[simp] theorem send_wvc (c : Instr) (s : State) : (send c s).wvc = s.wvc := rfl
@[simp] theorem send_lbp (c : Instr) (s : State) : (send c s).lbp = s.lbp := rfl
@[simp] theorem send_ltr (c : Instr) (s : State) : (send c s).ltr = s.ltr := rfl
@[simp] theorem send_fds (c : Instr) (s : State) : (send c s).fds = s.fds := rfl
@[simp] theorem send_exc (c : Instr) (s : State) : (send c s).exc = s.exc := rfl
@[simp] theorem send_psv (c : Instr) (s : State) : (send c s).psv = s.psv := rfl
@[simp] theorem send_window (c : Instr) (s : State) : (send c s).window = s.window := rfl

/-! ### sendAll -/

@[simp] theorem sendAll_pending (cs : List Instr) (s : State) : (sendAll cs s).pending = s.pending := rfl
@[simp] theorem sendAll_mail (cs : List Instr) (s : State) : (sendAll cs s).mail = s.mail ++ cs := rfl
@[simp] theorem sendAll_power (cs : List Instr) (s : State) : (sendAll cs s).power = s.power := rfl
@[simp] theorem sendAll_strap (cs : List Instr) (s : State) : (sendAll cs s).strap = s.strap := rfl
@[simp] theorem sendAll_storeFails (cs : List Instr) (s : State) : (sendAll cs s).storeFails = s.storeFails := rfl
@[simp] theorem sendAll_resetReads (cs : List Instr) (s : State) : (sendAll cs s).resetReads = s.resetReads := rfl
@[simp] theorem sendAll_tmb (cs : List Instr) (s : State) : (sendAll cs s).tmb = s.tmb := rfl
@[simp] theorem sendAll_ssu (cs : List Instr) (s : State) : (sendAll cs s).ssu = s.ssu := rfl
@[simp] theorem sendAll_vdu (cs : List Instr) (s : State) : (sendAll cs s).vdu = s.vdu := rfl
@[simp] theorem sendAll_wvc (cs : List Instr) (s : State) : (sendAll cs s).wvc = s.wvc := rfl
@[simp] theorem sendAll_lbp (cs : List Instr) (s : State) : (sendAll cs s).lbp = s.lbp := rfl
@[simp] theorem sendAll_ltr (cs : List Instr) (s : State) : (sendAll cs s).ltr = s.ltr := rfl
@[simp] theorem sendAll_fds (cs : List Instr) (s : State) : (sendAll cs s).fds = s.fds := rfl
@[simp] theorem sendAll_exc (cs : List Instr) (s : State) : (sendAll cs s).exc = s.exc := rfl
@[simp] theorem sendAll_psv (cs : List Instr) (s : State) : (sendAll cs s).psv = s.psv := rfl
@[simp] theorem sendAll_window (cs : List Instr) (s : State) : (sendAll cs s).window = s.window := rfl

/-! ### requestAttn -/

@[simp] theorem requestAttn_pending (a : AttnSource) (s : State) : (requestAttn a s).pending = s.pending := rfl
@[simp] theorem requestAttn_mail (a : AttnSource) (s : State) : (requestAttn a s).mail = s.mail ++ [.attentionSetRequest a] := rfl
@[simp] theorem requestAttn_power (a : AttnSource) (s : State) : (requestAttn a s).power = s.power := rfl
@[simp] theorem requestAttn_strap (a : AttnSource) (s : State) : (requestAttn a s).strap = s.strap := rfl
@[simp] theorem requestAttn_storeFails (a : AttnSource) (s : State) : (requestAttn a s).storeFails = s.storeFails := rfl
@[simp] theorem requestAttn_resetReads (a : AttnSource) (s : State) : (requestAttn a s).resetReads = s.resetReads := rfl
@[simp] theorem requestAttn_tmb (a : AttnSource) (s : State) : (requestAttn a s).tmb = s.tmb := rfl
@[simp] theorem requestAttn_ssu (a : AttnSource) (s : State) : (requestAttn a s).ssu = s.ssu := rfl
@[simp] theorem requestAttn_vdu (a : AttnSource) (s : State) : (requestAttn a s).vdu = s.vdu := rfl
@[simp] theorem requestAttn_wvc (a : AttnSource) (s : State) : (requestAttn a s).wvc = s.wvc := rfl
@[simp] theorem requestAttn_lbp (a : AttnSource) (s : State) : (requestAttn a s).lbp = s.lbp := rfl
@[simp] theorem requestAttn_ltr (a : AttnSource) (s : State) : (requestAttn a s).ltr = s.ltr := rfl
@[simp] theorem requestAttn_fds (a : AttnSource) (s : State) : (requestAttn a s).fds = s.fds := rfl
@[simp] theorem requestAttn_exc (a : AttnSource) (s : State) : (requestAttn a s).exc = s.exc := rfl
@[simp] theorem requestAttn_psv (a : AttnSource) (s : State) : (requestAttn a s).psv = s.psv := rfl
@[simp] theorem requestAttn_window (a : AttnSource) (s : State) : (requestAttn a s).window = s.window := rfl

/-! ### setSsu -/

@[simp] theorem setSsu_pending (s : State) (st : Station) (u : SsuStation) : (setSsu s st u).pending = s.pending := rfl
@[simp] theorem setSsu_mail (s : State) (st : Station) (u : SsuStation) : (setSsu s st u).mail = s.mail := rfl
@[simp] theorem setSsu_power (s : State) (st : Station) (u : SsuStation) : (setSsu s st u).power = s.power := rfl
@[simp] theorem setSsu_strap (s : State) (st : Station) (u : SsuStation) : (setSsu s st u).strap = s.strap := rfl
@[simp] theorem setSsu_storeFails (s : State) (st : Station) (u : SsuStation) : (setSsu s st u).storeFails = s.storeFails := rfl
@[simp] theorem setSsu_resetReads (s : State) (st : Station) (u : SsuStation) : (setSsu s st u).resetReads = s.resetReads := rfl
@[simp] theorem setSsu_tmb (s : State) (st : Station) (u : SsuStation) : (setSsu s st u).tmb = s.tmb := rfl
@[simp] theorem setSsu_ssu (s : State) (st : Station) (u : SsuStation) : (setSsu s st u).ssu = { s.ssu with stations := put s.ssu.stations st u } := rfl
@[simp] theorem setSsu_vdu (s : State) (st : Station) (u : SsuStation) : (setSsu s st u).vdu = s.vdu := rfl
@[simp] theorem setSsu_wvc (s : State) (st : Station) (u : SsuStation) : (setSsu s st u).wvc = s.wvc := rfl
@[simp] theorem setSsu_lbp (s : State) (st : Station) (u : SsuStation) : (setSsu s st u).lbp = s.lbp := rfl
@[simp] theorem setSsu_ltr (s : State) (st : Station) (u : SsuStation) : (setSsu s st u).ltr = s.ltr := rfl
@[simp] theorem setSsu_fds (s : State) (st : Station) (u : SsuStation) : (setSsu s st u).fds = s.fds := rfl
@[simp] theorem setSsu_exc (s : State) (st : Station) (u : SsuStation) : (setSsu s st u).exc = s.exc := rfl
@[simp] theorem setSsu_psv (s : State) (st : Station) (u : SsuStation) : (setSsu s st u).psv = s.psv := rfl
@[simp] theorem setSsu_window (s : State) (st : Station) (u : SsuStation) : (setSsu s st u).window = s.window := rfl

/-! ### mapSsu -/

@[simp] theorem mapSsu_pending (f : SsuStation → SsuStation) (s : State) : (mapSsu f s).pending = s.pending := by unfold mapSsu; rfl
@[simp] theorem mapSsu_mail (f : SsuStation → SsuStation) (s : State) : (mapSsu f s).mail = s.mail := by unfold mapSsu; rfl
@[simp] theorem mapSsu_power (f : SsuStation → SsuStation) (s : State) : (mapSsu f s).power = s.power := by unfold mapSsu; rfl
@[simp] theorem mapSsu_strap (f : SsuStation → SsuStation) (s : State) : (mapSsu f s).strap = s.strap := by unfold mapSsu; rfl
@[simp] theorem mapSsu_storeFails (f : SsuStation → SsuStation) (s : State) : (mapSsu f s).storeFails = s.storeFails := by unfold mapSsu; rfl
@[simp] theorem mapSsu_resetReads (f : SsuStation → SsuStation) (s : State) : (mapSsu f s).resetReads = s.resetReads := by unfold mapSsu; rfl
@[simp] theorem mapSsu_tmb (f : SsuStation → SsuStation) (s : State) : (mapSsu f s).tmb = s.tmb := by unfold mapSsu; rfl
@[simp] theorem mapSsu_ssu (f : SsuStation → SsuStation) (s : State) : (mapSsu f s).ssu = { s.ssu with stations := mapAll s.ssu.stations f } := by unfold mapSsu; rfl
@[simp] theorem mapSsu_vdu (f : SsuStation → SsuStation) (s : State) : (mapSsu f s).vdu = s.vdu := by unfold mapSsu; rfl
@[simp] theorem mapSsu_wvc (f : SsuStation → SsuStation) (s : State) : (mapSsu f s).wvc = s.wvc := by unfold mapSsu; rfl
@[simp] theorem mapSsu_lbp (f : SsuStation → SsuStation) (s : State) : (mapSsu f s).lbp = s.lbp := by unfold mapSsu; rfl
@[simp] theorem mapSsu_ltr (f : SsuStation → SsuStation) (s : State) : (mapSsu f s).ltr = s.ltr := by unfold mapSsu; rfl
@[simp] theorem mapSsu_fds (f : SsuStation → SsuStation) (s : State) : (mapSsu f s).fds = s.fds := by unfold mapSsu; rfl
@[simp] theorem mapSsu_exc (f : SsuStation → SsuStation) (s : State) : (mapSsu f s).exc = s.exc := by unfold mapSsu; rfl
@[simp] theorem mapSsu_psv (f : SsuStation → SsuStation) (s : State) : (mapSsu f s).psv = s.psv := by unfold mapSsu; rfl
@[simp] theorem mapSsu_window (f : SsuStation → SsuStation) (s : State) : (mapSsu f s).window = s.window := by unfold mapSsu; rfl

/-! ### setChannel -/

@[simp] theorem setChannel_pending (s : State) (st : Station) (c : Channel) : (setChannel s st c).pending = s.pending := rfl
@[simp] theorem setChannel_mail (s : State) (st : Station) (c : Channel) : (setChannel s st c).mail = s.mail := rfl
@[simp] theorem setChannel_power (s : State) (st : Station) (c : Channel) : (setChannel s st c).power = s.power := rfl
@[simp] theorem setChannel_strap (s : State) (st : Station) (c : Channel) : (setChannel s st c).strap = s.strap := rfl
@[simp] theorem setChannel_storeFails (s : State) (st : Station) (c : Channel) : (setChannel s st c).storeFails = s.storeFails := rfl
@[simp] theorem setChannel_resetReads (s : State) (st : Station) (c : Channel) : (setChannel s st c).resetReads = s.resetReads := rfl
@[simp] theorem setChannel_tmb (s : State) (st : Station) (c : Channel) : (setChannel s st c).tmb = s.tmb := rfl
@[simp] theorem setChannel_ssu (s : State) (st : Station) (c : Channel) : (setChannel s st c).ssu = s.ssu := rfl
@[simp] theorem setChannel_vdu (s : State) (st : Station) (c : Channel) : (setChannel s st c).vdu = s.vdu.withChannels (put s.vdu.channels st c) := rfl
@[simp] theorem setChannel_wvc (s : State) (st : Station) (c : Channel) : (setChannel s st c).wvc = s.wvc := rfl
@[simp] theorem setChannel_lbp (s : State) (st : Station) (c : Channel) : (setChannel s st c).lbp = s.lbp := rfl
@[simp] theorem setChannel_ltr (s : State) (st : Station) (c : Channel) : (setChannel s st c).ltr = s.ltr := rfl
@[simp] theorem setChannel_fds (s : State) (st : Station) (c : Channel) : (setChannel s st c).fds = s.fds := rfl
@[simp] theorem setChannel_exc (s : State) (st : Station) (c : Channel) : (setChannel s st c).exc = s.exc := rfl
@[simp] theorem setChannel_psv (s : State) (st : Station) (c : Channel) : (setChannel s st c).psv = s.psv := rfl
@[simp] theorem setChannel_window (s : State) (st : Station) (c : Channel) : (setChannel s st c).window = s.window := rfl

/-! ### mapChannels -/

@[simp] theorem mapChannels_pending (f : Channel → Channel) (s : State) : (mapChannels f s).pending = s.pending := by unfold mapChannels; rfl
@[simp] theorem mapChannels_mail (f : Channel → Channel) (s : State) : (mapChannels f s).mail = s.mail := by unfold mapChannels; rfl
@[simp] theorem mapChannels_power (f : Channel → Channel) (s : State) : (mapChannels f s).power = s.power := by unfold mapChannels; rfl
@[simp] theorem mapChannels_strap (f : Channel → Channel) (s : State) : (mapChannels f s).strap = s.strap := by unfold mapChannels; rfl
@[simp] theorem mapChannels_storeFails (f : Channel → Channel) (s : State) : (mapChannels f s).storeFails = s.storeFails := by unfold mapChannels; rfl
@[simp] theorem mapChannels_resetReads (f : Channel → Channel) (s : State) : (mapChannels f s).resetReads = s.resetReads := by unfold mapChannels; rfl
@[simp] theorem mapChannels_tmb (f : Channel → Channel) (s : State) : (mapChannels f s).tmb = s.tmb := by unfold mapChannels; rfl
@[simp] theorem mapChannels_ssu (f : Channel → Channel) (s : State) : (mapChannels f s).ssu = s.ssu := by unfold mapChannels; rfl
@[simp] theorem mapChannels_vdu (f : Channel → Channel) (s : State) : (mapChannels f s).vdu = s.vdu.withChannels (mapAll s.vdu.channels f) := by unfold mapChannels; rfl
@[simp] theorem mapChannels_wvc (f : Channel → Channel) (s : State) : (mapChannels f s).wvc = s.wvc := by unfold mapChannels; rfl
@[simp] theorem mapChannels_lbp (f : Channel → Channel) (s : State) : (mapChannels f s).lbp = s.lbp := by unfold mapChannels; rfl
@[simp] theorem mapChannels_ltr (f : Channel → Channel) (s : State) : (mapChannels f s).ltr = s.ltr := by unfold mapChannels; rfl
@[simp] theorem mapChannels_fds (f : Channel → Channel) (s : State) : (mapChannels f s).fds = s.fds := by unfold mapChannels; rfl
@[simp] theorem mapChannels_exc (f : Channel → Channel) (s : State) : (mapChannels f s).exc = s.exc := by unfold mapChannels; rfl
@[simp] theorem mapChannels_psv (f : Channel → Channel) (s : State) : (mapChannels f s).psv = s.psv := by unfold mapChannels; rfl
@[simp] theorem mapChannels_window (f : Channel → Channel) (s : State) : (mapChannels f s).window = s.window := by unfold mapChannels; rfl

/-! ### setRecord -/

@[simp] theorem setRecord_pending (s : State) (st : Station) (r : StationRecord) : (setRecord s st r).pending = s.pending := rfl
@[simp] theorem setRecord_mail (s : State) (st : Station) (r : StationRecord) : (setRecord s st r).mail = s.mail := rfl
@[simp] theorem setRecord_power (s : State) (st : Station) (r : StationRecord) : (setRecord s st r).power = s.power := rfl
@[simp] theorem setRecord_strap (s : State) (st : Station) (r : StationRecord) : (setRecord s st r).strap = s.strap := rfl
@[simp] theorem setRecord_storeFails (s : State) (st : Station) (r : StationRecord) : (setRecord s st r).storeFails = s.storeFails := rfl
@[simp] theorem setRecord_resetReads (s : State) (st : Station) (r : StationRecord) : (setRecord s st r).resetReads = s.resetReads := rfl
@[simp] theorem setRecord_tmb (s : State) (st : Station) (r : StationRecord) : (setRecord s st r).tmb = s.tmb := rfl
@[simp] theorem setRecord_ssu (s : State) (st : Station) (r : StationRecord) : (setRecord s st r).ssu = s.ssu := rfl
@[simp] theorem setRecord_vdu (s : State) (st : Station) (r : StationRecord) : (setRecord s st r).vdu = s.vdu := rfl
@[simp] theorem setRecord_wvc (s : State) (st : Station) (r : StationRecord) : (setRecord s st r).wvc = { s.wvc with table := put s.wvc.table st r } := rfl
@[simp] theorem setRecord_lbp (s : State) (st : Station) (r : StationRecord) : (setRecord s st r).lbp = s.lbp := rfl
@[simp] theorem setRecord_ltr (s : State) (st : Station) (r : StationRecord) : (setRecord s st r).ltr = s.ltr := rfl
@[simp] theorem setRecord_fds (s : State) (st : Station) (r : StationRecord) : (setRecord s st r).fds = s.fds := rfl
@[simp] theorem setRecord_exc (s : State) (st : Station) (r : StationRecord) : (setRecord s st r).exc = s.exc := rfl
@[simp] theorem setRecord_psv (s : State) (st : Station) (r : StationRecord) : (setRecord s st r).psv = s.psv := rfl
@[simp] theorem setRecord_window (s : State) (st : Station) (r : StationRecord) : (setRecord s st r).window = s.window := rfl

/-! ### setItem -/

@[simp] theorem setItem_pending (s : State) (st : Station) (i : WaveItem) : (setItem s st i).pending = s.pending := rfl
@[simp] theorem setItem_mail (s : State) (st : Station) (i : WaveItem) : (setItem s st i).mail = s.mail := rfl
@[simp] theorem setItem_power (s : State) (st : Station) (i : WaveItem) : (setItem s st i).power = s.power := rfl
@[simp] theorem setItem_strap (s : State) (st : Station) (i : WaveItem) : (setItem s st i).strap = s.strap := rfl
@[simp] theorem setItem_storeFails (s : State) (st : Station) (i : WaveItem) : (setItem s st i).storeFails = s.storeFails := rfl
@[simp] theorem setItem_resetReads (s : State) (st : Station) (i : WaveItem) : (setItem s st i).resetReads = s.resetReads := rfl
@[simp] theorem setItem_tmb (s : State) (st : Station) (i : WaveItem) : (setItem s st i).tmb = s.tmb := rfl
@[simp] theorem setItem_ssu (s : State) (st : Station) (i : WaveItem) : (setItem s st i).ssu = s.ssu := rfl
@[simp] theorem setItem_vdu (s : State) (st : Station) (i : WaveItem) : (setItem s st i).vdu = s.vdu := rfl
@[simp] theorem setItem_wvc (s : State) (st : Station) (i : WaveItem) : (setItem s st i).wvc = { s.wvc with wave := put s.wvc.wave st i } := rfl
@[simp] theorem setItem_lbp (s : State) (st : Station) (i : WaveItem) : (setItem s st i).lbp = s.lbp := rfl
@[simp] theorem setItem_ltr (s : State) (st : Station) (i : WaveItem) : (setItem s st i).ltr = s.ltr := rfl
@[simp] theorem setItem_fds (s : State) (st : Station) (i : WaveItem) : (setItem s st i).fds = s.fds := rfl
@[simp] theorem setItem_exc (s : State) (st : Station) (i : WaveItem) : (setItem s st i).exc = s.exc := rfl
@[simp] theorem setItem_psv (s : State) (st : Station) (i : WaveItem) : (setItem s st i).psv = s.psv := rfl
@[simp] theorem setItem_window (s : State) (st : Station) (i : WaveItem) : (setItem s st i).window = s.window := rfl

/-! ### mapItems -/

@[simp] theorem mapItems_pending (f : WaveItem → WaveItem) (s : State) : (mapItems f s).pending = s.pending := by unfold mapItems; rfl
@[simp] theorem mapItems_mail (f : WaveItem → WaveItem) (s : State) : (mapItems f s).mail = s.mail := by unfold mapItems; rfl
@[simp] theorem mapItems_power (f : WaveItem → WaveItem) (s : State) : (mapItems f s).power = s.power := by unfold mapItems; rfl
@[simp] theorem mapItems_strap (f : WaveItem → WaveItem) (s : State) : (mapItems f s).strap = s.strap := by unfold mapItems; rfl
@[simp] theorem mapItems_storeFails (f : WaveItem → WaveItem) (s : State) : (mapItems f s).storeFails = s.storeFails := by unfold mapItems; rfl
@[simp] theorem mapItems_resetReads (f : WaveItem → WaveItem) (s : State) : (mapItems f s).resetReads = s.resetReads := by unfold mapItems; rfl
@[simp] theorem mapItems_tmb (f : WaveItem → WaveItem) (s : State) : (mapItems f s).tmb = s.tmb := by unfold mapItems; rfl
@[simp] theorem mapItems_ssu (f : WaveItem → WaveItem) (s : State) : (mapItems f s).ssu = s.ssu := by unfold mapItems; rfl
@[simp] theorem mapItems_vdu (f : WaveItem → WaveItem) (s : State) : (mapItems f s).vdu = s.vdu := by unfold mapItems; rfl
@[simp] theorem mapItems_wvc (f : WaveItem → WaveItem) (s : State) : (mapItems f s).wvc = { s.wvc with wave := mapAll s.wvc.wave f } := by unfold mapItems; rfl
@[simp] theorem mapItems_lbp (f : WaveItem → WaveItem) (s : State) : (mapItems f s).lbp = s.lbp := by unfold mapItems; rfl
@[simp] theorem mapItems_ltr (f : WaveItem → WaveItem) (s : State) : (mapItems f s).ltr = s.ltr := by unfold mapItems; rfl
@[simp] theorem mapItems_fds (f : WaveItem → WaveItem) (s : State) : (mapItems f s).fds = s.fds := by unfold mapItems; rfl
@[simp] theorem mapItems_exc (f : WaveItem → WaveItem) (s : State) : (mapItems f s).exc = s.exc := by unfold mapItems; rfl
@[simp] theorem mapItems_psv (f : WaveItem → WaveItem) (s : State) : (mapItems f s).psv = s.psv := by unfold mapItems; rfl
@[simp] theorem mapItems_window (f : WaveItem → WaveItem) (s : State) : (mapItems f s).window = s.window := by unfold mapItems; rfl

/-! ### oweCounts -/

@[simp] theorem oweCounts_pending (s : State) : (oweCounts s).pending = s.pending := rfl
@[simp] theorem oweCounts_mail (s : State) : (oweCounts s).mail = s.mail := rfl
@[simp] theorem oweCounts_power (s : State) : (oweCounts s).power = s.power := rfl
@[simp] theorem oweCounts_strap (s : State) : (oweCounts s).strap = s.strap := rfl
@[simp] theorem oweCounts_storeFails (s : State) : (oweCounts s).storeFails = s.storeFails := rfl
@[simp] theorem oweCounts_resetReads (s : State) : (oweCounts s).resetReads = s.resetReads := rfl
@[simp] theorem oweCounts_tmb (s : State) : (oweCounts s).tmb = s.tmb := rfl
@[simp] theorem oweCounts_ssu (s : State) : (oweCounts s).ssu = s.ssu := rfl
@[simp] theorem oweCounts_vdu (s : State) : (oweCounts s).vdu = s.vdu := rfl
@[simp] theorem oweCounts_wvc (s : State) : (oweCounts s).wvc = { s.wvc with countsDirty := true } := rfl
@[simp] theorem oweCounts_lbp (s : State) : (oweCounts s).lbp = s.lbp := rfl
@[simp] theorem oweCounts_ltr (s : State) : (oweCounts s).ltr = s.ltr := rfl
@[simp] theorem oweCounts_fds (s : State) : (oweCounts s).fds = s.fds := rfl
@[simp] theorem oweCounts_exc (s : State) : (oweCounts s).exc = s.exc := rfl
@[simp] theorem oweCounts_psv (s : State) : (oweCounts s).psv = s.psv := rfl
@[simp] theorem oweCounts_window (s : State) : (oweCounts s).window = s.window := rfl

/-! ### onLbp -/

@[simp] theorem onLbp_pending (f : Lbp → Lbp) (s : State) : (onLbp f s).pending = s.pending := rfl
@[simp] theorem onLbp_mail (f : Lbp → Lbp) (s : State) : (onLbp f s).mail = s.mail := rfl
@[simp] theorem onLbp_power (f : Lbp → Lbp) (s : State) : (onLbp f s).power = s.power := rfl
@[simp] theorem onLbp_strap (f : Lbp → Lbp) (s : State) : (onLbp f s).strap = s.strap := rfl
@[simp] theorem onLbp_storeFails (f : Lbp → Lbp) (s : State) : (onLbp f s).storeFails = s.storeFails := rfl
@[simp] theorem onLbp_resetReads (f : Lbp → Lbp) (s : State) : (onLbp f s).resetReads = s.resetReads := rfl
@[simp] theorem onLbp_tmb (f : Lbp → Lbp) (s : State) : (onLbp f s).tmb = s.tmb := rfl
@[simp] theorem onLbp_ssu (f : Lbp → Lbp) (s : State) : (onLbp f s).ssu = s.ssu := rfl
@[simp] theorem onLbp_vdu (f : Lbp → Lbp) (s : State) : (onLbp f s).vdu = s.vdu := rfl
@[simp] theorem onLbp_wvc (f : Lbp → Lbp) (s : State) : (onLbp f s).wvc = s.wvc := rfl
@[simp] theorem onLbp_lbp (f : Lbp → Lbp) (s : State) : (onLbp f s).lbp = f s.lbp := rfl
@[simp] theorem onLbp_ltr (f : Lbp → Lbp) (s : State) : (onLbp f s).ltr = s.ltr := rfl
@[simp] theorem onLbp_fds (f : Lbp → Lbp) (s : State) : (onLbp f s).fds = s.fds := rfl
@[simp] theorem onLbp_exc (f : Lbp → Lbp) (s : State) : (onLbp f s).exc = s.exc := rfl
@[simp] theorem onLbp_psv (f : Lbp → Lbp) (s : State) : (onLbp f s).psv = s.psv := rfl
@[simp] theorem onLbp_window (f : Lbp → Lbp) (s : State) : (onLbp f s).window = s.window := rfl

/-! ### onLtr -/

@[simp] theorem onLtr_pending (f : Ltr → Ltr) (s : State) : (onLtr f s).pending = s.pending := rfl
@[simp] theorem onLtr_mail (f : Ltr → Ltr) (s : State) : (onLtr f s).mail = s.mail := rfl
@[simp] theorem onLtr_power (f : Ltr → Ltr) (s : State) : (onLtr f s).power = s.power := rfl
@[simp] theorem onLtr_strap (f : Ltr → Ltr) (s : State) : (onLtr f s).strap = s.strap := rfl
@[simp] theorem onLtr_storeFails (f : Ltr → Ltr) (s : State) : (onLtr f s).storeFails = s.storeFails := rfl
@[simp] theorem onLtr_resetReads (f : Ltr → Ltr) (s : State) : (onLtr f s).resetReads = s.resetReads := rfl
@[simp] theorem onLtr_tmb (f : Ltr → Ltr) (s : State) : (onLtr f s).tmb = s.tmb := rfl
@[simp] theorem onLtr_ssu (f : Ltr → Ltr) (s : State) : (onLtr f s).ssu = s.ssu := rfl
@[simp] theorem onLtr_vdu (f : Ltr → Ltr) (s : State) : (onLtr f s).vdu = s.vdu := rfl
@[simp] theorem onLtr_wvc (f : Ltr → Ltr) (s : State) : (onLtr f s).wvc = s.wvc := rfl
@[simp] theorem onLtr_lbp (f : Ltr → Ltr) (s : State) : (onLtr f s).lbp = s.lbp := rfl
@[simp] theorem onLtr_ltr (f : Ltr → Ltr) (s : State) : (onLtr f s).ltr = f s.ltr := rfl
@[simp] theorem onLtr_fds (f : Ltr → Ltr) (s : State) : (onLtr f s).fds = s.fds := rfl
@[simp] theorem onLtr_exc (f : Ltr → Ltr) (s : State) : (onLtr f s).exc = s.exc := rfl
@[simp] theorem onLtr_psv (f : Ltr → Ltr) (s : State) : (onLtr f s).psv = s.psv := rfl
@[simp] theorem onLtr_window (f : Ltr → Ltr) (s : State) : (onLtr f s).window = s.window := rfl

/-! ### onFds -/

@[simp] theorem onFds_pending (f : Fds → Fds) (s : State) : (onFds f s).pending = s.pending := rfl
@[simp] theorem onFds_mail (f : Fds → Fds) (s : State) : (onFds f s).mail = s.mail := rfl
@[simp] theorem onFds_power (f : Fds → Fds) (s : State) : (onFds f s).power = s.power := rfl
@[simp] theorem onFds_strap (f : Fds → Fds) (s : State) : (onFds f s).strap = s.strap := rfl
@[simp] theorem onFds_storeFails (f : Fds → Fds) (s : State) : (onFds f s).storeFails = s.storeFails := rfl
@[simp] theorem onFds_resetReads (f : Fds → Fds) (s : State) : (onFds f s).resetReads = s.resetReads := rfl
@[simp] theorem onFds_tmb (f : Fds → Fds) (s : State) : (onFds f s).tmb = s.tmb := rfl
@[simp] theorem onFds_ssu (f : Fds → Fds) (s : State) : (onFds f s).ssu = s.ssu := rfl
@[simp] theorem onFds_vdu (f : Fds → Fds) (s : State) : (onFds f s).vdu = s.vdu := rfl
@[simp] theorem onFds_wvc (f : Fds → Fds) (s : State) : (onFds f s).wvc = s.wvc := rfl
@[simp] theorem onFds_lbp (f : Fds → Fds) (s : State) : (onFds f s).lbp = s.lbp := rfl
@[simp] theorem onFds_ltr (f : Fds → Fds) (s : State) : (onFds f s).ltr = s.ltr := rfl
@[simp] theorem onFds_fds (f : Fds → Fds) (s : State) : (onFds f s).fds = f s.fds := rfl
@[simp] theorem onFds_exc (f : Fds → Fds) (s : State) : (onFds f s).exc = s.exc := rfl
@[simp] theorem onFds_psv (f : Fds → Fds) (s : State) : (onFds f s).psv = s.psv := rfl
@[simp] theorem onFds_window (f : Fds → Fds) (s : State) : (onFds f s).window = s.window := rfl

/-! ### onExc -/

@[simp] theorem onExc_pending (f : Exc → Exc) (s : State) : (onExc f s).pending = s.pending := rfl
@[simp] theorem onExc_mail (f : Exc → Exc) (s : State) : (onExc f s).mail = s.mail := rfl
@[simp] theorem onExc_power (f : Exc → Exc) (s : State) : (onExc f s).power = s.power := rfl
@[simp] theorem onExc_strap (f : Exc → Exc) (s : State) : (onExc f s).strap = s.strap := rfl
@[simp] theorem onExc_storeFails (f : Exc → Exc) (s : State) : (onExc f s).storeFails = s.storeFails := rfl
@[simp] theorem onExc_resetReads (f : Exc → Exc) (s : State) : (onExc f s).resetReads = s.resetReads := rfl
@[simp] theorem onExc_tmb (f : Exc → Exc) (s : State) : (onExc f s).tmb = s.tmb := rfl
@[simp] theorem onExc_ssu (f : Exc → Exc) (s : State) : (onExc f s).ssu = s.ssu := rfl
@[simp] theorem onExc_vdu (f : Exc → Exc) (s : State) : (onExc f s).vdu = s.vdu := rfl
@[simp] theorem onExc_wvc (f : Exc → Exc) (s : State) : (onExc f s).wvc = s.wvc := rfl
@[simp] theorem onExc_lbp (f : Exc → Exc) (s : State) : (onExc f s).lbp = s.lbp := rfl
@[simp] theorem onExc_ltr (f : Exc → Exc) (s : State) : (onExc f s).ltr = s.ltr := rfl
@[simp] theorem onExc_fds (f : Exc → Exc) (s : State) : (onExc f s).fds = s.fds := rfl
@[simp] theorem onExc_exc (f : Exc → Exc) (s : State) : (onExc f s).exc = f s.exc := rfl
@[simp] theorem onExc_psv (f : Exc → Exc) (s : State) : (onExc f s).psv = s.psv := rfl
@[simp] theorem onExc_window (f : Exc → Exc) (s : State) : (onExc f s).window = s.window := rfl

/-! ### onPsv -/

@[simp] theorem onPsv_pending (f : Psv → Psv) (s : State) : (onPsv f s).pending = s.pending := rfl
@[simp] theorem onPsv_mail (f : Psv → Psv) (s : State) : (onPsv f s).mail = s.mail := rfl
@[simp] theorem onPsv_power (f : Psv → Psv) (s : State) : (onPsv f s).power = s.power := rfl
@[simp] theorem onPsv_strap (f : Psv → Psv) (s : State) : (onPsv f s).strap = s.strap := rfl
@[simp] theorem onPsv_storeFails (f : Psv → Psv) (s : State) : (onPsv f s).storeFails = s.storeFails := rfl
@[simp] theorem onPsv_resetReads (f : Psv → Psv) (s : State) : (onPsv f s).resetReads = s.resetReads := rfl
@[simp] theorem onPsv_tmb (f : Psv → Psv) (s : State) : (onPsv f s).tmb = s.tmb := rfl
@[simp] theorem onPsv_ssu (f : Psv → Psv) (s : State) : (onPsv f s).ssu = s.ssu := rfl
@[simp] theorem onPsv_vdu (f : Psv → Psv) (s : State) : (onPsv f s).vdu = s.vdu := rfl
@[simp] theorem onPsv_wvc (f : Psv → Psv) (s : State) : (onPsv f s).wvc = s.wvc := rfl
@[simp] theorem onPsv_lbp (f : Psv → Psv) (s : State) : (onPsv f s).lbp = s.lbp := rfl
@[simp] theorem onPsv_ltr (f : Psv → Psv) (s : State) : (onPsv f s).ltr = s.ltr := rfl
@[simp] theorem onPsv_fds (f : Psv → Psv) (s : State) : (onPsv f s).fds = s.fds := rfl
@[simp] theorem onPsv_exc (f : Psv → Psv) (s : State) : (onPsv f s).exc = s.exc := rfl
@[simp] theorem onPsv_psv (f : Psv → Psv) (s : State) : (onPsv f s).psv = f s.psv := rfl
@[simp] theorem onPsv_window (f : Psv → Psv) (s : State) : (onPsv f s).window = s.window := rfl

/-! ### onWindow -/

@[simp] theorem onWindow_pending (f : Memory → Memory) (s : State) : (onWindow f s).pending = s.pending := rfl
@[simp] theorem onWindow_mail (f : Memory → Memory) (s : State) : (onWindow f s).mail = s.mail := rfl
@[simp] theorem onWindow_power (f : Memory → Memory) (s : State) : (onWindow f s).power = s.power := rfl
@[simp] theorem onWindow_strap (f : Memory → Memory) (s : State) : (onWindow f s).strap = s.strap := rfl
@[simp] theorem onWindow_storeFails (f : Memory → Memory) (s : State) : (onWindow f s).storeFails = s.storeFails := rfl
@[simp] theorem onWindow_resetReads (f : Memory → Memory) (s : State) : (onWindow f s).resetReads = s.resetReads := rfl
@[simp] theorem onWindow_tmb (f : Memory → Memory) (s : State) : (onWindow f s).tmb = s.tmb := rfl
@[simp] theorem onWindow_ssu (f : Memory → Memory) (s : State) : (onWindow f s).ssu = s.ssu := rfl
@[simp] theorem onWindow_vdu (f : Memory → Memory) (s : State) : (onWindow f s).vdu = s.vdu := rfl
@[simp] theorem onWindow_wvc (f : Memory → Memory) (s : State) : (onWindow f s).wvc = s.wvc := rfl
@[simp] theorem onWindow_lbp (f : Memory → Memory) (s : State) : (onWindow f s).lbp = s.lbp := rfl
@[simp] theorem onWindow_ltr (f : Memory → Memory) (s : State) : (onWindow f s).ltr = s.ltr := rfl
@[simp] theorem onWindow_fds (f : Memory → Memory) (s : State) : (onWindow f s).fds = s.fds := rfl
@[simp] theorem onWindow_exc (f : Memory → Memory) (s : State) : (onWindow f s).exc = s.exc := rfl
@[simp] theorem onWindow_psv (f : Memory → Memory) (s : State) : (onWindow f s).psv = s.psv := rfl
@[simp] theorem onWindow_window (f : Memory → Memory) (s : State) : (onWindow f s).window = f s.window := rfl

/-! ### refreshLamps -/

@[simp] theorem refreshLamps_pending (s : State) : (refreshLamps s).pending = s.pending := rfl
@[simp] theorem refreshLamps_mail (s : State) : (refreshLamps s).mail = s.mail := rfl
@[simp] theorem refreshLamps_power (s : State) : (refreshLamps s).power = s.power := rfl
@[simp] theorem refreshLamps_strap (s : State) : (refreshLamps s).strap = s.strap := rfl
@[simp] theorem refreshLamps_storeFails (s : State) : (refreshLamps s).storeFails = s.storeFails := rfl
@[simp] theorem refreshLamps_resetReads (s : State) : (refreshLamps s).resetReads = s.resetReads := rfl
@[simp] theorem refreshLamps_tmb (s : State) : (refreshLamps s).tmb = s.tmb := rfl
@[simp] theorem refreshLamps_ssu (s : State) : (refreshLamps s).ssu = s.ssu := rfl
@[simp] theorem refreshLamps_vdu (s : State) : (refreshLamps s).vdu = s.vdu := rfl
@[simp] theorem refreshLamps_wvc (s : State) : (refreshLamps s).wvc = s.wvc := rfl
@[simp] theorem refreshLamps_lbp (s : State) : (refreshLamps s).lbp = s.lbp := rfl
@[simp] theorem refreshLamps_ltr (s : State) : (refreshLamps s).ltr = s.ltr := rfl
@[simp] theorem refreshLamps_fds (s : State) : (refreshLamps s).fds = s.fds := rfl
@[simp] theorem refreshLamps_exc (s : State) : (refreshLamps s).exc = s.exc := rfl
@[simp] theorem refreshLamps_window (s : State) : (refreshLamps s).window = s.window := rfl
@[simp] theorem refreshLamps_psv_state (s : State) : (refreshLamps s).psv.state = s.psv.state := rfl
@[simp] theorem refreshLamps_psv_jobMark (s : State) : (refreshLamps s).psv.jobMark = s.psv.jobMark := rfl
@[simp] theorem refreshLamps_psv_rig (s : State) : (refreshLamps s).psv.rig = s.psv.rig := rfl
@[simp] theorem refreshLamps_psv_snapshot (s : State) : (refreshLamps s).psv.snapshot = s.psv.snapshot := rfl
@[simp] theorem refreshLamps_psv_control (s : State) : (refreshLamps s).psv.control = s.psv.control := rfl
@[simp] theorem refreshLamps_psv_lineMode (s : State) : (refreshLamps s).psv.lineMode = s.psv.lineMode := rfl
@[simp] theorem refreshLamps_psv_bench (s : State) : (refreshLamps s).psv.bench = s.psv.bench := rfl
@[simp] theorem refreshLamps_psv_benchPhase (s : State) : (refreshLamps s).psv.benchPhase = s.psv.benchPhase := rfl
@[simp] theorem refreshLamps_psv_haltCause (s : State) : (refreshLamps s).psv.haltCause = s.psv.haltCause := rfl
@[simp] theorem refreshLamps_psv_rigCheck (s : State) : (refreshLamps s).psv.rigCheck = s.psv.rigCheck := rfl
@[simp] theorem refreshLamps_psv_monitor (s : State) : (refreshLamps s).psv.monitor = s.psv.monitor := rfl
@[simp] theorem refreshLamps_psv_supplyGood (s : State) : (refreshLamps s).psv.supplyGood = s.psv.supplyGood := rfl
@[simp] theorem refreshLamps_psv_goodTimer (s : State) : (refreshLamps s).psv.goodTimer = s.psv.goodTimer := rfl
@[simp] theorem refreshLamps_psv_deferredReset (s : State) : (refreshLamps s).psv.deferredReset = s.psv.deferredReset := rfl
@[simp] theorem refreshLamps_psv_dying (s : State) : (refreshLamps s).psv.dying = s.psv.dying := rfl
@[simp] theorem refreshLamps_psv_recovery (s : State) : (refreshLamps s).psv.recovery = s.psv.recovery := rfl
@[simp] theorem refreshLamps_psv_recoveryTimer (s : State) : (refreshLamps s).psv.recoveryTimer = s.psv.recoveryTimer := rfl
@[simp] theorem refreshLamps_psv_lastRecoveryEnd (s : State) : (refreshLamps s).psv.lastRecoveryEnd = s.psv.lastRecoveryEnd := rfl
@[simp] theorem refreshLamps_psv_repeatedOutage (s : State) : (refreshLamps s).psv.repeatedOutage = s.psv.repeatedOutage := rfl
@[simp] theorem refreshLamps_psv_waveEnded (s : State) : (refreshLamps s).psv.waveEnded = s.psv.waveEnded := rfl
@[simp] theorem refreshLamps_psv_feedStopped (s : State) : (refreshLamps s).psv.feedStopped = s.psv.feedStopped := rfl
@[simp] theorem refreshLamps_psv_waveDone (s : State) : (refreshLamps s).psv.waveDone = s.psv.waveDone := rfl
@[simp] theorem refreshLamps_psv_feedDone (s : State) : (refreshLamps s).psv.feedDone = s.psv.feedDone := rfl
@[simp] theorem refreshLamps_psv_clearing (s : State) : (refreshLamps s).psv.clearing = s.psv.clearing := rfl
@[simp] theorem refreshLamps_psv_green (s : State) :
    (refreshLamps s).psv.green = s.psv.green.show (lampPatterns s).green s.tmb.fineTime := rfl
@[simp] theorem refreshLamps_psv_amber (s : State) :
    (refreshLamps s).psv.amber = s.psv.amber.show (lampPatterns s).amber s.tmb.fineTime := rfl
@[simp] theorem refreshLamps_psv_red (s : State) :
    (refreshLamps s).psv.red = s.psv.red.show (lampPatterns s).red s.tmb.fineTime := rfl

/-! ### Updates of one block's own record -/

@[simp] theorem Vdu.withChannels_channels (v : Vdu) (cs : Table Channel 64) : (v.withChannels cs).channels = cs := rfl
@[simp] theorem Vdu.withChannels_quiet (v : Vdu) (cs : Table Channel 64) : (v.withChannels cs).quiet = v.quiet := rfl
@[simp] theorem Vdu.withChannels_pumpEnable (v : Vdu) (cs : Table Channel 64) : (v.withChannels cs).pumpEnable = anyOf cs Channel.needsPump := rfl
@[simp] theorem Vdu.withChannels_view (v : Vdu) (cs : Table Channel 64) : (v.withChannels cs).view = v.view := rfl

@[simp] theorem Exc.withAttn_orderImages (e : Exc) (a m : BitVec 6) : (e.withAttn a m).orderImages = e.orderImages := rfl
@[simp] theorem Exc.withAttn_batchImages (e : Exc) (a m : BitVec 6) : (e.withAttn a m).batchImages = e.batchImages := rfl
@[simp] theorem Exc.withAttn_orderHanded (e : Exc) (a m : BitVec 6) : (e.withAttn a m).orderHanded = e.orderHanded := rfl
@[simp] theorem Exc.withAttn_batchHanded (e : Exc) (a m : BitVec 6) : (e.withAttn a m).batchHanded = e.batchHanded := rfl
@[simp] theorem Exc.withAttn_candidates (e : Exc) (a m : BitVec 6) : (e.withAttn a m).candidates = e.candidates := rfl
@[simp] theorem Exc.withAttn_edition (e : Exc) (a m : BitVec 6) : (e.withAttn a m).edition = e.edition := rfl
@[simp] theorem Exc.withAttn_lastRejected (e : Exc) (a m : BitVec 6) : (e.withAttn a m).lastRejected = e.lastRejected := rfl
@[simp] theorem Exc.withAttn_badField (e : Exc) (a m : BitVec 6) : (e.withAttn a m).badField = e.badField := rfl
@[simp] theorem Exc.withAttn_statusEdition (e : Exc) (a m : BitVec 6) : (e.withAttn a m).statusEdition = e.statusEdition := rfl
@[simp] theorem Exc.withAttn_misuse (e : Exc) (a m : BitVec 6) : (e.withAttn a m).misuse = e.misuse := rfl
@[simp] theorem Exc.withAttn_misuseEvent (e : Exc) (a m : BitVec 6) : (e.withAttn a m).misuseEvent = e.misuseEvent := rfl
@[simp] theorem Exc.withAttn_directiveBad (e : Exc) (a m : BitVec 6) : (e.withAttn a m).directiveBad = e.directiveBad := rfl
@[simp] theorem Exc.withAttn_scanTimer (e : Exc) (a m : BitVec 6) : (e.withAttn a m).scanTimer = e.scanTimer := rfl
@[simp] theorem Exc.withAttn_publishTimer (e : Exc) (a m : BitVec 6) : (e.withAttn a m).publishTimer = e.publishTimer := rfl
@[simp] theorem Exc.withAttn_deferred (e : Exc) (a m : BitVec 6) : (e.withAttn a m).deferred = e.deferred := rfl
@[simp] theorem Exc.withAttn_publication (e : Exc) (a m : BitVec 6) : (e.withAttn a m).publication = e.publication := rfl
@[simp] theorem Exc.withAttn_postscaler (e : Exc) (a m : BitVec 6) : (e.withAttn a m).postscaler = e.postscaler := rfl
@[simp] theorem Exc.withAttn_clearStage (e : Exc) (a m : BitVec 6) : (e.withAttn a m).clearStage = e.clearStage := rfl
@[simp] theorem Exc.withAttn_attn (e : Exc) (a m : BitVec 6) : (e.withAttn a m).attn = a := rfl
@[simp] theorem Exc.withAttn_attnMask (e : Exc) (a m : BitVec 6) : (e.withAttn a m).attnMask = m := rfl
@[simp] theorem Exc.withAttn_attnPace (e : Exc) (a m : BitVec 6) : (e.withAttn a m).attnPace = e.attnPace := rfl
@[simp] theorem Exc.withAttn_attnLine (e : Exc) (a m : BitVec 6) : (e.withAttn a m).attnLine = decide (a &&& ~~~m ≠ 0) := rfl
@[simp] theorem Exc.withAttn_view (e : Exc) (a m : BitVec 6) : (e.withAttn a m).view = e.view := rfl

end Sys2Proof.Machine
end

