-- ==== Sys2Proof/Laws/Tables.lean ====
section
/-! SUPPORT. What each table operation leaves at each entry. -/

namespace Sys2Proof.Machine

open Sys2Proof

variable {α β : Type} {n : Nat}

/-! The entries are written `t[i]` with `i : Fin n` in the model; `simp` writes them `t[i.1]`, so the simp lemmas do. -/

@[simp] theorem tabulate_nat (f : Fin n → α) (i : Nat) (h : i < n) : (tabulate f)[i] = f ⟨i, h⟩ := by simp [tabulate]

@[simp] theorem put_same_nat (t : Table α n) (i : Fin n) (x : α) : (put t i x)[i.1] = x := by simp [put]

@[simp] theorem mapAll_nat (t : Table α n) (f : α → β) (i : Nat) (h : i < n) : (mapAll t f)[i] = f t[i] := by
  simp [mapAll]

theorem tabulate_get (f : Fin n → α) (i : Fin n) : (tabulate f)[i] = f i := tabulate_nat f i.1 i.2

theorem put_same (t : Table α n) (i : Fin n) (x : α) : (put t i x)[i] = x := put_same_nat t i x

theorem put_other (t : Table α n) {i j : Fin n} (x : α) (h : i ≠ j) : (put t i x)[j] = t[j] := by
  have : i.1 ≠ j.1 := fun e => h (Fin.ext e)
  simp [put, this]

theorem put_get (t : Table α n) (i j : Fin n) (x : α) : (put t i x)[j] = if i = j then x else t[j] := by
  by_cases h : i = j
  · subst h; rw [if_pos rfl, put_same]
  · rw [if_neg h, put_other t x h]

theorem modify_same (t : Table α n) (i : Fin n) (f : α → α) : (modify t i f)[i] = f t[i] := put_same _ _ _

theorem modify_other (t : Table α n) {i j : Fin n} (f : α → α) (h : i ≠ j) : (modify t i f)[j] = t[j] :=
  put_other t _ h

theorem mapAll_get (t : Table α n) (f : α → β) (i : Fin n) : (mapAll t f)[i] = f t[i] := mapAll_nat t f i.1 i.2

theorem replicate_get (x : α) (i : Fin n) : (Vector.replicate n x)[i] = x := by simp

theorem table_ext {t u : Table α n} (h : ∀ i : Fin n, t[i] = u[i]) : t = u :=
  Vector.ext fun i hi => h ⟨i, hi⟩

theorem put_get_self (t : Table α n) (i : Fin n) : put t i t[i] = t :=
  table_ext fun j => by
    rw [put_get]
    split
    · rename_i h; subst h; rfl
    · rfl

theorem anyOf_iff (t : Table α n) (p : α → Bool) : anyOf t p = true ↔ ∃ i : Fin n, p t[i] = true := by simp [anyOf]

theorem anyOf_false_iff (t : Table α n) (p : α → Bool) : anyOf t p = false ↔ ∀ i : Fin n, p t[i] = false := by
  simp [anyOf]

theorem allOf_iff (t : Table α n) (p : α → Bool) : allOf t p = true ↔ ∀ i : Fin n, p t[i] = true := by simp [allOf]

end Sys2Proof.Machine
end

