-- ==== Sys2Proof/Laws/Ops.lean ====
section
/-! SUPPORT. What a command answers while the part acts and while it does not, and what the lamps show afterwards. -/

namespace Sys2Proof.Machine

open Sys2Proof

/-! ## Acting -/

theorem acting_iff (s : State) : acting s = true ↔ s.power = .on := by
  unfold acting
  split
  · rename_i h; simp [h]
  · rename_i h; simp only [Bool.false_eq_true, false_iff]; exact h

theorem acting_false_iff (s : State) : acting s = false ↔ s.power ≠ .on := by
  rw [← Bool.not_eq_true, acting_iff]

theorem acting_congr {s t : State} (h : t.power = s.power) : acting t = acting s := by unfold acting; rw [h]

theorem whileActing_on (f : State → State) {s : State} (h : acting s = true) :
    whileActing f s = .next (refreshLamps (f s)) := by simp [whileActing, h]

theorem whileActing_off (f : State → State) {s : State} (h : acting s = false) : whileActing f s = .next s := by
  simp [whileActing, h]

theorem whileActing_next (f : State → State) (s : State) : ∃ t, whileActing f s = .next t := ⟨_, rfl⟩

theorem taking_on (c : Instr) (f : State → State) {s : State} (h : acting s = true) :
    taking c f s = .next (refreshLamps (f (took c s))) := whileActing_on _ h

theorem taking_off (c : Instr) (f : State → State) {s : State} (h : acting s = false) : taking c f s = .next s :=
  whileActing_off _ h

@[simp] theorem when_true (f : State → State) (s : State) : when true f s = f s := rfl

@[simp] theorem when_false (f : State → State) (s : State) : when false f s = s := rfl

/-! ## Lamps -/

@[simp] theorem show_pattern (l : Lamp) (p : LampPattern) (a : Word) : (l.show p a).pattern = p := by
  unfold Lamp.show
  split <;> simp_all

theorem show_same (l : Lamp) (a : Word) : l.show l.pattern a = l := by simp [Lamp.show]

theorem show_show (l : Lamp) (p : LampPattern) (a : Word) : (l.show p a).show p a = l.show p a := by
  conv_lhs => rw [Lamp.show]
  simp

/-- The lamps' own state has no say in what they show. -/
theorem lampPatterns_refreshLamps (s : State) : lampPatterns (refreshLamps s) = lampPatterns s := rfl

/-- A refresh changes nothing but the three lamps. -/
theorem refreshLamps_eq (s : State) : refreshLamps s = { s with psv := { s.psv with
    green := (refreshLamps s).psv.green, amber := (refreshLamps s).psv.amber, red := (refreshLamps s).psv.red } } := rfl

/-! ## Reading back what an update put -/

@[simp] theorem ssuOf_setSsu (s : State) (st : Station) (u : SsuStation) : ssuOf (setSsu s st u) st = u :=
  put_same _ _ _

theorem ssuOf_setSsu_other (s : State) {st other : Station} (u : SsuStation) (h : st ≠ other) :
    ssuOf (setSsu s st u) other = ssuOf s other := put_other _ _ h

@[simp] theorem ssuOf_mapSsu (f : SsuStation → SsuStation) (s : State) (st : Station) :
    ssuOf (mapSsu f s) st = f (ssuOf s st) := by unfold ssuOf mapSsu; exact mapAll_get _ _ _

@[simp] theorem channelOf_setChannel (s : State) (st : Station) (c : Channel) : channelOf (setChannel s st c) st = c :=
  put_same _ _ _

theorem channelOf_setChannel_other (s : State) {st other : Station} (c : Channel) (h : st ≠ other) :
    channelOf (setChannel s st c) other = channelOf s other := put_other _ _ h

@[simp] theorem channelOf_mapChannels (f : Channel → Channel) (s : State) (st : Station) :
    channelOf (mapChannels f s) st = f (channelOf s st) := by
  unfold channelOf mapChannels Vdu.withChannels; exact mapAll_get _ _ _

@[simp] theorem recordOf_setRecord (s : State) (st : Station) (r : StationRecord) :
    recordOf (setRecord s st r) st = r := put_same _ _ _

theorem recordOf_setRecord_other (s : State) {st other : Station} (r : StationRecord) (h : st ≠ other) :
    recordOf (setRecord s st r) other = recordOf s other := put_other _ _ h

@[simp] theorem itemOf_setItem (s : State) (st : Station) (i : WaveItem) : itemOf (setItem s st i) st = i :=
  put_same _ _ _

theorem itemOf_setItem_other (s : State) {st other : Station} (i : WaveItem) (h : st ≠ other) :
    itemOf (setItem s st i) other = itemOf s other := put_other _ _ h

@[simp] theorem itemOf_mapItems (f : WaveItem → WaveItem) (s : State) (st : Station) :
    itemOf (mapItems f s) st = f (itemOf s st) := by unfold itemOf mapItems; exact mapAll_get _ _ _

@[simp] theorem batchOf_setBatch (s : State) (slot : BatchSlot) (r : Option BatchRecord) :
    batchOf (setBatch slot r s) slot = r := put_same _ _ _

theorem batchOf_setBatch_other (s : State) {slot other : BatchSlot} (r : Option BatchRecord) (h : slot ≠ other) :
    batchOf (setBatch slot r s) other = batchOf s other := put_other _ _ h

end Sys2Proof.Machine
end

