-- ==== Sys2Proof/Laws/Clock.lean ====
section
/-! SUPPORT. What `due` finds, block by block: a command found has its time come, and where nothing is found none has. -/

namespace Sys2Proof.Machine

open Sys2Proof

/-! ## The ways a command is found -/

theorem dueWhen_some {b : Bool} {c d : Instr} : dueWhen b c = some d ↔ b = true ∧ c = d := by
  unfold dueWhen
  split <;> simp_all

theorem dueWhen_none {b : Bool} {c : Instr} : dueWhen b c = none ↔ b = false := by
  unfold dueWhen
  split <;> simp_all

theorem firstOf_some {a b : Option Instr} {c : Instr} : (a <|> b) = some c ↔ a = some c ∨ (a = none ∧ b = some c) := by
  cases a <;> simp

theorem firstOf_none {a b : Option Instr} : (a <|> b) = none ↔ a = none ∧ b = none := by cases a <;> simp

theorem firstStation_none {p : Station → Bool} {c : Station → Instr} : firstStation p c = none ↔ ∀ st, p st = false := by
  simp [firstStation, allStations]

theorem firstStation_some {p : Station → Bool} {c : Station → Instr} {d : Instr} (h : firstStation p c = some d) :
    ∃ st, p st = true ∧ c st = d := by
  simp only [firstStation, Option.map_eq_some_iff] at h
  obtain ⟨st, h, rfl⟩ := h
  exact ⟨st, List.find?_some h, rfl⟩

/-! ## Each block -/

theorem waveDue_some {s : State} {c : Instr} (h : waveDue s = some c) :
    (c = .fallTimerExpiry ∧ s.wvc.climb = .settle ∧ s.wvc.ending = none ∧ timerDue s.wvc.fallTimer (now s) = true)
    ∨ (c = .settleTimerExpiry ∧ s.wvc.climb = .settle ∧ s.wvc.ending = none
        ∧ timerDue s.wvc.settleTimer (now s) = true)
    ∨ (c = .driveTimerExpiry ∧ s.wvc.climb = .drive ∧ s.wvc.ending = none
        ∧ timerDue s.wvc.driveTimer (now s) = true)
    ∨ (c = .dwellExpiry ∧ s.wvc.climb = .dwell ∧ startDue s = true ∧ s.wvc.permission = false) := by
  unfold waveDue at h
  simp only [firstOf_some, dueWhen_some] at h
  rcases h with h | ⟨-, h | ⟨-, h | ⟨-, h⟩⟩⟩ <;> simp_all

theorem waveDue_none {s : State} (h : waveDue s = none) :
    ¬(s.wvc.climb = .settle ∧ s.wvc.ending = none ∧ timerDue s.wvc.fallTimer (now s) = true)
    ∧ ¬(s.wvc.climb = .settle ∧ s.wvc.ending = none ∧ timerDue s.wvc.settleTimer (now s) = true)
    ∧ ¬(s.wvc.climb = .drive ∧ s.wvc.ending = none ∧ timerDue s.wvc.driveTimer (now s) = true)
    ∧ ¬(s.wvc.climb = .dwell ∧ startDue s = true ∧ s.wvc.permission = false) := by
  unfold waveDue at h
  simp only [firstOf_none, dueWhen_none] at h
  obtain ⟨h1, h2, h3, h4⟩ := h
  simp_all

theorem startDue_iff (s : State) : startDue s = true ↔
    s.wvc.values.riseRate ≠ 0 ∧ s.psv.rig.strokeLength * 3600000 / s.wvc.values.riseRate ≤ s.wvc.dwell := by
  simp only [startDue, wavePeriod]
  split <;> rename_i h <;> split at h <;> simp_all

theorem gateDue_some {s : State} {c : Instr} (h : gateDue s = some c) : drives s.fds.view = true
    ∧ ((c = .gateClose ∧ ∃ k g, s.fds.gate = .drop k g ∧ g.isDue (now s) = true)
      ∨ (c = .wasteGateClose ∧ ∃ g cause, s.fds.gate = .waste g cause ∧ g.isDue (now s) = true)) := by
  unfold gateDue at h
  split at h <;> [skip; simp at h]
  rename_i hd
  refine ⟨hd, ?_⟩
  split at h
  · simp at h
  · rename_i k g hg
    rw [dueWhen_some] at h
    exact .inl ⟨h.2.symm, k, g, hg, h.1⟩
  · rename_i g cause hg
    rw [dueWhen_some] at h
    exact .inr ⟨h.2.symm, g, cause, hg, h.1⟩

theorem gateDue_none {s : State} (h : gateDue s = none) (d : drives s.fds.view = true) :
    (∀ k g, s.fds.gate = .drop k g → g.isDue (now s) = false)
    ∧ ∀ g cause, s.fds.gate = .waste g cause → g.isDue (now s) = false := by
  simp only [gateDue, d, if_true] at h
  constructor
  · intro k g hg
    simpa only [hg, dueWhen_none] using h
  · intro g cause hg
    simpa only [hg, dueWhen_none] using h

theorem supervisorDue_some {s : State} {c : Instr} (h : supervisorDue s = some c) :
    (c = .recoveryWindowExpiry ∧ isSettling s = true ∧ timerDue s.psv.recoveryTimer (now s) = true)
    ∨ (c = .returnOfGoodSupply ∧ s.psv.state = .powerDown ∧ s.psv.monitor = .wait
        ∧ stampDue s.psv.goodTimer Config.goodSupplyTime (now s) = true)
    ∨ (c = .lampTestExpiry ∧ ∃ b, s.psv.benchPhase = .lampTest b ∧ Config.lampTestTime ≤ since (now s) b) := by
  unfold supervisorDue at h
  rw [firstOf_some, firstOf_some] at h
  simp only [dueWhen_some] at h
  rcases h with h | ⟨-, h | ⟨-, h⟩⟩
  · left; simp_all
  · right; left; simp_all
  · right; right
    split at h
    · rename_i b hb
      rw [dueWhen_some] at h
      exact ⟨h.2.symm, b, hb, by simpa using h.1⟩
    · simp at h

theorem supervisorDue_none {s : State} (h : supervisorDue s = none) :
    ¬(isSettling s = true ∧ timerDue s.psv.recoveryTimer (now s) = true)
    ∧ ¬(s.psv.state = .powerDown ∧ s.psv.monitor = .wait
        ∧ stampDue s.psv.goodTimer Config.goodSupplyTime (now s) = true)
    ∧ ∀ b, s.psv.benchPhase = .lampTest b → since (now s) b < Config.lampTestTime := by
  unfold supervisorDue at h
  rw [firstOf_none, firstOf_none] at h
  simp only [dueWhen_none] at h
  obtain ⟨h1, h2, h3⟩ := h
  refine ⟨by simp_all, by simp_all, ?_⟩
  intro b hb
  simpa [hb, dueWhen_none] using h3

theorem levelDue_some {s : State} {c : Instr} (h : levelDue s = some c) :
    (c = .settleHoldEnd ∧ stampDue s.lbp.settleHold (1000 * s.psv.rig.probeSettle) (now s) = true)
    ∨ (∃ st, c = .readingMadeAbsent st ∧ readingOld s st = true) ∨ (c = .replyTimeout ∧ replyLate s = true)
    ∨ (c = .transactionBegin ∧ pollDue s = true) := by
  unfold levelDue at h
  simp only [firstOf_some, dueWhen_some] at h
  rcases h with h | ⟨-, h | ⟨-, h | ⟨-, h⟩⟩⟩
  · simp_all
  · obtain ⟨st, h1, h2⟩ := firstStation_some h
    exact .inr (.inl ⟨st, h2.symm, h1⟩)
  all_goals simp_all

theorem levelDue_none {s : State} (h : levelDue s = none) :
    stampDue s.lbp.settleHold (1000 * s.psv.rig.probeSettle) (now s) = false ∧ (∀ st, readingOld s st = false)
    ∧ replyLate s = false ∧ pollDue s = false := by
  unfold levelDue at h
  simp only [firstOf_none, dueWhen_none, firstStation_none] at h
  simp_all

theorem exchangeDue_some {s : State} {c : Instr} (h : exchangeDue s = some c) :
    (c = .exchangeScan ∧ exchanges s.psv.state = true ∧ stampDue s.exc.scanTimer Config.scanPeriod (now s) = true)
    ∨ (c = .publishTimerExpiry ∧ exchanges s.psv.state = true ∧ timerDue s.exc.publishTimer (now s) = true) := by
  unfold exchangeDue at h
  simp only [firstOf_some, dueWhen_some] at h
  rcases h with h | ⟨-, h⟩ <;> simp_all

theorem exchangeDue_none {s : State} (h : exchangeDue s = none) :
    ¬(exchanges s.psv.state = true ∧ stampDue s.exc.scanTimer Config.scanPeriod (now s) = true)
    ∧ ¬(exchanges s.psv.state = true ∧ timerDue s.exc.publishTimer (now s) = true) := by
  unfold exchangeDue at h
  simp only [firstOf_none, dueWhen_none] at h
  simp_all

theorem lampDue_some {s : State} {c : Instr} (h : lampDue s = some c) :
    ∃ n, c = .lampFlashToggle n ∧ lampIsDue (lampOf s n) (now s) = true := by
  simp only [lampDue, Option.map_eq_some_iff] at h
  obtain ⟨n, h, rfl⟩ := h
  have := List.find?_some h
  exact ⟨n, rfl, by simpa using this⟩

theorem lampDue_none {s : State} (h : lampDue s = none) (n : LampName) : lampIsDue (lampOf s n) (now s) = false := by
  simp [lampDue] at h
  cases n <;> simp_all

/-! ## The whole part -/

theorem due_some {s : State} {c : Instr} (h : due s = some c) :
    (∃ st, c = .rampEnd st ∧ (channelOf s st).rampDue (now s) = true) ∨ waveDue s = some c ∨ gateDue s = some c
    ∨ supervisorDue s = some c ∨ levelDue s = some c ∨ exchangeDue s = some c ∨ lampDue s = some c := by
  unfold due at h
  simp only [firstOf_some] at h
  rcases h with h | ⟨-, h⟩
  · obtain ⟨st, h1, h2⟩ := firstStation_some h
    exact .inl ⟨st, h2.symm, h1⟩
  · rcases h with h | ⟨-, h | ⟨-, h | ⟨-, h | ⟨-, h | ⟨-, h⟩⟩⟩⟩⟩ <;> simp [h]

theorem due_none {s : State} (h : due s = none) :
    (∀ st, (channelOf s st).rampDue (now s) = false) ∧ waveDue s = none ∧ gateDue s = none ∧ supervisorDue s = none
    ∧ levelDue s = none ∧ exchangeDue s = none ∧ lampDue s = none := by
  unfold due at h
  simp only [firstOf_none, firstStation_none] at h
  obtain ⟨h1, h2, h3, h4, h5, h6, h7⟩ := h
  exact ⟨h1, h2, h3, h4, h5, h6, h7⟩

/-! ## Messages that wait -/

/-- A message that is neither of those that may wait is never held back. -/
theorem heldBack_of_ne {s : State} {c : Instr} (hw : c ≠ .wavePowerDown) (hf : c ≠ .clearNotice .fds)
    (he : c ≠ .clearNotice .exc) : heldBack s c = false := by
  simp [heldBack, emptiesSlots, hw, hf, he]

theorem heldBack_wavePowerDown (s : State) :
    heldBack s .wavePowerDown = decide (s.ssu.scan = .ending) := by simp [heldBack, emptiesSlots]

theorem heldBack_clearNotice (s : State) {b : Block} (hb : b = .fds ∨ b = .exc) :
    heldBack s (.clearNotice b) = (settlingWaits s || handoverWaits s) := by
  rcases hb with rfl | rfl <;> simp [heldBack, emptiesSlots]

end Sys2Proof.Machine
end

