-- ==== Sys2Proof/Laws/Dispatch.lean ====
section
/-! SUPPORT. One lemma for each command: what it answers, and what it answers while the part acts and while it does not. -/

namespace Sys2Proof.Machine

open Sys2Proof

theorem exec_start (s : State) :
    exec .start s = whileActing (command (takenInConfig .start startInConfig)) s := rfl

theorem exec_stop (s : State) :
    exec .stop s = whileActing (command takeStop) s := rfl

theorem exec_clear (s : State) :
    exec .clear s = whileActing (command (takenInConfig .clear clearInConfig)) s := rfl

theorem exec_reset (s : State) :
    exec .reset s = whileActing (command takeReset) s := rfl

theorem exec_lineModeRestart (s : State) :
    exec .lineModeRestart s = whileActing (command (setLineMode .lineModeRestart .restart)) s := rfl

theorem exec_lineModeHold (s : State) :
    exec .lineModeHold s = whileActing (command (setLineMode .lineModeHold .hold)) s := rfl

theorem exec_unknownCommand (code : Byte) (s : State) :
    exec (.unknownCommand code) s = whileActing (command (answerCode code .unknown 0)) s := rfl

theorem exec_attnWrite (value : Word) (s : State) :
    exec (.attnWrite value) s = whileActing (writeAttn value) s := rfl

theorem exec_attnMaskWrite (value : Word) (s : State) :
    exec (.attnMaskWrite value) s = whileActing (writeAttnMask value) s := rfl

theorem exec_attnPaceWrite (value : Word) (s : State) :
    exec (.attnPaceWrite value) s = whileActing (writeAttnPace value) s := rfl

theorem exec_ignoredRegisterWrite (_offset : Nat) (_value : Word) (s : State) :
    exec (.ignoredRegisterWrite _offset _value) s = .next s := rfl

theorem exec_hostWindowWrite (offset : Nat) (value : Word) (s : State) :
    exec (.hostWindowWrite offset value) s = if namesWord offset then .next (if powered s then hostWrite offset value s else s) else .fault .noSuchWord := rfl

theorem exec_retentionStoreError (failure : StoreFailure) (s : State) :
    exec (.retentionStoreError failure) s = match s.power with
      | .on => whileActing (takeStoreError failure) s
      | .held _ => .next (noteFailure failure s)
      | .off => .next s := rfl

theorem exec_powerOn (backupHeld : Bool) (s : State) :
    exec (.powerOn backupHeld) s = .next (if powered s then s else refreshLamps (powerUp backupHeld s)) := rfl

theorem exec_lineResetRestart (s : State) :
    exec .lineResetRestart s = whileActing assertLine s := rfl

theorem exec_lineResetHold (s : State) :
    exec .lineResetHold s = whileActing assertLine s := rfl

theorem exec_supplyLow (s : State) :
    exec .supplyLow s = whileActing takeSupplyLow s := rfl

theorem exec_supplyGood (s : State) :
    exec .supplyGood s = whileActing takeSupplyGood s := rfl

theorem exec_returnOfGoodSupply (s : State) :
    exec .returnOfGoodSupply s = whileActing takeReturn s := rfl

theorem exec_powerDownActionsDone (s : State) :
    exec .powerDownActionsDone s = taking .powerDownActionsDone takeWaveDone s := rfl

theorem exec_feedStopped (s : State) :
    exec .feedStopped s = taking .feedStopped takeFeedStopped s := rfl

theorem exec_waveEnded (s : State) :
    exec .waveEnded s = taking .waveEnded takeWaveEnded s := rfl

theorem exec_siteSecondAdvance (s : State) :
    exec .siteSecondAdvance s = .next (if acting s then refreshLamps (noticeSecond (advanceSecond s)) else advanceSecond s) := rfl

theorem exec_siteSecondNotice (b : Block) (s : State) :
    exec (.siteSecondNotice b) s = taking (.siteSecondNotice b) (blockSecond b) s := rfl

theorem exec_lampFlashToggle (name : LampName) (s : State) :
    exec (.lampFlashToggle name) s = whileActing (toggleLamp name) s := rfl

theorem exec_rowRead (columns : Byte) (s : State) :
    exec (.rowRead columns) s = whileActing (takeRowRead columns) s := rfl

theorem exec_lampTestExpiry (s : State) :
    exec .lampTestExpiry s = whileActing endLampTest s := rfl

theorem exec_openWindow (st : Station) (kinds : WindowKinds) (notices : Bool) (s : State) :
    exec (.openWindow st kinds notices) s = taking (.openWindow st kinds notices) (takeOpenWindow st kinds notices) s := rfl

theorem exec_closeWindow (st : Station) (s : State) :
    exec (.closeWindow st) s = taking (.closeWindow st) (takeCloseWindow st) s := rfl

theorem exec_drainQueue (st : Station) (s : State) :
    exec (.drainQueue st) s = taking (.drainQueue st) (takeDrainQueue st) s := rfl

theorem exec_strayReset (st : Station) (s : State) :
    exec (.strayReset st) s = taking (.strayReset st) (takeStrayReset st) s := rfl

theorem exec_firstOfKindNotice (st : Station) (kind : EdgeKind) (time : Word) (s : State) :
    exec (.firstOfKindNotice st kind time) s = taking (.firstOfKindNotice st kind time) (takeFirstOfKind st kind) s := rfl

theorem exec_drainAnswer (st : Station) (records : List EdgeRecord) (overflow : Bool) (s : State) :
    exec (.drainAnswer st records overflow) s = taking (.drainAnswer st records overflow) (takeDrainAnswer st records overflow) s := rfl

theorem exec_markRequest (st : Station) (cause : MarkCause) (s : State) :
    exec (.markRequest st cause) s = taking (.markRequest st cause) (takeMarkRequest st cause) s := rfl

theorem exec_coilFaultNotice (st : Station) (s : State) :
    exec (.coilFaultNotice st) s = taking (.coilFaultNotice st) (takeCoilFault st) s := rfl

theorem exec_eventRequest (st : Station) (s : State) :
    exec (.eventRequest st) s = taking (.eventRequest st) (takeEventRequest st) s := rfl

theorem exec_openValve (st : Station) (s : State) :
    exec (.openValve st) s = taking (.openValve st) (takeOpen st) s := rfl

theorem exec_closeValve (st : Station) (s : State) :
    exec (.closeValve st) s = taking (.closeValve st) (takeClose st) s := rfl

theorem exec_restValve (st : Station) (s : State) :
    exec (.restValve st) s = taking (.restValve st) (takeRest st) s := rfl

theorem exec_offValve (st : Station) (s : State) :
    exec (.offValve st) s = taking (.offValve st) (takeOff st) s := rfl

theorem exec_faultReset (st : Station) (s : State) :
    exec (.faultReset st) s = taking (.faultReset st) (takeFaultReset st) s := rfl

theorem exec_wake (s : State) :
    exec .wake s = taking .wake takeWake s := rfl

theorem exec_rampEnd (st : Station) (s : State) :
    exec (.rampEnd st) s = whileActing (endRamp st) s := rfl

theorem exec_coilTest (st : Station) (current : Nat) (s : State) :
    exec (.coilTest st current) s = whileActing (testCoil st current) s := rfl

theorem exec_partStateNotice (b : Block) (p : PartState) (s : State) :
    exec (.partStateNotice b p) s = taking (.partStateNotice b p) (takePartState b p) s := rfl

theorem exec_dwellExpiry (s : State) :
    exec .dwellExpiry s = whileActing takeDwellExpiry s := rfl

theorem exec_risePermissionRequest (s : State) :
    exec .risePermissionRequest s = taking .risePermissionRequest takePermissionRequest s := rfl

theorem exec_risePermissionAnswer (age : BitVec 16) (fill : BitVec 16) (s : State) :
    exec (.risePermissionAnswer age fill) s = taking (.risePermissionAnswer age fill) (takePermission age fill) s := rfl

theorem exec_driveTimerExpiry (s : State) :
    exec .driveTimerExpiry s = whileActing takeDriveTimer s := rfl

theorem exec_settleTimerExpiry (s : State) :
    exec .settleTimerExpiry s = whileActing takeSettleTimer s := rfl

theorem exec_fallTimerExpiry (s : State) :
    exec .fallTimerExpiry s = whileActing takeFallTimer s := rfl

theorem exec_waveStop (s : State) :
    exec .waveStop s = taking .waveStop takeWaveStop s := rfl

theorem exec_feedStop (s : State) :
    exec .feedStop s = taking .feedStop takeFeedStop s := rfl

theorem exec_lineHoldNotice (b : Block) (s : State) :
    exec (.lineHoldNotice b) s = taking (.lineHoldNotice b) (blockHolds b) s := rfl

theorem exec_wavePowerDown (s : State) :
    exec .wavePowerDown s = taking .wavePowerDown takeWavePowerDown s := rfl

theorem exec_feedPowerDown (s : State) :
    exec .feedPowerDown s = taking .feedPowerDown takeFeedPowerDown s := rfl

theorem exec_feedPauseRequest (s : State) :
    exec .feedPauseRequest s = taking .feedPauseRequest takeFeedPause s := rfl

theorem exec_clearNotice (b : Block) (s : State) :
    exec (.clearNotice b) s = taking (.clearNotice b) (takeClearNotice b) s := rfl

theorem exec_clearDone (b : Block) (s : State) :
    exec (.clearDone b) s = taking (.clearDone b) (takeClearDone b) s := rfl

theorem exec_requalify (slot : OrderSlot) (station : Word) (count : Word) (s : State) :
    exec (.requalify slot station count) s = taking (.requalify slot station count) (takeRequalify slot station count) s := rfl

theorem exec_retire (slot : OrderSlot) (station : Word) (s : State) :
    exec (.retire slot station) s = taking (.retire slot station) (takeRetire slot station) s := rfl

theorem exec_clearEventsStation (slot : OrderSlot) (index : Word) (events : Word) (s : State) :
    exec (.clearEventsStation slot index events) s = taking (.clearEventsStation slot index events) (takeClearStation slot index events) s := rfl

theorem exec_clearEventsSector (slot : OrderSlot) (index : Word) (events : Word) (s : State) :
    exec (.clearEventsSector slot index events) s = taking (.clearEventsSector slot index events) (takeClearSector slot index events) s := rfl

theorem exec_clearEventsRig (slot : OrderSlot) (events : Word) (s : State) :
    exec (.clearEventsRig slot events) s = taking (.clearEventsRig slot events) (takeClearRig slot events) s := rfl

theorem exec_addOpening (slot : OrderSlot) (sector : Word) (lower : Word) (upper : Word) (s : State) :
    exec (.addOpening slot sector lower upper) s = taking (.addOpening slot sector lower upper) (takeAddOpening slot sector lower upper) s := rfl

theorem exec_dropOpening (slot : OrderSlot) (sector : Word) (position : Word) (s : State) :
    exec (.dropOpening slot sector position) s = taking (.dropOpening slot sector position) (takeDropOpening slot sector position) s := rfl

theorem exec_cancelBatch (slot : OrderSlot) (batch : Word) (image : BatchState) (s : State) :
    exec (.cancelBatch slot batch image) s = taking (.cancelBatch slot batch image) (takeCancel slot batch image) s := rfl

theorem exec_orderOutcome (slot : OrderSlot) (answer : OrderAnswer) (s : State) :
    exec (.orderOutcome slot answer) s = taking (.orderOutcome slot answer) (takeOrderOutcome slot answer) s := rfl

theorem exec_motionOnNotice (s : State) :
    exec .motionOnNotice s = taking .motionOnNotice takeMotionOn s := rfl

theorem exec_motionOffNotice (s : State) :
    exec .motionOffNotice s = taking .motionOffNotice takeMotionOff s := rfl

theorem exec_transactionBegin (s : State) :
    exec .transactionBegin s = whileActing takeTransactionBegin s := rfl

theorem exec_querySent (s : State) :
    exec .querySent s = whileActing takeQuerySent s := rfl

theorem exec_replyFrame (bytes : List Byte) (framingError : Bool) (s : State) :
    exec (.replyFrame bytes framingError) s = whileActing (takeReplyFrame bytes framingError) s := rfl

theorem exec_replyTimeout (s : State) :
    exec .replyTimeout s = whileActing takeReplyTimeout s := rfl

theorem exec_readingMadeAbsent (st : Station) (s : State) :
    exec (.readingMadeAbsent st) s = whileActing (makeAbsent st) s := rfl

theorem exec_settleHoldEnd (s : State) :
    exec .settleHoldEnd s = whileActing endSettleHold s := rfl

theorem exec_readingNotice (st : Station) (s : State) :
    exec (.readingNotice st) s = taking (.readingNotice st) judgeReadiness s := rfl

theorem exec_recoveryWindowExpiry (s : State) :
    exec .recoveryWindowExpiry s = whileActing expireRecoveryWindow s := rfl

theorem exec_countsChanged (s : State) :
    exec .countsChanged s = taking .countsChanged takeCountsChanged s := rfl

theorem exec_exitNotice (slot : BatchSlot) (index : PortionIndex) (time : Word) (s : State) :
    exec (.exitNotice slot index time) s = taking (.exitNotice slot index time) (takeExitNotice slot index time) s := rfl

theorem exec_feedView (slot : BatchSlot) (destination : BitVec 16) (portionCount : Nat) (s : State) :
    exec (.feedView slot destination portionCount) s = taking (.feedView slot destination portionCount) (takeFeedView slot destination) s := rfl

theorem exec_pourPlanRequest (r : PlanRequest) (s : State) :
    exec (.pourPlanRequest r) s = taking (.pourPlanRequest r) (takePlanRequest r) s := rfl

theorem exec_pourPlanAnswer (answer : PlanAnswer) (s : State) :
    exec (.pourPlanAnswer answer) s = taking (.pourPlanAnswer answer) (takePlanAnswer answer) s := rfl

theorem exec_placement (sector : Sector) (slot : BatchSlot) (volume : Nat) (s : State) :
    exec (.placement sector slot volume) s = taking (.placement sector slot volume) (takePlacement sector slot volume) s := rfl

theorem exec_placementAnswer (result : PlacementResult) (s : State) :
    exec (.placementAnswer result) s = taking (.placementAnswer result) (takePlacementAnswer result) s := rfl

theorem exec_deficitNotice (s : State) :
    exec .deficitNotice s = taking .deficitNotice takeDeficit s := rfl

theorem exec_dropPlan (s : State) :
    exec .dropPlan s = taking .dropPlan takeDropPlan s := rfl

theorem exec_gateClose (s : State) :
    exec .gateClose s = whileActing takeGateClose s := rfl

theorem exec_wasteGateClose (s : State) :
    exec .wasteGateClose s = whileActing takeWasteGateClose s := rfl

theorem exec_climbDirective (values : ClimbValues) (s : State) :
    exec (.climbDirective values) s = taking (.climbDirective values) (takeClimbDirective values) s := rfl

theorem exec_flowDirective (flow : Nat) (s : State) :
    exec (.flowDirective flow) s = taking (.flowDirective flow) (takeFlow flow) s := rfl

theorem exec_feedMaskDirective (mask : BitVec 16) (s : State) :
    exec (.feedMaskDirective mask) s = taking (.feedMaskDirective mask) (takeFeedMask mask) s := rfl

theorem exec_exchangeScan (s : State) :
    exec .exchangeScan s = whileActing takeScan s := rfl

theorem exec_batchHandover (slot : BatchSlot) (request : BatchRequest) (s : State) :
    exec (.batchHandover slot request) s = taking (.batchHandover slot request) (takeHandover slot request) s := rfl

theorem exec_slotWriteRequest (w : SlotWrite) (s : State) :
    exec (.slotWriteRequest w) s = taking (.slotWriteRequest w) (takeSlotWrite w) s := rfl

theorem exec_attentionSetRequest (source : AttnSource) (s : State) :
    exec (.attentionSetRequest source) s = taking (.attentionSetRequest source) (setAttn source) s := rfl

theorem exec_publishTimerExpiry (s : State) :
    exec .publishTimerExpiry s = taking .publishTimerExpiry takePublishExpiry s := rfl

theorem exec_publicationEnd (s : State) :
    exec .publicationEnd s = taking .publicationEnd takePublicationEnd s := rfl

theorem exec_supplyDies (s : State) :
    exec .supplyDies s = match s.power with
      | .on => whileActing takeSupplyDies s
      | .held _ => .next (losePower s)
      | .off => .next s := rfl

/-! ## Acting or not -/

/-- A command that needs the part to act changes nothing while it does not. -/
theorem exec_off {s : State} {c : Instr} (n : Instr.needsActing c = true) (a : acting s = false) :
    exec c s = .next s := by
  cases c <;> first
    | (simp [Instr.needsActing] at n; done)
    | exact whileActing_off _ a
    | exact taking_off _ _ a

/-- A command that needs the part to act is carried out while it does. -/
theorem exec_on {s : State} {c : Instr} (n : Instr.needsActing c = true) (a : acting s = true) :
    ∃ u, leadsTo c s u := by
  cases c <;> first
    | (simp [Instr.needsActing] at n; done)
    | exact ⟨_, whileActing_on _ a⟩
    | exact ⟨_, taking_on _ _ a⟩

/-- A command of the host, of the field or of a timer leads to its effect. -/
theorem leadsTo_of_whileActing {s t : State} {c : Instr} {f : State → State} (h : exec c s = whileActing f s)
    (a : acting s = true) (e : f s = t) : leadsTo c s t := by
  unfold leadsTo; rw [h, whileActing_on f a, e]

/-- A message leads to its effect on the state it was taken from. -/
theorem leadsTo_of_taking {s t : State} {c : Instr} {f : State → State} (h : exec c s = taking c f s)
    (a : acting s = true) (e : f (took c s) = t) : leadsTo c s t := by
  unfold leadsTo; rw [h, taking_on c f a, e]

end Sys2Proof.Machine
end

