-- ==== Sys2Proof/Laws/ExchangeFrame.lean ====
section
/-! SUPPORT. Every operation of the Exchange Controller but a hand-over and a clear of rig events changes its own state, the window
and the messages alone. -/

namespace Sys2Proof.Machine

open Sys2Proof

/-- Everything but what the Exchange Controller keeps, the window and the messages. -/
def exchangeless (s : State) :=
  (s.pending, s.power, s.strap, s.storeFails, s.resetReads, s.tmb, s.ssu, s.vdu, s.wvc, s.lbp, s.ltr, s.fds, s.psv)

@[simp] theorem exchangeless_with_exc (s : State) (x : Exc) : exchangeless { s with exc := x } = exchangeless s := rfl

@[simp] theorem exchangeless_with_window (s : State) (x : List Host.Cell) : exchangeless { s with window := x } = exchangeless s := rfl

@[simp] theorem exchangeless_with_mail (s : State) (x : List Instr) : exchangeless { s with mail := x } = exchangeless s := rfl

@[simp] theorem exchangeless_with (s : State) (xexc : Exc) (xwindow : List Host.Cell) (xmail : List Instr) :
    exchangeless { s with exc := xexc, window := xwindow, mail := xmail } = exchangeless s := rfl

@[simp] theorem exchangeless_ite (c : Prop) [Decidable c] (s t : State) :
    exchangeless (if c then s else t) = if c then exchangeless s else exchangeless t := apply_ite _ _ _ _

@[simp] theorem exchangeless_send (c : Instr) (s : State) : exchangeless (send c s) = exchangeless s := rfl

@[simp] theorem exchangeless_sendAll (cs : List Instr) (s : State) : exchangeless (sendAll cs s) = exchangeless s := rfl

@[simp] theorem exchangeless_requestAttn (a : AttnSource) (s : State) : exchangeless (requestAttn a s) = exchangeless s := rfl

@[simp] theorem exchangeless_took (c : Instr) (s : State) : exchangeless (took c s) = exchangeless s := rfl

@[simp] theorem exchangeless_when (b : Bool) (f : State → State) (s : State) (h : exchangeless (f s) = exchangeless s) :
    exchangeless (when b f s) = exchangeless s := by
  cases b
  · rfl
  · exact h

@[simp] theorem exchangeless_when_send (b : Bool) (c : Instr) (s : State) : exchangeless (when b (send c) s) = exchangeless s := by
  cases b <;> rfl

theorem exchangeless_fold {α : Type} (f : State → α → State) (h : ∀ t a, exchangeless (f t a) = exchangeless t) (l : List α) (s : State) :
    exchangeless (l.foldl f s) = exchangeless s := by
  induction l generalizing s with
  | nil => rfl
  | cons a l ih => rw [List.foldl_cons, ih, h]

@[simp] theorem exchangeless_forEach (sts : List Station) (f : Station → State → State) (s : State)
    (h : ∀ st t, exchangeless (f st t) = exchangeless t) : exchangeless (forEach sts f s) = exchangeless s :=
  exchangeless_fold _ (fun t a => h a t) sts s

/-- Only the controller's own state, the window and the messages have changed. -/
theorem exchangeless_eq {s t : State} (h : exchangeless t = exchangeless s) : t = { s with exc := t.exc, window := t.window, mail := t.mail } := by
  simp only [exchangeless, Prod.mk.injEq] at h
  obtain ⟨h0, h1, h2, h3, h4, h5, h6, h7, h8, h9, h10, h11⟩ := h
  cases s; cases t; simp_all

@[simp] theorem exchangeless_onExc (f : Exc → Exc) (s : State) : exchangeless (onExc f s) = exchangeless s := rfl

@[simp] theorem exchangeless_onWindow (f : Memory → Memory) (s : State) : exchangeless (onWindow f s) = exchangeless s := rfl

@[simp] theorem exchangeless_setAttn (a : AttnSource) (s : State) : exchangeless (setAttn a s) = exchangeless s := rfl

@[simp] theorem exchangeless_writeAttn (v : Word) (s : State) : exchangeless (writeAttn v s) = exchangeless s := rfl

@[simp] theorem exchangeless_writeAttnMask (v : Word) (s : State) : exchangeless (writeAttnMask v s) = exchangeless s := rfl

@[simp] theorem exchangeless_writeAttnPace (v : Word) (s : State) : exchangeless (writeAttnPace v s) = exchangeless s := rfl

@[simp] theorem exchangeless_hostWrite (offset : Nat) (value : Word) (s : State) : exchangeless (hostWrite offset value s) = exchangeless s := by
  unfold hostWrite
  simp

@[simp] theorem exchangeless_setBatchImage (slot : BatchSlot) (state : BatchState) (s : State) : exchangeless (setBatchImage slot state s) = exchangeless s := rfl

@[simp] theorem exchangeless_setOrderImage (slot : OrderSlot) (state : OrderState) (s : State) : exchangeless (setOrderImage slot state s) = exchangeless s := rfl

@[simp] theorem exchangeless_writeBatchSlot (slot : BatchSlot) (state : Option BatchState) (report : BatchReport) (s : State) : exchangeless (writeBatchSlot slot state report s) = exchangeless s := by
  unfold writeBatchSlot
  split
  · rfl
  · exact (exchangeless_when _ _ _ (exchangeless_setAttn _ _)).trans (by simp)

@[simp] theorem exchangeless_writeOrderSlot (slot : OrderSlot) (state : Option OrderState) (result : Option OrderOutcome) (detail : Word) (s : State) : exchangeless (writeOrderSlot slot state result detail s) = exchangeless s := by
  unfold writeOrderSlot
  split
  · rfl
  · exact (exchangeless_when _ _ _ (exchangeless_setAttn _ _)).trans (by simp)

@[simp] theorem exchangeless_takeSlotWrite (w : SlotWrite) (s : State) : exchangeless (takeSlotWrite w s) = exchangeless s := by
  unfold takeSlotWrite unlessHaltedExchange
  try dsimp only
  (repeat' split) <;> simp

@[simp] theorem exchangeless_finishOrder (slot : OrderSlot) (result : OrderOutcome) (detail : Word) (s : State) : exchangeless (finishOrder slot result detail s) = exchangeless s := by
  unfold finishOrder
  simp

@[simp] theorem exchangeless_takeOrderOutcome (slot : OrderSlot) (answer : OrderAnswer) (s : State) : exchangeless (takeOrderOutcome slot answer s) = exchangeless s := by
  unfold takeOrderOutcome unlessHaltedExchange
  try dsimp only
  (repeat' split) <;> simp

@[simp] theorem exchangeless_recordMisuse (board : Board) (index : Nat) (s : State) : exchangeless (recordMisuse board index s) = exchangeless s := by
  unfold recordMisuse
  simp

@[simp] theorem exchangeless_compareBatch (slot : BatchSlot) (s : State) : exchangeless (compareBatch slot s) = exchangeless s := by
  unfold compareBatch
  try dsimp only
  (repeat' split) <;> simp

@[simp] theorem exchangeless_compareOrder (slot : OrderSlot) (s : State) : exchangeless (compareOrder slot s) = exchangeless s := by
  unfold compareOrder
  try dsimp only
  (repeat' split) <;> simp

@[simp] theorem exchangeless_compareBoards (s : State) : exchangeless (compareBoards s) = exchangeless s := by
  unfold compareBoards
  rw [exchangeless_fold _ (fun t a => exchangeless_compareBatch a t), exchangeless_fold _ (fun t a => exchangeless_compareOrder a t)]

@[simp] theorem exchangeless_handOrder (slot : OrderSlot) (s : State) : exchangeless (handOrder slot s) = exchangeless s := by
  unfold handOrder
  try dsimp only
  (repeat' split) <;> simp

@[simp] theorem exchangeless_handOrders (s : State) : exchangeless (handOrders s) = exchangeless s := exchangeless_fold _ (fun t a => exchangeless_handOrder a t) _ s

@[simp] theorem exchangeless_handNext (s : State) : exchangeless (handNext s) = exchangeless s := by
  unfold handNext
  try dsimp only
  (repeat' split) <;> simp

@[simp] theorem exchangeless_handBatches (s : State) : exchangeless (handBatches s) = exchangeless s := by
  unfold handBatches
  simp

@[simp] theorem exchangeless_rejectEdition (edition : Word) (field : Nat) (s : State) : exchangeless (rejectEdition edition field s) = exchangeless s := by
  unfold rejectEdition
  simp

@[simp] theorem exchangeless_acceptEdition (edition : Word) (s : State) : exchangeless (acceptEdition edition s) = exchangeless s := by
  unfold acceptEdition
  simp

@[simp] theorem exchangeless_readDirective (s : State) : exchangeless (readDirective s) = exchangeless s := by
  unfold readDirective
  try dsimp only
  (repeat' split) <;> simp

@[simp] theorem exchangeless_scanTakes (s : State) : exchangeless (scanTakes s) = exchangeless s := by
  unfold scanTakes
  try dsimp only
  (repeat' split) <;> simp

@[simp] theorem exchangeless_takeScan (s : State) : exchangeless (takeScan s) = exchangeless s := by
  unfold takeScan
  simp

@[simp] theorem exchangeless_beginPublication (s : State) : exchangeless (beginPublication s) = exchangeless s := by
  unfold beginPublication
  simp

@[simp] theorem exchangeless_startPublishTimer (s : State) : exchangeless (startPublishTimer s) = exchangeless s := rfl

@[simp] theorem exchangeless_takePublishExpiry (s : State) : exchangeless (takePublishExpiry s) = exchangeless s := by
  unfold takePublishExpiry
  simp

@[simp] theorem exchangeless_countPublication (s : State) : exchangeless (countPublication s) = exchangeless s := by
  unfold countPublication
  simp

@[simp] theorem exchangeless_afterPublication (s : State) : exchangeless (afterPublication s) = exchangeless s := by
  unfold afterPublication
  try dsimp only
  (repeat' split) <;> simp

@[simp] theorem exchangeless_takePublicationEnd (s : State) : exchangeless (takePublicationEnd s) = exchangeless s := by
  unfold takePublicationEnd
  try dsimp only
  (repeat' split) <;> simp

@[simp] theorem exchangeless_clearExchange (s : State) : exchangeless (clearExchange s) = exchangeless s := by
  unfold clearExchange
  simp

@[simp] theorem exchangeless_startTimers (s : State) : exchangeless (startTimers s) = exchangeless s := by
  unfold startTimers
  simp

@[simp] theorem exchangeless_exchangeEnters (p : PartState) (s : State) : exchangeless (exchangeEnters p s) = exchangeless s := by
  unfold exchangeEnters
  simp

end Sys2Proof.Machine
end

