-- ==== Sys2Proof/Laws/LayerFrame.lean ====
section
/-! SUPPORT. Every operation of the Layer Tracker changes its own state and the messages alone. -/

namespace Sys2Proof.Machine

open Sys2Proof

/-- Everything but what the Layer Tracker keeps and the messages. -/
def layerless (s : State) :=
  (s.pending, s.power, s.strap, s.storeFails, s.resetReads, s.tmb, s.ssu, s.vdu, s.wvc, s.lbp, s.fds, s.exc, s.psv, s.window)

@[simp] theorem layerless_with_ltr (s : State) (x : Ltr) : layerless { s with ltr := x } = layerless s := rfl

@[simp] theorem layerless_with_mail (s : State) (x : List Instr) : layerless { s with mail := x } = layerless s := rfl

@[simp] theorem layerless_with (s : State) (xltr : Ltr) (xmail : List Instr) :
    layerless { s with ltr := xltr, mail := xmail } = layerless s := rfl

@[simp] theorem layerless_ite (c : Prop) [Decidable c] (s t : State) :
    layerless (if c then s else t) = if c then layerless s else layerless t := apply_ite _ _ _ _

@[simp] theorem layerless_send (c : Instr) (s : State) : layerless (send c s) = layerless s := rfl

@[simp] theorem layerless_sendAll (cs : List Instr) (s : State) : layerless (sendAll cs s) = layerless s := rfl

@[simp] theorem layerless_requestAttn (a : AttnSource) (s : State) : layerless (requestAttn a s) = layerless s := rfl

@[simp] theorem layerless_took (c : Instr) (s : State) : layerless (took c s) = layerless s := rfl

@[simp] theorem layerless_when (b : Bool) (f : State → State) (s : State) (h : layerless (f s) = layerless s) :
    layerless (when b f s) = layerless s := by
  cases b
  · rfl
  · exact h

@[simp] theorem layerless_when_send (b : Bool) (c : Instr) (s : State) : layerless (when b (send c) s) = layerless s := by
  cases b <;> rfl

theorem layerless_fold {α : Type} (f : State → α → State) (h : ∀ t a, layerless (f t a) = layerless t) (l : List α) (s : State) :
    layerless (l.foldl f s) = layerless s := by
  induction l generalizing s with
  | nil => rfl
  | cons a l ih => rw [List.foldl_cons, ih, h]

@[simp] theorem layerless_forEach (sts : List Station) (f : Station → State → State) (s : State)
    (h : ∀ st t, layerless (f st t) = layerless t) : layerless (forEach sts f s) = layerless s :=
  layerless_fold _ (fun t a => h a t) sts s

/-- Only the tracker's own state and the messages have changed. -/
theorem layerless_eq {s t : State} (h : layerless t = layerless s) : t = { s with ltr := t.ltr, mail := t.mail } := by
  simp only [layerless, Prod.mk.injEq] at h
  obtain ⟨h0, h1, h2, h3, h4, h5, h6, h7, h8, h9, h10, h11, h12⟩ := h
  cases s; cases t; simp_all

@[simp] theorem layerless_forSectors (ks : List Sector) (f : Sector → State → State) (s : State)
    (h : ∀ k t, layerless (f k t) = layerless t) : layerless (forSectors ks f s) = layerless s :=
  layerless_fold _ (fun t a => h a t) ks s

@[simp] theorem layerless_onLtr (f : Ltr → Ltr) (s : State) : layerless (onLtr f s) = layerless s := rfl

@[simp] theorem layerless_answerOrder (slot : OrderSlot) (result : OrderOutcome) (s : State) : layerless (answerOrder slot result s) = layerless s := rfl

@[simp] theorem layerless_addSectorEvents (k : Sector) (events : BitVec 4) (s : State) : layerless (addSectorEvents k events s) = layerless s := by
  unfold addSectorEvents
  simp

@[simp] theorem layerless_removeLeaving (k : Sector) (s : State) : layerless (removeLeaving k s) = layerless s := by
  unfold removeLeaving
  simp

@[simp] theorem layerless_tryConversion (k : Sector) (s : State) : layerless (tryConversion k s) = layerless s := by
  unfold tryConversion
  simp

@[simp] theorem layerless_exitTest (k : Sector) (s : State) : layerless (exitTest k s) = layerless s := by
  unfold exitTest
  simp

@[simp] theorem layerless_noticeDeficit (s : State) : layerless (noticeDeficit s) = layerless s := rfl

@[simp] theorem layerless_recomputeBottoms (s : State) : layerless (recomputeBottoms s) = layerless s := by
  unfold recomputeBottoms
  simp

@[simp] theorem layerless_takeCountsChanged (s : State) : layerless (takeCountsChanged s) = layerless s := by
  unfold takeCountsChanged unlessHaltedLayer
  simp

@[simp] theorem layerless_takeFeedView (slot : BatchSlot) (destination : BitVec 16) (s : State) : layerless (takeFeedView slot destination s) = layerless s := by
  unfold takeFeedView unlessHaltedLayer
  simp

@[simp] theorem layerless_takePlanRequest (r : PlanRequest) (s : State) : layerless (takePlanRequest r s) = layerless s := by
  unfold takePlanRequest unlessHaltedLayer
  try dsimp only
  (repeat' split) <;> simp

@[simp] theorem layerless_afterPlan (k : Sector) (s : State) : layerless (afterPlan k s) = layerless s := by
  unfold afterPlan
  simp

@[simp] theorem layerless_placeUnder (p : Plan) (volume : Nat) (s : State) : layerless (placeUnder p volume s) = layerless s := by
  unfold placeUnder
  simp

@[simp] theorem layerless_takePlacement (sector : Sector) (slot : BatchSlot) (volume : Nat) (s : State) : layerless (takePlacement sector slot volume s) = layerless s := by
  unfold takePlacement unlessHaltedLayer
  try dsimp only
  (repeat' split) <;> simp

@[simp] theorem layerless_takeDropPlan (s : State) : layerless (takeDropPlan s) = layerless s := by
  unfold takeDropPlan unlessHaltedLayer
  try dsimp only
  (repeat' split) <;> simp

@[simp] theorem layerless_takeAddOpening (slot : OrderSlot) (sector lower upper : Word) (s : State) : layerless (takeAddOpening slot sector lower upper s) = layerless s := by
  unfold takeAddOpening unlessHaltedLayer
  try dsimp only
  (repeat' split) <;> simp

@[simp] theorem layerless_takeDropOpening (slot : OrderSlot) (sector position : Word) (s : State) : layerless (takeDropOpening slot sector position s) = layerless s := by
  unfold takeDropOpening unlessHaltedLayer
  try dsimp only
  (repeat' split) <;> simp

@[simp] theorem layerless_takeClearSector (slot : OrderSlot) (index events : Word) (s : State) : layerless (takeClearSector slot index events s) = layerless s := by
  unfold takeClearSector unlessHaltedLayer
  try dsimp only
  (repeat' split) <;> simp

@[simp] theorem layerless_takePermissionRequest (s : State) : layerless (takePermissionRequest s) = layerless s := by
  unfold takePermissionRequest unlessHaltedLayer
  simp

@[simp] theorem layerless_reportJoint (k : Sector) (s : State) : layerless (reportJoint k s) = layerless s := by
  unfold reportJoint
  simp

@[simp] theorem layerless_layerSecond (s : State) : layerless (layerSecond s) = layerless s := by
  unfold layerSecond
  try dsimp only
  (repeat' split) <;> simp

@[simp] theorem layerless_takeFeedMask (mask : BitVec 16) (s : State) : layerless (takeFeedMask mask s) = layerless s := by
  unfold takeFeedMask unlessHaltedLayer
  simp

@[simp] theorem layerless_layerEnters (p : PartState) (s : State) : layerless (layerEnters p s) = layerless s := by
  unfold layerEnters
  simp

@[simp] theorem layerless_clearLayer (s : State) : layerless (clearLayer s) = layerless s := by
  unfold clearLayer
  simp

end Sys2Proof.Machine
end

