-- ==== Sys2Proof/Laws/FeedFrame.lean ====
section
/-! SUPPORT. Every operation of the Feed Distributor changes its own state, the tracker's through a feed view, and the messages
alone. -/

namespace Sys2Proof.Machine

open Sys2Proof

/-- Everything but what the Feed Distributor and the Layer Tracker keep and the messages. -/
def feedless (s : State) :=
  (s.pending, s.power, s.strap, s.storeFails, s.resetReads, s.tmb, s.ssu, s.vdu, s.wvc, s.lbp, s.exc, s.psv, s.window)

@[simp] theorem feedless_with_ltr (s : State) (x : Ltr) : feedless { s with ltr := x } = feedless s := rfl

@[simp] theorem feedless_with_fds (s : State) (x : Fds) : feedless { s with fds := x } = feedless s := rfl

@[simp] theorem feedless_with_mail (s : State) (x : List Instr) : feedless { s with mail := x } = feedless s := rfl

@[simp] theorem feedless_with (s : State) (xltr : Ltr) (xfds : Fds) (xmail : List Instr) :
    feedless { s with ltr := xltr, fds := xfds, mail := xmail } = feedless s := rfl

@[simp] theorem feedless_ite (c : Prop) [Decidable c] (s t : State) :
    feedless (if c then s else t) = if c then feedless s else feedless t := apply_ite _ _ _ _

@[simp] theorem feedless_send (c : Instr) (s : State) : feedless (send c s) = feedless s := rfl

@[simp] theorem feedless_sendAll (cs : List Instr) (s : State) : feedless (sendAll cs s) = feedless s := rfl

@[simp] theorem feedless_requestAttn (a : AttnSource) (s : State) : feedless (requestAttn a s) = feedless s := rfl

@[simp] theorem feedless_took (c : Instr) (s : State) : feedless (took c s) = feedless s := rfl

@[simp] theorem feedless_when (b : Bool) (f : State → State) (s : State) (h : feedless (f s) = feedless s) :
    feedless (when b f s) = feedless s := by
  cases b
  · rfl
  · exact h

@[simp] theorem feedless_when_send (b : Bool) (c : Instr) (s : State) : feedless (when b (send c) s) = feedless s := by
  cases b <;> rfl

theorem feedless_fold {α : Type} (f : State → α → State) (h : ∀ t a, feedless (f t a) = feedless t) (l : List α) (s : State) :
    feedless (l.foldl f s) = feedless s := by
  induction l generalizing s with
  | nil => rfl
  | cons a l ih => rw [List.foldl_cons, ih, h]

@[simp] theorem feedless_forEach (sts : List Station) (f : Station → State → State) (s : State)
    (h : ∀ st t, feedless (f st t) = feedless t) : feedless (forEach sts f s) = feedless s :=
  feedless_fold _ (fun t a => h a t) sts s

/-- Only the distributor's and the tracker's own state and the messages have changed. -/
theorem feedless_eq {s t : State} (h : feedless t = feedless s) : t = { s with ltr := t.ltr, fds := t.fds, mail := t.mail } := by
  simp only [feedless, Prod.mk.injEq] at h
  obtain ⟨h0, h1, h2, h3, h4, h5, h6, h7, h8, h9, h10, h11⟩ := h
  cases s; cases t; simp_all

/-- What the Layer Tracker alone changes the distributor's commands may change. -/
theorem feedless_of_layerless {s t : State} (h : layerless t = layerless s) : feedless t = feedless s := by
  rw [layerless_eq h]; rfl

@[simp] theorem feedless_onFds (f : Fds → Fds) (s : State) : feedless (onFds f s) = feedless s := rfl

@[simp] theorem feedless_answerOrder (slot : OrderSlot) (result : OrderOutcome) (s : State) : feedless (answerOrder slot result s) = feedless s := rfl

@[simp] theorem feedless_takeFeedView (slot : BatchSlot) (destination : BitVec 16) (s : State) : feedless (takeFeedView slot destination s) = feedless s := feedless_of_layerless (layerless_takeFeedView slot destination s)

@[simp] theorem feedless_setBatch (slot : BatchSlot) (r : Option BatchRecord) (s : State) : feedless (setBatch slot r s) = feedless s := rfl

@[simp] theorem feedless_writeSlot (slot : BatchSlot) (state : Option BatchState) (report : BatchReport) (s : State) : feedless (writeSlot slot state report s) = feedless s := rfl

@[simp] theorem feedless_settleBatch (slot : BatchSlot) (r : BatchRecord) (s : State) : feedless (settleBatch slot r s) = feedless s := by
  unfold settleBatch
  simp

@[simp] theorem feedless_openWaste (slot : BatchSlot) (volume : Nat) (cause : WasteCause) (s : State) : feedless (openWaste slot volume cause s) = feedless s := rfl

@[simp] theorem feedless_openDrop (sector : Sector) (slot : BatchSlot) (volume : Nat) (s : State) : feedless (openDrop sector slot volume s) = feedless s := by
  unfold openDrop
  try dsimp only
  (repeat' split) <;> simp

@[simp] theorem feedless_askPlan (r : PlanRequest) (volume : Nat) (s : State) : feedless (askPlan r volume s) = feedless s := rfl

@[simp] theorem feedless_planPortion (slot : BatchSlot) (r : BatchRecord) (s : State) : feedless (planPortion slot r s) = feedless s := by
  unfold planPortion
  try dsimp only
  (repeat' split) <;> simp

@[simp] theorem feedless_decideHead (slot : BatchSlot) (r : BatchRecord) (s : State) : feedless (decideHead slot r s) = feedless s := by
  unfold decideHead
  try dsimp only
  (repeat' split) <;> simp

@[simp] theorem feedless_tryArbiter (s : State) : feedless (tryArbiter s) = feedless s := by
  unfold tryArbiter
  try dsimp only
  (repeat' split) <;> simp

@[simp] theorem feedless_reportStopped (s : State) : feedless (reportStopped s) = feedless s := by
  unfold reportStopped
  simp

@[simp] theorem feedless_planOver (s : State) : feedless (planOver s) = feedless s := rfl

@[simp] theorem feedless_wasteRemainder (slot : BatchSlot) (s : State) : feedless (wasteRemainder slot s) = feedless s := by
  unfold wasteRemainder
  try dsimp only
  (repeat' split) <;> simp

@[simp] theorem feedless_takePlanAnswer (answer : PlanAnswer) (s : State) : feedless (takePlanAnswer answer s) = feedless s := by
  unfold takePlanAnswer unlessHaltedFeed
  try dsimp only
  (repeat' split) <;> simp

@[simp] theorem feedless_afterGate (s : State) : feedless (afterGate s) = feedless s := by
  unfold afterGate
  simp

@[simp] theorem feedless_closeDrop (sector : Sector) (g : GateRun) (volume : Nat) (s : State) : feedless (closeDrop sector g volume s) = feedless s := rfl

@[simp] theorem feedless_idleGate (s : State) : feedless (idleGate s) = feedless s := rfl

@[simp] theorem feedless_closeWaste (g : GateRun) (cause : WasteCause) (volume : Nat) (s : State) : feedless (closeWaste g cause volume s) = feedless s := by
  unfold closeWaste
  try dsimp only
  (repeat' split) <;> simp

/-- A cut never gives more than the gate was opened for. -/
theorem cutVolume_le (s : State) (g : GateRun) : cutVolume s g ≤ g.volume := by
  unfold cutVolume
  split <;> omega

/-- A cut after the gate's time gives all of it (R135). -/
theorem cutVolume_of_ran {s : State} {g : GateRun} (h : g.ran (now s) = true) : cutVolume s g = g.volume := by
  simp [cutVolume, h]

@[simp] theorem feedless_cutGate (s : State) : feedless (cutGate s) = feedless s := by
  unfold cutGate
  try dsimp only
  (repeat' split) <;> simp

@[simp] theorem feedless_takeGateClose (s : State) : feedless (takeGateClose s) = feedless s := by
  unfold takeGateClose unlessHaltedFeed
  try dsimp only
  (repeat' split) <;> simp

@[simp] theorem feedless_takeWasteGateClose (s : State) : feedless (takeWasteGateClose s) = feedless s := by
  unfold takeWasteGateClose unlessHaltedFeed
  try dsimp only
  (repeat' split) <;> simp

@[simp] theorem feedless_takePlacementAnswer (result : PlacementResult) (s : State) : feedless (takePlacementAnswer result s) = feedless s := by
  unfold takePlacementAnswer unlessHaltedFeed
  try dsimp only
  (repeat' split) <;> simp

@[simp] theorem feedless_takeFeedStop (s : State) : feedless (takeFeedStop s) = feedless s := by
  unfold takeFeedStop unlessHaltedFeed
  simp

@[simp] theorem feedless_takeFeedPowerDown (s : State) : feedless (takeFeedPowerDown s) = feedless s := by
  unfold takeFeedPowerDown unlessHaltedFeed
  simp

@[simp] theorem feedless_feedLineHold (s : State) : feedless (feedLineHold s) = feedless s := by
  unfold feedLineHold unlessHaltedFeed
  simp

@[simp] theorem feedless_takeFeedPause (s : State) : feedless (takeFeedPause s) = feedless s := by
  unfold takeFeedPause unlessHaltedFeed
  simp

@[simp] theorem feedless_takeFlow (flow : Nat) (s : State) : feedless (takeFlow flow s) = feedless s := by
  unfold takeFlow unlessHaltedFeed
  simp

@[simp] theorem feedless_takeDeficit (s : State) : feedless (takeDeficit s) = feedless s := by
  unfold takeDeficit unlessHaltedFeed
  simp

@[simp] theorem feedless_feedSecond (s : State) : feedless (feedSecond s) = feedless s := by
  unfold feedSecond unlessHaltedFeed
  simp

@[simp] theorem feedless_feedEnters (p : PartState) (s : State) : feedless (feedEnters p s) = feedless s := by
  unfold feedEnters
  simp

@[simp] theorem feedless_clearFeed (s : State) : feedless (clearFeed s) = feedless s := by
  unfold clearFeed
  simp

@[simp] theorem feedless_takeBatch (slot : BatchSlot) (r : BatchRequest) (mix : MixClass) (s : State) : feedless (takeBatch slot r mix s) = feedless s := by
  unfold takeBatch
  simp

@[simp] theorem feedless_refuseBatch (slot : BatchSlot) (reason : Reason) (s : State) : feedless (refuseBatch slot reason s) = feedless s := by
  unfold refuseBatch
  simp

@[simp] theorem feedless_judgeBatch (slot : BatchSlot) (r : BatchRequest) (s : State) : feedless (judgeBatch slot r s) = feedless s := by
  unfold judgeBatch
  try dsimp only
  (repeat' split) <;> simp

@[simp] theorem feedless_markToWaste (slot : BatchSlot) (r : BatchRecord) (s : State) : feedless (markToWaste slot r s) = feedless s := by
  unfold markToWaste
  simp

@[simp] theorem feedless_cancelLive (order : OrderSlot) (slot : BatchSlot) (r : BatchRecord) (s : State) : feedless (cancelLive order slot r s) = feedless s := by
  unfold cancelLive
  try dsimp only
  (repeat' split) <;> simp

@[simp] theorem feedless_takeCancel (order : OrderSlot) (batch : Word) (image : BatchState) (s : State) : feedless (takeCancel order batch image s) = feedless s := by
  unfold takeCancel unlessHaltedFeed
  try dsimp only
  (repeat' split) <;> simp

@[simp] theorem feedless_recordExit (slot : BatchSlot) (r : BatchRecord) (s : State) : feedless (recordExit slot r s) = feedless s := by
  unfold recordExit
  simp

@[simp] theorem feedless_takeExitNotice (slot : BatchSlot) (index : PortionIndex) (time : Word) (s : State) : feedless (takeExitNotice slot index time s) = feedless s := by
  unfold takeExitNotice unlessHaltedFeed
  try dsimp only
  (repeat' split) <;> simp

/-- What has passed a gate whose placement is on its way is what a reset records. -/
theorem resetCut_of_passed {s : State} {g : GateRun} {v : Nat} (hc : g.cut = none) (hp : g.passed = some v) :
    resetCut s g = v := by
  simp [resetCut, hc, hp]

/-- An open gate's reset cut is what has passed it by now. -/
theorem resetCut_of_open {s : State} {g : GateRun} (hc : g.cut = none) (hp : g.passed = none) :
    resetCut s g = cutVolume s g := by
  simp [resetCut, hc, hp]

@[simp] theorem feedless_cutAtReset (s : State) : feedless (cutAtReset s) = feedless s := by
  unfold cutAtReset
  try dsimp only
  (repeat' split) <;> simp

@[simp] theorem feedless_warmGate (s : State) : feedless (warmGate s) = feedless s := by
  unfold warmGate
  try dsimp only
  (repeat' split) <;> simp

end Sys2Proof.Machine
end

