-- ==== Sys2Proof/Laws/LevelFrame.lean ====
section
/-! SUPPORT. Every operation of the Level Bus Poller changes its own state and the messages alone. -/

namespace Sys2Proof.Machine

open Sys2Proof

/-- Everything but what the Level Bus Poller keeps and the messages. -/
def levelless (s : State) :=
  (s.pending, s.power, s.strap, s.storeFails, s.resetReads, s.tmb, s.ssu, s.vdu, s.wvc, s.ltr, s.fds, s.exc, s.psv, s.window)

@[simp] theorem levelless_with_lbp (s : State) (x : Lbp) : levelless { s with lbp := x } = levelless s := rfl

@[simp] theorem levelless_with_mail (s : State) (x : List Instr) : levelless { s with mail := x } = levelless s := rfl

@[simp] theorem levelless_with (s : State) (xlbp : Lbp) (xmail : List Instr) :
    levelless { s with lbp := xlbp, mail := xmail } = levelless s := rfl

@[simp] theorem levelless_ite (c : Prop) [Decidable c] (s t : State) :
    levelless (if c then s else t) = if c then levelless s else levelless t := apply_ite _ _ _ _

@[simp] theorem levelless_send (c : Instr) (s : State) : levelless (send c s) = levelless s := rfl

@[simp] theorem levelless_sendAll (cs : List Instr) (s : State) : levelless (sendAll cs s) = levelless s := rfl

@[simp] theorem levelless_requestAttn (a : AttnSource) (s : State) : levelless (requestAttn a s) = levelless s := rfl

@[simp] theorem levelless_took (c : Instr) (s : State) : levelless (took c s) = levelless s := rfl

@[simp] theorem levelless_when (b : Bool) (f : State → State) (s : State) (h : levelless (f s) = levelless s) :
    levelless (when b f s) = levelless s := by
  cases b
  · rfl
  · exact h

@[simp] theorem levelless_when_send (b : Bool) (c : Instr) (s : State) : levelless (when b (send c) s) = levelless s := by
  cases b <;> rfl

theorem levelless_fold {α : Type} (f : State → α → State) (h : ∀ t a, levelless (f t a) = levelless t) (l : List α) (s : State) :
    levelless (l.foldl f s) = levelless s := by
  induction l generalizing s with
  | nil => rfl
  | cons a l ih => rw [List.foldl_cons, ih, h]

@[simp] theorem levelless_forEach (sts : List Station) (f : Station → State → State) (s : State)
    (h : ∀ st t, levelless (f st t) = levelless t) : levelless (forEach sts f s) = levelless s :=
  levelless_fold _ (fun t a => h a t) sts s

/-- Only the poller's own state and the messages have changed. -/
theorem levelless_eq {s t : State} (h : levelless t = levelless s) : t = { s with lbp := t.lbp, mail := t.mail } := by
  simp only [levelless, Prod.mk.injEq] at h
  obtain ⟨h0, h1, h2, h3, h4, h5, h6, h7, h8, h9, h10, h11, h12⟩ := h
  cases s; cases t; simp_all

@[simp] theorem levelless_onLbp (f : Lbp → Lbp) (s : State) : levelless (onLbp f s) = levelless s := rfl

@[simp] theorem levelless_setEpisode (st : Station) (isOpen : Bool) (s : State) : levelless (setEpisode st isOpen s) = levelless s := by
  unfold setEpisode
  simp

@[simp] theorem levelless_actOnCheck (st : Station) (out : Bool) (s : State) : levelless (actOnCheck st out s) = levelless s := by
  unfold actOnCheck
  simp

@[simp] theorem levelless_checkDeviation (st : Station) (s : State) : levelless (checkDeviation st s) = levelless s := by
  unfold checkDeviation
  simp

@[simp] theorem levelless_takeTransactionBegin (s : State) : levelless (takeTransactionBegin s) = levelless s := by
  unfold takeTransactionBegin
  try dsimp only
  (repeat' split) <;> simp

@[simp] theorem levelless_takeQuerySent (s : State) : levelless (takeQuerySent s) = levelless s := by
  unfold takeQuerySent
  try dsimp only
  (repeat' split) <;> simp

@[simp] theorem levelless_setProbeBus (s : State) : levelless (setProbeBus s) = levelless s := by
  unfold setProbeBus
  simp

@[simp] theorem levelless_endTransaction (st : Station) (s : State) : levelless (endTransaction st s) = levelless s := by
  unfold endTransaction
  simp

@[simp] theorem levelless_takeMiss (st : Station) (s : State) : levelless (takeMiss st s) = levelless s := by
  unfold takeMiss
  simp

@[simp] theorem levelless_failReply (st : Station) (attempt : Attempt) (s : State) : levelless (failReply st attempt s) = levelless s := by
  cases attempt <;> simp [failReply]

@[simp] theorem levelless_replaceReading (st : Station) (r : Reply) (s : State) : levelless (replaceReading st r s) = levelless s := by
  unfold replaceReading
  simp

@[simp] theorem levelless_takeReply (st : Station) (r : Reply) (s : State) : levelless (takeReply st r s) = levelless s := by
  unfold takeReply
  simp

@[simp] theorem levelless_judgeArrived (st : Station) (attempt : Attempt) (bytes : List Byte) (s : State) :
    levelless (judgeArrived st attempt bytes s) = levelless s := by
  unfold judgeArrived
  split <;> simp

@[simp] theorem levelless_receive (st : Station) (attempt : Attempt) (query : Word) (bytes : List Byte) (framingError : Bool)
    (s : State) : levelless (receive st attempt query bytes framingError s) = levelless s := by
  unfold receive
  (repeat' split) <;> simp

@[simp] theorem levelless_takeReplyFrame (bytes : List Byte) (framingError : Bool) (s : State) : levelless (takeReplyFrame bytes framingError s) = levelless s := by
  unfold takeReplyFrame
  try dsimp only
  (repeat' split) <;> simp

@[simp] theorem levelless_takeReplyTimeout (s : State) : levelless (takeReplyTimeout s) = levelless s := by
  unfold takeReplyTimeout
  try dsimp only
  (repeat' split) <;> simp

@[simp] theorem levelless_takeMotionOn (s : State) : levelless (takeMotionOn s) = levelless s := by
  unfold takeMotionOn unlessHaltedLevel
  simp

@[simp] theorem levelless_takeMotionOff (s : State) : levelless (takeMotionOff s) = levelless s := by
  unfold takeMotionOff unlessHaltedLevel
  simp

@[simp] theorem levelless_makeAbsent (st : Station) (s : State) : levelless (makeAbsent st s) = levelless s := by
  unfold makeAbsent
  simp

@[simp] theorem levelless_endSettleHold (s : State) : levelless (endSettleHold s) = levelless s := by
  unfold endSettleHold
  simp

@[simp] theorem levelless_warnLevel (s : State) : levelless (warnLevel s) = levelless s := by
  unfold warnLevel
  simp

@[simp] theorem levelless_clearLevel (s : State) : levelless (clearLevel s) = levelless s := by
  unfold clearLevel
  simp

@[simp] theorem levelless_restoreLevel (s : State) : levelless (restoreLevel s) = levelless s := by
  unfold restoreLevel
  simp

@[simp] theorem levelless_levelEnters (p : PartState) (s : State) : levelless (levelEnters p s) = levelless s := by
  unfold levelEnters
  simp

@[simp] theorem levelless_refitLevel (mask : BitVec 64) (s : State) : levelless (refitLevel mask s) = levelless s := by
  unfold refitLevel
  simp

end Sys2Proof.Machine
end

