-- ==== Sys2Proof/Laws/Memory.lean ====
section
/-! SUPPORT. Every memory operation keeps the canonical form, and what each leaves at each offset. -/

namespace Sys2Proof.Machine

open Sys2Proof

/-! ## The canonical form -/

theorem wf_nil : Memory.wf [] := ⟨List.Pairwise.nil, by simp⟩

theorem wf_filter {m : Memory} (p : Host.Cell → Bool) (h : Memory.wf m) : Memory.wf (m.filter p) :=
  ⟨h.1.filter p, fun c hc => h.2 c (List.mem_of_mem_filter hc)⟩

theorem wf_clearBytes {m : Memory} (o n : Nat) (h : Memory.wf m) : Memory.wf (clearBytes m o n) := wf_filter _ h

theorem mem_writeByte {m : Memory} {a : Nat} {b : Byte} {c : Host.Cell} (h : c ∈ writeByte m a b) :
    c ∈ m ∨ (c = (a, b) ∧ b ≠ Memory.unlisted) := by
  induction m with
  | nil => unfold writeByte at h; split at h <;> simp_all
  | cons d m ih =>
    unfold writeByte at h
    split_ifs at h <;> simp only [List.mem_cons] at h ⊢ <;> tauto

theorem wf_writeByte {m : Memory} (a : Nat) (b : Byte) (h : Memory.wf m) : Memory.wf (writeByte m a b) := by
  refine ⟨?_, fun c hc => ?_⟩
  · induction m with
    | nil => unfold writeByte; split <;> simp
    | cons d m ih =>
      obtain ⟨hp, hu⟩ := h
      rw [List.pairwise_cons] at hp
      have hm : Memory.wf m := ⟨hp.2, fun c hc => hu c (List.mem_cons_of_mem d hc)⟩
      unfold writeByte
      split_ifs with h1 h2 h3 h3
      · rw [List.pairwise_cons]
        refine ⟨fun c hc => ?_, ih hm⟩
        rcases mem_writeByte hc with hc | ⟨rfl, -⟩
        · exact hp.1 c hc
        · exact h1
      · exact hp.2
      · rw [List.pairwise_cons]
        exact ⟨fun c hc => h2 ▸ hp.1 c hc, hp.2⟩
      · rw [List.pairwise_cons]; exact hp
      · rw [List.pairwise_cons, List.pairwise_cons]
        refine ⟨fun c hc => ?_, hp⟩
        rcases List.mem_cons.1 hc with rfl | hc
        · show a < c.1; omega
        · have := hp.1 c hc; show a < c.1; omega
  · rcases mem_writeByte hc with hc | ⟨rfl, hb⟩
    · exact h.2 c hc
    · exact hb

theorem wf_writeWord {m : Memory} (o : Nat) (w : Word) (h : Memory.wf m) : Memory.wf (writeWord m o w) :=
  wf_writeByte _ _ (wf_writeByte _ _ (wf_writeByte _ _ (wf_writeByte _ _ h)))

/-- The listed bytes of a run of words are in their range, in rising order, and none is one that is not listed. -/
theorem wordCells_spec (o : Nat) (ws : List Word) :
    (wordCells o ws).Pairwise (fun a b => a.1 < b.1)
      ∧ ∀ c ∈ wordCells o ws, c.2 ≠ Memory.unlisted ∧ o ≤ c.1 ∧ c.1 < o + 4 * ws.length := by
  induction ws generalizing o with
  | nil => exact ⟨List.Pairwise.nil, by simp [wordCells]⟩
  | cons w ws ih =>
    obtain ⟨hp, hr⟩ := ih (o + 4)
    have hfour : ∀ c ∈ ([(o, wordByte w 0), (o + 1, wordByte w 1), (o + 2, wordByte w 2), (o + 3, wordByte w 3)].filter
        fun c : Host.Cell => c.2 != Memory.unlisted), c.2 ≠ Memory.unlisted ∧ o ≤ c.1 ∧ c.1 < o + 4 := by
      intro c hc
      rw [List.mem_filter] at hc
      refine ⟨by simpa using hc.2, ?_⟩
      have := hc.1
      simp only [List.mem_cons, List.not_mem_nil, or_false] at this
      rcases this with rfl | rfl | rfl | rfl <;> simp
    refine ⟨?_, fun c hc => ?_⟩
    · unfold wordCells
      rw [List.pairwise_append]
      refine ⟨List.Pairwise.filter _ (by simp), hp, fun a ha b hb => ?_⟩
      have := hfour a ha
      have := hr b hb
      omega
    · unfold wordCells at hc
      rw [List.mem_append] at hc
      simp only [List.length_cons]
      rcases hc with hc | hc
      · have := hfour c hc
        exact ⟨this.1, by omega, by omega⟩
      · have := hr c hc
        exact ⟨this.1, by omega, by omega⟩

theorem wf_writeWords {m : Memory} (o : Nat) (ws : List Word) (h : Memory.wf m) : Memory.wf (writeWords m o ws) := by
  obtain ⟨hp, hr⟩ := wordCells_spec o ws
  have low := wf_filter (fun c : Host.Cell => decide (c.1 < o)) h
  have high := wf_filter (fun c : Host.Cell => decide (o + 4 * ws.length ≤ c.1)) h
  unfold writeWords
  refine ⟨?_, fun c hc => ?_⟩
  · rw [List.pairwise_append, List.pairwise_append]
    refine ⟨⟨low.1, hp, fun a ha b hb => ?_⟩, high.1, fun a ha b hb => ?_⟩
    · have h1 : a.1 < o := by simpa using (List.mem_filter.1 ha).2
      have := hr b hb
      omega
    · have h2 : o + 4 * ws.length ≤ b.1 := by simpa using (List.mem_filter.1 hb).2
      rcases List.mem_append.1 ha with ha | ha
      · have h1 : a.1 < o := by simpa using (List.mem_filter.1 ha).2
        omega
      · have := hr a ha
        omega
  · rw [List.mem_append, List.mem_append] at hc
    rcases hc with (hc | hc) | hc
    · exact low.2 c hc
    · exact (hr c hc).1
    · exact high.2 c hc

/-! ## Reading back -/

/-- A byte written reads back, and every other byte reads as before, in a memory of the canonical form. -/
theorem readByte_writeByte {m : Memory} (h : Memory.wf m) (a x : Nat) (b : Byte) :
    readByte (writeByte m a b) x = if x = a then b else readByte m x := by
  have low : ∀ (m : Memory) (x : Nat), (∀ c ∈ m, x < c.1) → readByte m x = Memory.unlisted := by
    intro m x hm
    induction m with
    | nil => rfl
    | cons d m ih =>
      have h1 := hm d (List.mem_cons_self ..)
      have h2 := ih fun c hc => hm c (List.mem_cons_of_mem d hc)
      simp only [readByte]
      rw [if_neg (by omega), h2]
  induction m with
  | nil =>
    unfold writeByte
    by_cases hb : b = Memory.unlisted
    · simp [hb, readByte]
    · simp only [hb, if_false, readByte, eq_comm]
  | cons d m ih =>
    obtain ⟨hp, hu⟩ := h
    rw [List.pairwise_cons] at hp
    have hm : Memory.wf m := ⟨hp.2, fun c hc => hu c (List.mem_cons_of_mem d hc)⟩
    have tail : ∀ x, d.1 ≠ x → readByte (d :: m) x = readByte m x := fun x hx => by simp only [readByte, if_neg hx]
    have gap : ∀ x, x < d.1 → readByte (d :: m) x = Memory.unlisted := fun x hx => low _ _ fun c hc => by
      rcases List.mem_cons.1 hc with rfl | hc
      · exact hx
      · exact hx.trans (hp.1 c hc)
    unfold writeByte
    by_cases h1 : d.1 < a
    · rw [if_pos h1]
      simp only [readByte, ih hm]
      by_cases hx : d.1 = x
      · rw [if_pos hx, if_pos hx, if_neg (by omega)]
      · rw [if_neg hx, if_neg hx]
    · rw [if_neg h1]
      by_cases h2 : d.1 = a
      · rw [if_pos h2]
        by_cases hx : x = a
        · rw [if_pos hx]
          by_cases hb : b = Memory.unlisted
          · rw [if_pos hb, hb]
            exact low _ _ fun c hc => by have := hp.1 c hc; omega
          · rw [if_neg hb]
            simp only [readByte, if_pos hx.symm]
        · rw [if_neg hx, tail x (by omega)]
          by_cases hb : b = Memory.unlisted
          · rw [if_pos hb]
          · rw [if_neg hb]
            simp only [readByte, if_neg (Ne.symm hx)]
      · rw [if_neg h2]
        by_cases hb : b = Memory.unlisted
        · rw [if_pos hb]
          by_cases hx : x = a
          · rw [if_pos hx, hb]
            exact gap x (by omega)
          · rw [if_neg hx]
        · rw [if_neg hb]
          by_cases hx : x = a
          · rw [if_pos hx]
            simp only [readByte, if_pos hx.symm]
          · rw [if_neg hx]
            simp only [readByte, if_neg (Ne.symm hx)]

/-- Which byte of a word stands at an offset. -/
theorem readByte_writeWord {m : Memory} (h : Memory.wf m) (o x : Nat) (w : Word) :
    readByte (writeWord m o w) x =
      if o ≤ x ∧ x < o + 4 then wordByte w (x - o) else readByte m x := by
  have h3 := wf_writeByte (o + 3) (wordByte w 3) h
  have h2 := wf_writeByte (o + 2) (wordByte w 2) h3
  have h1 := wf_writeByte (o + 1) (wordByte w 1) h2
  unfold writeWord
  rw [readByte_writeByte h1, readByte_writeByte h2, readByte_writeByte h3, readByte_writeByte h]
  by_cases hx : o ≤ x ∧ x < o + 4
  · rw [if_pos hx]
    obtain ⟨k, rfl⟩ : ∃ k, x = o + k := ⟨x - o, by omega⟩
    have hk : k < 4 := by omega
    have hs : o + k - o = k := by omega
    rw [hs]
    interval_cases k <;> simp
  · rw [if_neg hx]
    split_ifs <;> first | rfl | omega

/-- A word written reads back. -/
theorem readWord_writeWord {m : Memory} (h : Memory.wf m) (o : Nat) (w : Word) :
    readWord (writeWord m o w) o = w := by
  simp only [readWord, readHalf, readByte_writeWord h]
  simp only [show o ≤ o + 2 + 1 ∧ o + 2 + 1 < o + 4 from by omega, show o ≤ o + 2 ∧ o + 2 < o + 4 from by omega,
    show o ≤ o + 1 ∧ o + 1 < o + 4 from by omega, show o ≤ o ∧ o < o + 4 from by omega, if_true, and_self,
    show o + 2 + 1 - o = 3 from by omega, show o + 2 - o = 2 from by omega, show o + 1 - o = 1 from by omega,
    Nat.sub_self]
  apply BitVec.eq_of_getLsbD_eq
  intro i hi
  have hlt : i < 32 := hi
  simp only [wordByte, BitVec.getLsbD_append, BitVec.getLsbD_extractLsb']
  interval_cases i <;> simp

/-- A word elsewhere reads as before. -/
theorem readWord_writeWord_other {m : Memory} (h : Memory.wf m) {o x : Nat} (w : Word) (hx : x + 4 ≤ o ∨ o + 4 ≤ x) :
    readWord (writeWord m o w) x = readWord m x := by
  simp only [readWord, readHalf, readByte_writeWord h]
  rw [if_neg (by omega), if_neg (by omega), if_neg (by omega), if_neg (by omega)]

/-! ## Bytes taken out -/

/-- A memory with the bytes of some offsets taken out reads as an unlisted byte there, and as before elsewhere. -/
theorem readByte_filter (m : Memory) (keep : Nat → Bool) (x : Nat) :
    readByte (m.filter fun c => keep c.1) x = if keep x = true then readByte m x else Memory.unlisted := by
  induction m with
  | nil => simp [readByte]
  | cons d m ih =>
    by_cases hd : keep d.1 = true
    · rw [List.filter_cons_of_pos (by simpa using hd)]
      simp only [readByte, ih]
      by_cases hx : d.1 = x
      · rw [if_pos hx, if_pos hx, ← hx, if_pos hd]
      · rw [if_neg hx, if_neg hx]
    · rw [List.filter_cons_of_neg (by simpa using hd), ih]
      by_cases hx : d.1 = x
      · rw [← hx, if_neg hd, if_neg hd]
      · simp only [readByte, if_neg hx]

/-- A byte of the range cleared reads as an unlisted one, and every other byte reads as before. -/
theorem readByte_clearBytes (m : Memory) (o n x : Nat) :
    readByte (clearBytes m o n) x = if o ≤ x ∧ x < o + n then Memory.unlisted else readByte m x := by
  rw [clearBytes, readByte_filter m (fun a => decide (a < o) || decide (o + n ≤ a))]
  by_cases hx : o ≤ x ∧ x < o + n
  · rw [if_pos hx, if_neg (by simp; omega)]
  · rw [if_neg hx, if_pos (by simp; omega)]

/-- Of two memories laid one behind the other the first is read where the second does not list the offset. -/
theorem readByte_append_left (l m : Memory) {x : Nat} (h : ∀ c ∈ m, c.1 ≠ x) : readByte (l ++ m) x = readByte l x := by
  have none_listed : ∀ m : Memory, (∀ c ∈ m, c.1 ≠ x) → readByte m x = Memory.unlisted := by
    intro m hm
    induction m with
    | nil => rfl
    | cons d m ih =>
      rw [readByte, if_neg (hm d (List.mem_cons_self ..)), ih fun c hc => hm c (List.mem_cons_of_mem d hc)]
  induction l with
  | nil => exact none_listed m h
  | cons d l ih => rw [List.cons_append, readByte, readByte, ih]

/-- Of two memories laid one behind the other the second is read where the first does not list the offset. -/
theorem readByte_append_right (l m : Memory) {x : Nat} (h : ∀ c ∈ l, c.1 ≠ x) : readByte (l ++ m) x = readByte m x := by
  induction l with
  | nil => rfl
  | cons d l ih =>
    rw [List.cons_append, readByte, if_neg (h d (List.mem_cons_self ..)), ih fun c hc => h c (List.mem_cons_of_mem d hc)]

/-- A byte outside a run of words written reads as before. -/
theorem readByte_writeWords_other (m : Memory) {o x : Nat} (ws : List Word) (hx : x < o ∨ o + 4 * ws.length ≤ x) :
    readByte (writeWords m o ws) x = readByte m x := by
  have cells := (wordCells_spec o ws).2
  unfold writeWords
  rcases hx with hx | hx
  · rw [readByte_append_left _ _ (fun c hc => by simp at hc; omega),
      readByte_append_left _ _ (fun c hc => by have := cells c hc; omega),
      readByte_filter m (fun a => decide (a < o)), if_pos (by simpa using hx)]
  · rw [readByte_append_right _ _ (fun c hc => by
        rcases List.mem_append.1 hc with h | h
        · simp at h; omega
        · have := cells c h; omega),
      readByte_filter m (fun a => decide (o + 4 * ws.length ≤ a)), if_pos (by simpa using hx)]

end Sys2Proof.Machine
end

