-- ==== Sys2Proof/Laws/WaveFrame.lean ====
section
/-! SUPPORT. Every operation of the Wave Controller changes its own state and the messages alone. -/

namespace Sys2Proof.Machine

open Sys2Proof

/-- Everything but what the Wave Controller keeps and the messages. -/
def waveless (s : State) :=
  (s.pending, s.power, s.strap, s.storeFails, s.resetReads, s.tmb, s.ssu, s.vdu, s.lbp, s.ltr, s.fds, s.exc, s.psv, s.window)

@[simp] theorem waveless_with_wvc (s : State) (x : Wvc) : waveless { s with wvc := x } = waveless s := rfl

@[simp] theorem waveless_with_mail (s : State) (x : List Instr) : waveless { s with mail := x } = waveless s := rfl

@[simp] theorem waveless_with (s : State) (xwvc : Wvc) (xmail : List Instr) :
    waveless { s with wvc := xwvc, mail := xmail } = waveless s := rfl

@[simp] theorem waveless_ite (c : Prop) [Decidable c] (s t : State) :
    waveless (if c then s else t) = if c then waveless s else waveless t := apply_ite _ _ _ _

@[simp] theorem waveless_send (c : Instr) (s : State) : waveless (send c s) = waveless s := rfl

@[simp] theorem waveless_sendAll (cs : List Instr) (s : State) : waveless (sendAll cs s) = waveless s := rfl

@[simp] theorem waveless_requestAttn (a : AttnSource) (s : State) : waveless (requestAttn a s) = waveless s := rfl

@[simp] theorem waveless_took (c : Instr) (s : State) : waveless (took c s) = waveless s := rfl

@[simp] theorem waveless_when (b : Bool) (f : State → State) (s : State) (h : waveless (f s) = waveless s) :
    waveless (when b f s) = waveless s := by
  cases b
  · rfl
  · exact h

@[simp] theorem waveless_when_send (b : Bool) (c : Instr) (s : State) : waveless (when b (send c) s) = waveless s := by
  cases b <;> rfl

theorem waveless_fold {α : Type} (f : State → α → State) (h : ∀ t a, waveless (f t a) = waveless t) (l : List α) (s : State) :
    waveless (l.foldl f s) = waveless s := by
  induction l generalizing s with
  | nil => rfl
  | cons a l ih => rw [List.foldl_cons, ih, h]

@[simp] theorem waveless_forEach (sts : List Station) (f : Station → State → State) (s : State)
    (h : ∀ st t, waveless (f st t) = waveless t) : waveless (forEach sts f s) = waveless s :=
  waveless_fold _ (fun t a => h a t) sts s

/-- Only the Wave Controller's own state and the messages have changed. -/
theorem waveless_eq {s t : State} (h : waveless t = waveless s) : t = { s with wvc := t.wvc, mail := t.mail } := by
  simp only [waveless, Prod.mk.injEq] at h
  obtain ⟨h0, h1, h2, h3, h4, h5, h6, h7, h8, h9, h10, h11, h12⟩ := h
  cases s; cases t; simp_all

@[simp] theorem waveless_setRecord (st : Station) (r : StationRecord) (s : State) : waveless (setRecord s st r) = waveless s := rfl

@[simp] theorem waveless_setItem (st : Station) (i : WaveItem) (s : State) : waveless (setItem s st i) = waveless s := rfl

@[simp] theorem waveless_mapItems (f : WaveItem → WaveItem) (s : State) : waveless (mapItems f s) = waveless s := by
  unfold mapItems
  simp

@[simp] theorem waveless_oweCounts (s : State) : waveless (oweCounts s) = waveless s := rfl

@[simp] theorem waveless_addEvents (st : Station) (events : BitVec 9) (s : State) : waveless (addEvents st events s) = waveless s := by
  unfold addEvents
  simp

@[simp] theorem waveless_setClimb (c : Climb) (s : State) : waveless (setClimb c s) = waveless s := by
  unfold setClimb
  simp

@[simp] theorem waveless_addHold (position : Nat) (s : State) : waveless (addHold position s) = waveless s := by
  unfold addHold
  simp

@[simp] theorem waveless_evaluateShort (st : Station) (s : State) : waveless (evaluateShort st s) = waveless s := by
  unfold evaluateShort
  simp

@[simp] theorem waveless_flushCounts (s : State) : waveless (flushCounts s) = waveless s := by
  unfold flushCounts
  simp

@[simp] theorem waveless_creditStroke (st : Station) (edgeTime : Word) (s : State) : waveless (creditStroke st edgeTime s) = waveless s := by
  unfold creditStroke
  simp

@[simp] theorem waveless_sendDrain (purpose : DrainPurpose) (st : Station) (s : State) : waveless (sendDrain purpose st s) = waveless s := rfl

@[simp] theorem waveless_sendDrainClose (purpose : DrainPurpose) (st : Station) (s : State) : waveless (sendDrainClose purpose st s) = waveless s := rfl

@[simp] theorem waveless_finishDriveEnd (s : State) : waveless (finishDriveEnd s) = waveless s := by
  unfold finishDriveEnd
  simp

@[simp] theorem waveless_beginDriveEnd (woundDown : Bool) (s : State) : waveless (beginDriveEnd woundDown s) = waveless s := by
  unfold beginDriveEnd
  simp [waveless_forEach _ _ _ (waveless_sendDrain _)]

@[simp] theorem waveless_carryOutRetire (st : Station) (s : State) : waveless (carryOutRetire st s) = waveless s := by
  unfold carryOutRetire
  simp

@[simp] theorem waveless_carryOutDeferred (st : Station) (s : State) : waveless (carryOutDeferred st s) = waveless s := by
  unfold carryOutDeferred
  try dsimp only
  (repeat' split) <;> simp

@[simp] theorem waveless_carryOutAllDeferred (s : State) : waveless (carryOutAllDeferred s) = waveless s := by
  unfold carryOutAllDeferred
  simp

@[simp] theorem waveless_updateClean (st : Station) (s : State) : waveless (updateClean st s) = waveless s := by
  unfold updateClean
  simp

@[simp] theorem waveless_climbAfterWave (s : State) : waveless (climbAfterWave s) = waveless s := by
  unfold climbAfterWave
  try dsimp only
  (repeat' split) <;> simp

@[simp] theorem waveless_finishSettleEnd (s : State) : waveless (finishSettleEnd s) = waveless s := by
  unfold finishSettleEnd
  simp

@[simp] theorem waveless_beginSettleEnd (s : State) : waveless (beginSettleEnd s) = waveless s := by
  unfold beginSettleEnd
  simp [waveless_forEach _ _ _ (waveless_sendDrain _)]

@[simp] theorem waveless_checkPhase (s : State) : waveless (checkPhase s) = waveless s := by
  unfold checkPhase
  try dsimp only
  (repeat' split) <;> simp

@[simp] theorem waveless_barStops (st : Station) (s : State) : waveless (barStops st s) = waveless s := by
  unfold barStops
  simp

@[simp] theorem waveless_barOwing (events : BitVec 9) (st : Station) (s : State) : waveless (barOwing events st s) = waveless s := by
  unfold barOwing
  simp

@[simp] theorem waveless_bar (events : BitVec 9) (st : Station) (s : State) : waveless (bar events st s) = waveless s := by simp [bar]

@[simp] theorem waveless_giveMark (events : BitVec 9) (st : Station) (s : State) : waveless (giveMark events st s) = waveless s := by
  unfold giveMark
  simp

@[simp] theorem waveless_setDoubt (st : Station) (s : State) : waveless (setDoubt st s) = waveless s := by simp [setDoubt]

@[simp] theorem waveless_creditFirst (st : Station) (records : List EdgeRecord) (s : State) : waveless (creditFirst st records s) = waveless s := by
  unfold creditFirst
  try dsimp only
  (repeat' split) <;> simp

@[simp] theorem waveless_judgeDrive (st : Station) (records : List EdgeRecord) (overflow : Bool) (s : State) : waveless (judgeDrive st records overflow s) = waveless s := by
  unfold judgeDrive
  simp

@[simp] theorem waveless_creditLate (st : Station) (records : List EdgeRecord) (s : State) : waveless (creditLate st records s) = waveless s := by
  unfold creditLate
  simp

@[simp] theorem waveless_markIf (events : BitVec 9) (st : Station) (s : State) : waveless (markIf events st s) = waveless s := by
  unfold markIf
  simp

@[simp] theorem waveless_judgeSettle (st : Station) (records : List EdgeRecord) (overflow : Bool) (s : State) : waveless (judgeSettle st records overflow s) = waveless s := by
  unfold judgeSettle
  try dsimp only
  (repeat' split) <;> simp

@[simp] theorem waveless_settlePowerDown (st : Station) (records : List EdgeRecord) (s : State) : waveless (settlePowerDown st records s) = waveless s := by
  unfold settlePowerDown
  try dsimp only
  (repeat' split) <;> simp

@[simp] theorem waveless_settleBar (st : Station) (records : List EdgeRecord) (s : State) : waveless (settleBar st records s) = waveless s := by
  unfold settleBar
  try dsimp only
  (repeat' split) <;> simp

@[simp] theorem waveless_actOnAnswer (purpose : DrainPurpose) (st : Station) (records : List EdgeRecord) (overflow : Bool) (s : State) : waveless (actOnAnswer purpose st records overflow s) = waveless s := by
  cases purpose <;> simp [actOnAnswer]

@[simp] theorem waveless_finishPowerDown (s : State) : waveless (finishPowerDown s) = waveless s := by simp [finishPowerDown]

@[simp] theorem waveless_checkEnding (s : State) : waveless (checkEnding s) = waveless s := by
  unfold checkEnding
  try dsimp only
  (repeat' split) <;> simp

@[simp] theorem waveless_beginEvaluation (s : State) : waveless (beginEvaluation s) = waveless s := by
  unfold beginEvaluation
  simp

@[simp] theorem waveless_startDrive (s : State) : waveless (startDrive s) = waveless s := by simp [startDrive]

@[simp] theorem waveless_closeRecoveryWindows (s : State) : waveless (closeRecoveryWindows s) = waveless s := by
  unfold closeRecoveryWindows
  simp [waveless_forEach _ _ _ (waveless_sendDrainClose _)]

@[simp] theorem waveless_openRecoveryWindows (s : State) : waveless (openRecoveryWindows s) = waveless s := rfl

@[simp] theorem waveless_answerOrder (slot : OrderSlot) (result : OrderOutcome) (s : State) : waveless (answerOrder slot result s) = waveless s := rfl

@[simp] theorem waveless_carryOutRequalify (st : Station) (count : Nat) (s : State) : waveless (carryOutRequalify st count s) = waveless s := by simp [carryOutRequalify]

@[simp] theorem waveless_takeDrainAnswer (st : Station) (records : List EdgeRecord) (overflow : Bool) (s : State) : waveless (takeDrainAnswer st records overflow s) = waveless s := by
  unfold takeDrainAnswer unlessHaltedWave
  try dsimp only
  (repeat' split) <;> simp

@[simp] theorem waveless_takeFirstOfKind (st : Station) (kind : EdgeKind) (s : State) : waveless (takeFirstOfKind st kind s) = waveless s := by
  unfold takeFirstOfKind unlessHaltedWave
  try dsimp only
  (repeat' split) <;> simp

@[simp] theorem waveless_takeMarkRequest (st : Station) (cause : MarkCause) (s : State) : waveless (takeMarkRequest st cause s) = waveless s := by
  unfold takeMarkRequest unlessHaltedWave
  simp

@[simp] theorem waveless_takeCoilFault (st : Station) (s : State) : waveless (takeCoilFault st s) = waveless s := by
  unfold takeCoilFault unlessHaltedWave
  simp

@[simp] theorem waveless_takeEventRequest (st : Station) (s : State) : waveless (takeEventRequest st s) = waveless s := by
  unfold takeEventRequest unlessHaltedWave
  simp

@[simp] theorem waveless_waveSecond (s : State) : waveless (waveSecond s) = waveless s := by
  unfold waveSecond
  simp

@[simp] theorem waveless_takeDwellExpiry (s : State) : waveless (takeDwellExpiry s) = waveless s := by
  unfold takeDwellExpiry unlessHaltedWave
  simp

@[simp] theorem waveless_takePermission (age fill : BitVec 16) (s : State) : waveless (takePermission age fill s) = waveless s := by
  unfold takePermission unlessHaltedWave
  try dsimp only
  (repeat' split) <;> simp

@[simp] theorem waveless_takeDriveTimer (s : State) : waveless (takeDriveTimer s) = waveless s := by
  unfold takeDriveTimer unlessHaltedWave
  simp

@[simp] theorem waveless_takeSettleTimer (s : State) : waveless (takeSettleTimer s) = waveless s := by
  unfold takeSettleTimer unlessHaltedWave
  simp

@[simp] theorem waveless_takeFallTimer (s : State) : waveless (takeFallTimer s) = waveless s := by
  unfold takeFallTimer unlessHaltedWave
  simp

@[simp] theorem waveless_takeClimbDirective (values : ClimbValues) (s : State) : waveless (takeClimbDirective values s) = waveless s := by
  unfold takeClimbDirective unlessHaltedWave
  try dsimp only
  (repeat' split) <;> simp

@[simp] theorem waveless_windDown (s : State) : waveless (windDown s) = waveless s := by
  unfold windDown
  split <;> simp

@[simp] theorem waveless_takeWaveStop (s : State) : waveless (takeWaveStop s) = waveless s := by
  unfold takeWaveStop unlessHaltedWave
  try dsimp only
  (repeat' split) <;> simp

@[simp] theorem waveless_waveLineHold (s : State) : waveless (waveLineHold s) = waveless s := by
  unfold waveLineHold unlessHaltedWave
  simp

@[simp] theorem waveless_takeWavePowerDown (s : State) : waveless (takeWavePowerDown s) = waveless s := by
  unfold takeWavePowerDown unlessHaltedWave
  simp [waveless_forEach _ _ _ (waveless_sendDrainClose _)]

@[simp] theorem waveless_waveEnters (p : PartState) (s : State) : waveless (waveEnters p s) = waveless s := by
  cases p <;> simp [waveEnters]

@[simp] theorem waveless_setUpTable (mask : BitVec 64) (s : State) : waveless (setUpTable mask s) = waveless s := rfl

@[simp] theorem waveless_clearWave (s : State) : waveless (clearWave s) = waveless s := rfl

@[simp] theorem waveless_takeRequalify (slot : OrderSlot) (station count : Word) (s : State) : waveless (takeRequalify slot station count s) = waveless s := by
  unfold takeRequalify unlessHaltedWave
  try dsimp only
  (repeat' split) <;> simp

@[simp] theorem waveless_takeRetire (slot : OrderSlot) (station : Word) (s : State) : waveless (takeRetire slot station s) = waveless s := by
  unfold takeRetire unlessHaltedWave
  try dsimp only
  (repeat' split) <;> simp

@[simp] theorem waveless_takeClearStation (slot : OrderSlot) (index events : Word) (s : State) : waveless (takeClearStation slot index events s) = waveless s := by
  unfold takeClearStation unlessHaltedWave
  try dsimp only
  (repeat' split) <;> simp

end Sys2Proof.Machine
end

