-- ==== Sys2Proof/Laws/Settlement.lean ====
section
/-! SUPPORT. What the messages that a reset lets arrive first leave behind, and what becomes of a wave in flight at the
assertion of a reset: its records, and its deferred RETIREs. -/

set_option linter.unusedVariables false
set_option linter.unusedSimpArgs false

namespace Sys2Proof.Machine

open Sys2Proof

/-- The message is one that a reset lets arrive first. -/
def settles (c : Instr) : Bool := (settling c).isSome

/-- The messages waiting that a reset lets arrive first, oldest first. -/
def settlingMail (s : State) : List Instr := s.mail.filter settles

/-- The oldest such message is taken. -/
def settleOne (s : State) : State := settleMail 1 s

/-- To take n + m such messages is to take n and then m. -/
theorem settleMail_add (n m : Nat) (s : State) : settleMail (n + m) s = settleMail m (settleMail n s) := by
  induction n generalizing s with
  | zero => simp [settleMail]
  | succ n ih =>
    rw [Nat.succ_add]
    cases hf : s.mail.find? fun c => (settling c).isSome with
    | none =>
      have : ∀ k, settleMail k s = s := by intro k; cases k <;> simp [settleMail, hf]
      rw [this, this, this]
    | some c =>
      cases hs : settling c with
      | none => have := List.find?_some hf; simp [hs] at this
      | some f => simp only [settleMail, hf, hs]; rw [ih]

/-- With none waiting nothing is taken. -/
theorem settleMail_none (n : Nat) (s : State) (h : settlingMail s = []) : settleMail n s = s := by
  have : (s.mail.find? fun c => (settling c).isSome) = none := by
    rw [List.find?_eq_none]; intro x hx hs
    have : x ∈ settlingMail s := List.mem_filter.2 ⟨hx, hs⟩
    rw [h] at this; simp at this
  cases n <;> simp [settleMail, this]

/-- The first message of a kind, taken out, leaves the rest of that kind. -/
theorem filter_erase_head (c : Instr) (l q : List Instr) (h : l.filter settles = c :: q) : (l.erase c).filter settles
    = q := by
  induction l with
  | nil => simp at h
  | cons a l ih =>
    by_cases ha : settles a = true
    · rw [List.filter_cons_of_pos ha] at h
      injection h with h1 h2
      subst h1; rw [List.erase_cons_head]; exact h2
    · rw [List.filter_cons_of_neg ha] at h
      have hc : settles c = true := by
        have : c ∈ l.filter settles := by rw [h]; exact List.mem_cons_self ..
        exact (List.mem_filter.1 this).2
      have hne : a ≠ c := by rintro rfl; exact ha hc
      rw [List.erase_cons_tail (by simpa using hne), List.filter_cons_of_neg ha, ih h]

/-- The message taken is the oldest of its kind. -/
theorem find_settling (s : State) (c : Instr) (q : List Instr) (h : settlingMail s = c :: q) : (s.mail.find? fun c =>
    (settling c).isSome) = some c := by
  have : s.mail.find? settles = (s.mail.filter settles).head? := by
    rw [List.head?_filter]
  show s.mail.find? settles = some c
  rw [this]; show (settlingMail s).head? = _; rw [h]; rfl

/-- What taking the oldest does. -/
theorem settleOne_eq (s : State) (c : Instr) (q : List Instr) (f : State → State) (h : settlingMail s = c :: q) (hf :
    settling c = some f) :
    settleOne s = f (took c s) := by
  unfold settleOne; simp only [settleMail, find_settling s c q h, hf]

/-- Its taking leaves the others. -/
theorem settlingMail_took (s : State) (c : Instr) (q : List Instr) (h : settlingMail s = c :: q) : settlingMail (took
    c s) = q := filter_erase_head c s.mail q h

/-- Messages sent join at the end. -/
theorem settlingMail_append (s t : State) (new : List Instr) (h : t.mail = s.mail ++ new) : settlingMail t =
    settlingMail s ++ new.filter settles := by
  unfold settlingMail; rw [h, List.filter_append]

/-- The drains sent to several stations are answered in the order in which they were sent,
    and change the queues alone. -/
theorem settleMail_drainQueues (A : List Station) (X : List Instr) (s : State) (hn : A.Nodup) (hQ : settlingMail s =
    A.map Instr.drainQueue ++ X) :
    let u := settleMail A.length s
    settlingMail u = X ++ A.map (fun a => Instr.drainAnswer a (ssuOf s a).queue (ssuOf s a).overflow)
    ∧ u = { s with ssu := u.ssu, mail := u.mail } := by
  induction A generalizing s X with
  | nil => simp [settleMail] at *; exact hQ
  | cons a A ih =>
    obtain ⟨ha, hn'⟩ := List.nodup_cons.1 hn
    have h1 := settleOne_eq s (.drainQueue a) (A.map Instr.drainQueue ++ X) (takeDrainQueue a) hQ rfl
    have hu : settleMail (a :: A).length s = settleMail A.length (settleOne s) := by
      rw [List.length_cons, Nat.add_comm, settleMail_add]; rfl
    have hQ1 : settlingMail (settleOne s) = A.map Instr.drainQueue ++ (X ++ [Instr.drainAnswer a (ssuOf s a).queue
        (ssuOf s a).overflow]) := by
      rw [h1]
      have := settlingMail_append (took (.drainQueue a) s) (takeDrainQueue a (took (.drainQueue a) s))
          [Instr.drainAnswer a (ssuOf s a).queue (ssuOf s a).overflow] rfl
      rw [this, settlingMail_took s _ _ hQ]
      simp [settles, settling]
    obtain ⟨i1, i2⟩ := ih _ _ hn' hQ1
    have hs1 : settleOne s = { s with ssu := (settleOne s).ssu, mail := (settleOne s).mail } := by rw [h1]; rfl
    have hss : ∀ x ∈ A, ssuOf (settleOne s) x = ssuOf s x := by
      intro x hx
      rw [h1]
      have : a ≠ x := by rintro rfl; exact ha hx
      show (put s.ssu.stations a _)[x] = _
      rw [put_other _ _ this]; rfl
    dsimp only
    rw [hu]
    constructor
    · rw [i1]
      have : A.map (fun a => Instr.drainAnswer a (ssuOf (settleOne s) a).queue (ssuOf (settleOne s) a).overflow) =
          A.map (fun a => Instr.drainAnswer a (ssuOf s a).queue (ssuOf s a).overflow) := by
        apply List.map_congr_left; intro x hx; rw [hss x hx]
      rw [this]; simp
    · rw [i2, hs1]

/-- The record with this stroke credited. -/
def creditedRecord (s : State) (r : StationRecord) (e : EdgeRecord) : StationRecord := { r with
    count := min 65535 (r.count + 1), lastStroke := some (min 65535 (e.time - s.wvc.driveStart).toNat) }

/-- The record of a participant once the answer to its power-down drain has been judged. -/
def settledBy (s : State) (st : Station) (recs : List EdgeRecord) : StationRecord :=
  let r := recordOf s st
  match (itemOf s st).verdict, recs.find? fun e => decide (e.kind = .extend) with
    | none, some e => creditedRecord s r e
    | none, none => { r with inDoubt := true, events := r.events ||| 0x040#9 }
    | some .missing, some e => creditedRecord s r e
    | some .inDoubt, some e => { creditedRecord s r e with inDoubt := false }
    | _, _ => r

/-- Each record after one has been set. -/
theorem recordOf_setRecord_ite (s : State) (st x : Station) (r : StationRecord) : recordOf (setRecord s st r) x = if
    x = st then r else recordOf s x := by
  simp only [recordOf, setRecord, put_get, eq_comm]

/-- A record set to what it is changes nothing. -/
theorem setRecord_self (s : State) (st : Station) (r : StationRecord) (h : recordOf s st = r) : setRecord s st r = s
    := by
  unfold setRecord
  have : put s.wvc.table st r = s.wvc.table := by rw [← h]; exact put_get_self _ _
  rw [this]

/-- Station events set, with EVENT asked for where one is new. -/
theorem addEvents_eq (st : Station) (e : BitVec 9) (s : State) :
    addEvents st e s = { setRecord s st { recordOf s st with events := (recordOf s st).events ||| e } with
      mail := s.mail ++ if (recordOf s st).events ||| e = (recordOf s st).events then [] else [.attentionSetRequest
          .event] } := by
  unfold addEvents
  dsimp only
  split
  · rename_i h
    rw [setRecord_self s st _ (by rw [h])]; simp
  · simp [requestAttn, send, setRecord]

/-- An operation of a wave that sets one record and may touch the mark of counts that changed and the messages,
    none of
which a reset waits for. -/
structure TouchesStation (s u : State) (st : Station) (r : StationRecord) : Prop where
  rest : ∃ T D M, u = { s with wvc := { s.wvc with table := T, countsDirty := D }, mail := M }
  table : ∀ x, recordOf u x = if x = st then r else recordOf s x
  q : settlingMail u = settlingMail s

/-- A drained queue holds an EXTEND exactly where one is found. -/
theorem hasExtend_iff (recs : List EdgeRecord) : hasExtend recs = (recs.find? fun e => decide (e.kind =
    .extend)).isSome := by
  unfold hasExtend; rw [Bool.eq_iff_iff]; simp

/-- The first EXTEND credited sets the one record. -/
theorem creditFirst_touches (s : State) (st : Station) (recs : List EdgeRecord) (e : EdgeRecord) (h : (recs.find? fun
    e => decide (e.kind = .extend)) = some e) :
   TouchesStation s (creditFirst st recs s) st (creditedRecord s (recordOf s st) e) := by
  have : creditFirst st recs s = creditStroke st e.time s := by unfold creditFirst firstExtend; rw [h]; rfl
  rw [this]
  unfold creditStroke; dsimp only
  split
  · exact ⟨⟨_, _, _, rfl⟩, fun x => by
      show recordOf (setRecord _ _ _) x = _
      rw [recordOf_setRecord_ite]; rfl, rfl⟩
  · exact ⟨⟨_, _, _, rfl⟩, fun x => by rw [recordOf_setRecord_ite]; rfl, rfl⟩

/-- The judgement of a power-down drain sets the one record, to what the rows of 10 R177 give. -/
theorem settlePowerDown_touches (s : State) (st : Station) (recs : List EdgeRecord) :
    TouchesStation s (settlePowerDown st recs s) st (settledBy s st recs) := by
  have same : TouchesStation s s st (recordOf s st) := ⟨⟨_, _, _, rfl⟩, fun x => by split <;> simp_all, rfl⟩
  have late : ∀ e v, (recs.find? fun e => decide (e.kind = .extend)) = some e → (itemOf s st).verdict = some v →
      TouchesStation s (creditLate st recs s) st (if v = .inDoubt then
          { creditedRecord s (recordOf s st) e with inDoubt := false } else creditedRecord s (recordOf s st) e) := by
    intro e v he hv
    have hc := creditFirst_touches s st recs e he
    unfold creditLate; dsimp only
    rw [hv]
    by_cases h : v = .inDoubt
    · rw [if_pos (by rw [h]), if_pos h]
      obtain ⟨T, D, M, hr⟩ := hc.rest
      refine ⟨?_, fun x => ?_, hc.q⟩
      · rw [hr]; exact ⟨_, _, _, rfl⟩
      · rw [recordOf_setRecord_ite]; rw [hc.table, hc.table, if_pos rfl]; split <;> rfl
    · rw [if_neg (by simpa using h), if_neg h]; exact hc
  unfold settlePowerDown settledBy
  dsimp only
  rw [hasExtend_iff]
  cases he : recs.find? fun e => decide (e.kind = .extend) with
  | none =>
    cases hv : (itemOf s st).verdict with
    | none =>
      simp only [Option.isSome_none]
      show TouchesStation s (setDoubt st s) st _
      unfold setDoubt
      rw [addEvents_eq]
      refine ⟨?_, fun x => ?_, ?_⟩
      · exact ⟨_, _, _, rfl⟩
      · show recordOf (setRecord _ _ _) x = _
        rw [recordOf_setRecord_ite, recordOf_setRecord_ite, recordOf_setRecord_ite, if_pos rfl]
        split
        · rfl
        · rfl
      · unfold settlingMail; dsimp only; rw [List.filter_append]
        split <;> simp [settles, settling]
    | some v => cases v <;> exact same
  | some e =>
    cases hv : (itemOf s st).verdict with
    | none => exact creditFirst_touches s st recs e he
    | some v =>
      cases v
      · exact same
      · have := late e .missing he hv; simpa using this
      · have := late e .inDoubt he hv; simpa using this

/-- The answers to the power-down drains are judged each by itself, and the last one ends the wave. -/
theorem settleMail_drainAnswers (A : List Station) (recs : Station → List EdgeRecord) (ov : Station → Bool) (s :
    State) (hn : A.Nodup) (hA : A ≠ [])
    (hQ : settlingMail s = A.map (fun a => Instr.drainAnswer a (recs a) (ov a))) (hd : s.wvc.drains = A.map fun a =>
        ⟨a, .powerDown⟩)
    (he : s.wvc.ending = some .powerDown) (hv : s.wvc.view ≠ .halted) :
    ∃ X, settleMail A.length s = finishPowerDown X ∧ (∃ T D M,
        X = { s with wvc := { s.wvc with table := T, countsDirty := D, drains := [] }, mail := M })
      ∧ settlingMail X = [] ∧ ∀ x, recordOf X x = if x ∈ A then settledBy s x (recs x) else recordOf s x := by
  induction A generalizing s with
  | nil => exact absurd rfl hA
  | cons a A ih =>
    obtain ⟨ha, hn'⟩ := List.nodup_cons.1 hn
    have h1 := settleOne_eq s (.drainAnswer a (recs a) (ov a)) (A.map (fun a => Instr.drainAnswer a (recs a) (ov a)))
        (takeDrainAnswer a (recs a) (ov a)) hQ rfl
    have hu : settleMail (a :: A).length s = settleMail A.length (settleOne s) := by
      rw [List.length_cons, Nat.add_comm, settleMail_add]; rfl
    obtain ⟨w, hw⟩ : ∃ w : State, w =
        { (took (.drainAnswer a (recs a) (ov a)) s) with wvc := { s.wvc with drains := A.map fun a => ⟨a, .powerDown⟩ } } := ⟨_, rfl⟩
    have h2 : takeDrainAnswer a (recs a) (ov a) (took (.drainAnswer a (recs a) (ov a)) s) = checkEnding
        (settlePowerDown a (recs a) w) := by
      unfold takeDrainAnswer unlessHaltedWave
      have e1 : (took (.drainAnswer a (recs a) (ov a)) s).wvc = s.wvc := rfl
      rw [e1, if_neg hv]
      dsimp only
      rw [e1, hd]
      have e2 : ((a :: A).map fun a => (⟨a, .powerDown⟩ : Drain)).find? (fun d => decide (d.station = a)) = some ⟨a,
          .powerDown⟩ := by simp
      rw [e2]
      dsimp only
      rw [hw]
      have e3 : ((a :: A).map fun a => (⟨a, .powerDown⟩ : Drain)).erase ⟨a, .powerDown⟩ = A.map fun a => ⟨a,
          .powerDown⟩ := by simp
      rw [e3]; rfl
    have hQw : settlingMail w = A.map (fun a => Instr.drainAnswer a (recs a) (ov a)) := by
      rw [hw]; exact settlingMail_took s _ _ hQ
    have ht := settlePowerDown_touches w a (recs a)
    obtain ⟨T, D, M, hr⟩ := ht.rest
    have hsame : ∀ x, settledBy w x (recs x) = settledBy s x (recs x) := by intro x; rw [hw]; rfl
    have hrec : ∀ x, recordOf w x = recordOf s x := by intro x; rw [hw]; rfl
    generalize hv2 : settlePowerDown a (recs a) w = v at *
    have hve : v.wvc.ending = some .powerDown := by rw [hr, hw]; exact he
    have hvd : v.wvc.drains = A.map fun a => ⟨a, .powerDown⟩ := by rw [hr, hw]
    rw [hu, h1, h2]
    by_cases hA' : A = []
    · subst hA'
      refine ⟨v, ?_, ⟨T, D, M, ?_⟩, ?_, fun x => ?_⟩
      · simp only [List.length_nil, settleMail]
        unfold checkEnding; rw [hve]; simp [noDrain, hvd]
      · rw [hr, hw]; rfl
      · rw [ht.q, hQw]; rfl
      · rw [ht.table, hsame, hrec]
        by_cases hx : x = a
        · subst hx; simp
        · simp [hx]
    · have hc : checkEnding v = v := by
        unfold checkEnding; rw [hve]; simp only [noDrain, hvd]
        obtain ⟨b, B, rfl⟩ := List.exists_cons_of_ne_nil hA'
        simp
      rw [hc]
      have hvv : v.wvc.view ≠ .halted := by rw [hr, hw]; exact hv
      obtain ⟨X, x1, ⟨T', D', M', x2⟩, x3, x4⟩ := ih v hn' hA' (by rw [ht.q, hQw]) hvd hve hvv
      refine ⟨X, x1, ⟨T', D', M', ?_⟩, x3, fun x => ?_⟩
      · rw [x2, hr, hw]; rfl
      · rw [x4]
        by_cases hx : x = a
        · subst hx; rw [if_neg ha, ht.table, if_pos rfl, hsame]; simp
        · have hs1 : ∀ y, y ≠ a → settledBy v y (recs y) = settledBy s y (recs y) := by
            intro y hy
            unfold settledBy creditedRecord
            have e1 : recordOf v y = recordOf s y := by rw [ht.table, if_neg hy, hrec]
            have e2 : itemOf v y = itemOf s y := by rw [hr, hw]; rfl
            have e3 : v.wvc.driveStart = s.wvc.driveStart := by rw [hr, hw]
            rw [e1, e2, e3]
          rw [hs1 x hx, ht.table, if_neg hx, hrec]; simp [hx]

/-- A message that the end of a settled wave may lead to. -/
def isTailMessage : Instr → Bool
  | .countsChanged => true
  | .exitNotice .. => true
  | .slotWriteRequest (.batch ..) => true
  | .orderOutcome _ (.outcome .done d) => decide (d = 0)
  | .drainQueue _ => true
  | .drainAnswer .. => true
  | _ => false

/-- No phase is ending, and every drain open is one whose answer is discarded. -/
structure WaveQuiet (s : State) : Prop where
  ending : s.wvc.ending = none
  drains : ∀ d ∈ s.wvc.drains, d.purpose = .discard

/-- A deferred RETIRE carried out sets its own record and answers DONE. -/
theorem carryOutDeferred_spec (st : Station) (s : State) :
    let u := carryOutDeferred st s
    (∀ x, recordOf u x = if x = st then retiredRecord (recordOf s x) else recordOf s x)
    ∧ (∃ T D H C DR M, u = { s with wvc := { s.wvc with table := T, countsDirty := D, holds := H, climb := C, drains := DR }, mail := M })
    ∧ ((∀ d ∈ s.wvc.drains, d.purpose = .discard) → ∀ d ∈ u.wvc.drains, d.purpose = .discard)
    ∧ (∃ new, settlingMail u = settlingMail s ++ new ∧ new.length ≤ 2 ∧ (∀ c ∈ new, isTailMessage c = true)
        ∧ ∀ slot, (recordOf s st).retirePending = some slot → .orderOutcome slot (.outcome .done 0) ∈ new) := by
  intro u
  have hsh : ∀ (t : State), (∃ H C M, evaluateShort st t =
      { t with wvc := { t.wvc with holds := H, climb := C }, mail := M })
      ∧ settlingMail (evaluateShort st t) = settlingMail t := by
    intro t
    unfold evaluateShort addHold when setClimb
    dsimp only
    split
    · split
      · split
        · exact ⟨⟨_, _, _, rfl⟩, rfl⟩
        · refine ⟨⟨_, _, _, rfl⟩, ?_⟩
          unfold settlingMail requestAttn send; simp [settles, settling]
      · exact ⟨⟨_, _, _, rfl⟩, rfl⟩
    · exact ⟨⟨_, _, _, rfl⟩, rfl⟩
  show _ ∧ _
  have hu : u = carryOutDeferred st s := rfl
  unfold carryOutDeferred at hu
  cases hp : (recordOf s st).retirePending with
  | none =>
    rw [hp] at hu; dsimp only at hu
    refine ⟨fun x => ?_, ⟨_, _, _, _, _,
        _, by rw [hu]⟩, by rw [hu]; exact id, [], by rw [hu]; simp, by simp, by simp, by simp⟩
    rw [hu]; split
    · rename_i h; subst h; unfold retiredRecord; rw [hp]
    · rfl
  | some slot =>
    rw [hp] at hu; dsimp only at hu
    unfold carryOutRetire at hu
    dsimp only at hu
    rw [recordOf_setRecord_ite, if_pos rfl] at hu
    obtain ⟨t, htd⟩ : ∃ t, t = setRecord (setRecord s st { recordOf s st with retirePending := none }) st
        { recordOf s st with service := .retired, marks := 0, cleanRun := 0, retirePending := none } := ⟨_, rfl⟩
    have htr : ∀ x, recordOf t x = if x = st then retiredRecord (recordOf s x) else recordOf s x := by
      intro x; rw [htd, recordOf_setRecord_ite, recordOf_setRecord_ite]
      split
      · rename_i h; subst h; unfold retiredRecord; rw [hp]
      · rfl
    have htq : settlingMail t = settlingMail s := by rw [htd]; rfl
    have htw : ∃ T, t = { s with wvc := { s.wvc with table := T } } := by rw [htd]; exact ⟨_, rfl⟩
    by_cases ha : (recordOf s st).service = .active
    · have hu2 : u = send (.orderOutcome slot (.outcome .done 0)) (oweCounts (evaluateShort st (send (.offValve st)
          (sendDrainClose .discard st t)))) := by
        rw [hu, if_pos (by simpa using ha), htd]
      obtain ⟨⟨H, C, M, e1⟩, e2⟩ := hsh (send (.offValve st) (sendDrainClose .discard st t))
      obtain ⟨T, hT⟩ := htw
      refine ⟨fun x => ?_, ?_, ?_, [.drainQueue st, .orderOutcome slot (.outcome .done 0)],
          ?_, by simp, by simp [isTailMessage], ?_⟩
      · rw [← htr, hu2]
        show recordOf (evaluateShort st (send (.offValve st) (sendDrainClose .discard st t))) x = _
        rw [e1]; rfl
      · rw [hu2, e1, hT]; exact ⟨_, _, _, _, _, _, rfl⟩
      · intro h d hd
        rw [hu2, e1, hT] at hd
        simp [send, oweCounts, sendDrainClose, sendDrain] at hd
        rcases hd with hd | rfl
        · exact h d hd
        · rfl
      · rw [hu2]
        have : settlingMail (send (.orderOutcome slot (.outcome .done 0)) (oweCounts (evaluateShort st (send
            (.offValve st) (sendDrainClose .discard st t))))) = settlingMail (evaluateShort st (send (.offValve st)
            (sendDrainClose .discard st t))) ++ [.orderOutcome slot (.outcome .done 0)] := by
          unfold settlingMail send oweCounts; simp [settles, settling]
        rw [this, e2]
        have : settlingMail (send (.offValve st) (sendDrainClose .discard st t)) = settlingMail t ++ [.drainQueue st]
            := by
          unfold settlingMail send sendDrainClose sendDrain; simp [send]; rfl
        rw [this, htq]; simp
      · intro sl h; injection h with h; subst h; simp
    · have hu2 : u = send (.orderOutcome slot (.outcome .done 0)) (evaluateShort st t) := by
        rw [hu, if_neg (by simpa using ha), htd]
      obtain ⟨⟨H, C, M, e1⟩, e2⟩ := hsh t
      obtain ⟨T, hT⟩ := htw
      refine ⟨fun x => ?_, ?_, ?_, [.orderOutcome slot (.outcome .done 0)], ?_, by simp, by simp [isTailMessage], ?_⟩
      · rw [← htr, hu2]
        show recordOf (evaluateShort st t) x = _
        rw [e1]; rfl
      · rw [hu2, e1, hT]; exact ⟨_, _, _, _, _, _, rfl⟩
      · intro h d hd
        rw [hu2, e1, hT] at hd
        exact h d hd
      · rw [hu2]
        have : settlingMail (send (.orderOutcome slot (.outcome .done 0)) (evaluateShort st t)) = settlingMail
            (evaluateShort st t) ++ [.orderOutcome slot (.outcome .done 0)] := by
          unfold settlingMail send; simp [settles, settling]
        rw [this, e2, htq]
      · intro sl h; injection h with h; subst h; simp

/-- Deferred RETIREs carried out one after another. -/
theorem carryOutEach_spec (L : List Station) (hn : L.Nodup) (s : State) :
    let u := forEach L carryOutDeferred s
    (∀ x, recordOf u x = if x ∈ L then retiredRecord (recordOf s x) else recordOf s x)
    ∧ (∃ T D H C DR M, u = { s with wvc := { s.wvc with table := T, countsDirty := D, holds := H, climb := C, drains := DR }, mail := M })
    ∧ ((∀ d ∈ s.wvc.drains, d.purpose = .discard) → ∀ d ∈ u.wvc.drains, d.purpose = .discard)
    ∧ (∃ new, settlingMail u = settlingMail s ++ new ∧ new.length ≤ 2 * L.length ∧ (∀ c ∈ new, isTailMessage c = true)
        ∧ ∀ x ∈ L, ∀ slot, (recordOf s x).retirePending = some slot → .orderOutcome slot (.outcome .done 0) ∈ new) :=
            by
  induction L generalizing s with
  | nil => exact ⟨by simp [forEach], ⟨_, _, _, _, _, _, rfl⟩, id, [], by simp [forEach], by simp, by simp, by simp⟩
  | cons a L ih =>
    obtain ⟨ha, hn'⟩ := List.nodup_cons.1 hn
    obtain ⟨r1, r2, r3, n1, q1, l1, k1, o1⟩ := carryOutDeferred_spec a s
    have he : forEach (a :: L) carryOutDeferred s = forEach L carryOutDeferred (carryOutDeferred a s) := rfl
    rw [he]
    have ih' := ih hn' (carryOutDeferred a s)
    generalize carryOutDeferred a s = v at *
    generalize forEach L carryOutDeferred v = u at *
    obtain ⟨i1, i2, i3, n2, q2, l2, k2, o2⟩ := ih'
    refine ⟨fun x => ?_, ?_, fun h => i3 (r3 h), n1 ++ n2, ?_, ?_, ?_, ?_⟩
    · rw [i1, r1]
      by_cases hx : x = a
      · subst hx; simp [ha]
      · simp [hx]
    · obtain ⟨_, _, _, _, _, _, e1⟩ := r2
      obtain ⟨_, _, _, _, _, _, e2⟩ := i2
      rw [e2, e1]; exact ⟨_, _, _, _, _, _, rfl⟩
    · rw [q2, q1]; simp
    · simp only [List.length_append, List.length_cons]; omega
    · intro c hc; rcases List.mem_append.1 hc with h | h
      · exact k1 c h
      · exact k2 c h
    · intro x hx slot hs
      rcases List.mem_cons.1 hx with h1 | h1
      · subst h1; exact List.mem_append_left _ (o1 slot hs)
      · refine List.mem_append_right _ (o2 x h1 slot ?_)
        rw [r1, if_neg (by intro h; subst h; exact ha h1)]; exact hs

/-- Every station is among the sixty-four. -/
theorem mem_allStations (x : Station) : x ∈ allStations := List.mem_finRange x

/-- Counts that changed are told at most once. -/
theorem flushCounts_spec (s : State) : (∃ D M, flushCounts s =
    { s with wvc := { s.wvc with countsDirty := D }, mail := M })
    ∧ (settlingMail (flushCounts s) = settlingMail s ∨ settlingMail (flushCounts s) = settlingMail s ++
    [.countsChanged]) := by
  unfold flushCounts
  split
  · exact ⟨⟨_, _, rfl⟩, Or.inr (by unfold settlingMail send; simp [settles, settling])⟩
  · exact ⟨⟨_, _, rfl⟩, Or.inl rfl⟩

/-- The end of a settled wave: every deferred RETIRE carried out and answered, nothing else of the table changed. -/
theorem finishPowerDown_spec (X : State) (hd : ∀ d ∈ X.wvc.drains, d.purpose = .discard) :
    let u := finishPowerDown X
    (∀ x, recordOf u x = retiredRecord (recordOf X x))
    ∧ (∃ T D H C DR M, u = { X with wvc := { X.wvc with table := T, countsDirty := D, holds := H, climb := C, drains := DR, ending := none }, mail := M })
    ∧ WaveQuiet u
    ∧ (∃ new, settlingMail u = settlingMail X ++ new ∧ new.length ≤ 129 ∧ (∀ c ∈ new, isTailMessage c = true)
        ∧ ∀ x slot, (recordOf X x).retirePending = some slot → .orderOutcome slot (.outcome .done 0) ∈ new) := by
  intro u
  have hn : allStations.Nodup := List.nodup_finRange 64
  obtain ⟨r1, ⟨T, D, H, C, DR, M, r2⟩, r3, n1, q1, l1, k1,
      o1⟩ := carryOutEach_spec allStations hn { X with wvc := { X.wvc with ending := none } }
  have hu : u = send .powerDownActionsDone (setClimb .held (addHold holdResume (flushCounts (forEach allStations
      carryOutDeferred { X with wvc := { X.wvc with ending := none } })))) := rfl
  generalize forEach allStations carryOutDeferred { X with wvc := { X.wvc with ending := none } } = v at *
  obtain ⟨⟨D2, M2, f1⟩, f2⟩ := flushCounts_spec v
  have hlast : ∀ w : State, (∃ H C M, send .powerDownActionsDone (setClimb .held (addHold holdResume w)) =
      { w with wvc := { w.wvc with holds := H, climb := C }, mail := M })
      ∧ settlingMail (send .powerDownActionsDone (setClimb .held (addHold holdResume w))) = settlingMail w := by
    intro w
    unfold addHold setClimb
    dsimp only
    (repeat' split) <;> refine ⟨⟨_, _, _, rfl⟩, ?_⟩ <;> (unfold settlingMail; simp [send, requestAttn, settles,
        settling])
  obtain ⟨⟨H3, C3, M3, g1⟩, g2⟩ := hlast (flushCounts v)
  rw [← hu] at g1 g2
  have hvd : ∀ d ∈ v.wvc.drains, d.purpose = .discard := r3 hd
  refine ⟨fun x => ?_, ?_, ⟨?_, ?_⟩, ?_⟩
  · rw [g1, f1]
    show recordOf v x = _
    rw [r1, if_pos (mem_allStations x)]; rfl
  · rw [g1, f1, r2]; exact ⟨_, _, _, _, _, _, rfl⟩
  · rw [g1, f1, r2]
  · rw [g1, f1]; exact hvd
  · rcases f2 with f2 | f2
    · refine ⟨n1, by rw [g2, f2, q1]; rfl, ?_, k1, fun x slot h => o1 x (mem_allStations x) slot h⟩
      simp [allStations] at l1; omega
    · refine ⟨n1 ++ [.countsChanged], by rw [g2, f2, q1]; simp [settlingMail], ?_, ?_, fun x slot h => List.mem_append_left _ (o1 x (mem_allStations x) slot h)⟩
      · simp [allStations] at l1; simp; omega
      · intro c hc; rcases List.mem_append.1 hc with h | h
        · exact k1 c h
        · simp at h; subst h; rfl

/-- The order slot is ANSWERED with DONE and detail 0, image and words. -/
def answeredDone (slot : OrderSlot) (s : State) : Prop := s.exc.orderImages[slot] = .answered
    ∧ readWord s.window (orderBase slot) = 3
  ∧ readWord s.window (orderBase slot + 0x14) = 1 ∧ readWord s.window (orderBase slot + 0x18) = 0

/-- What every message that follows the end of a settled wave leaves as it is. -/
structure TailKeeps (s u : State) : Prop where
  table : u.wvc.table = s.wvc.table
  quiet : WaveQuiet s → WaveQuiet u
  excView : u.exc.view = s.exc.view
  psv : u.psv = s.psv
  tmb : u.tmb = s.tmb
  gate : u.fds.gate = s.fds.gate
  canon : windowCanonical s → windowCanonical u
  kept : windowCanonical s → s.exc.view ≠ .halted → ∀ slot, answeredDone slot s → answeredDone slot u

/-- An operation that changes no table, no slot and no window keeps it all. -/
theorem TailKeeps.of (s u : State) (h : u =
    { s with wvc := { s.wvc with drains := u.wvc.drains, countsDirty := u.wvc.countsDirty }, ltr := u.ltr, ssu := u.ssu, fds := u.fds, mail := u.mail })
    (hd : ∀ d ∈ u.wvc.drains, d ∈ s.wvc.drains) (hg : u.fds.gate = s.fds.gate) : TailKeeps s u := by
  refine ⟨by rw [h], fun q => ⟨by rw [h]; exact q.ending, fun d hdd => q.drains d (hd d hdd)⟩, by rw [h], by rw [h], by rw [h], hg, fun c => ?_, fun _ _ sl a => ?_⟩
  · unfold windowCanonical at *; rw [h]; exact c
  · unfold answeredDone at *; rw [h]; exact a

/-- DONE handed over answers its slot. -/
theorem takeOrderOutcome_answers (slot : OrderSlot) (s : State) (hc : windowCanonical s) (hv : s.exc.view ≠ .halted) :
    answeredDone slot (takeOrderOutcome slot (.outcome .done 0) s) := by
  have : takeOrderOutcome slot (.outcome .done 0) s = finishOrder slot .done 0 s := by
    unfold takeOrderOutcome unlessHaltedExchange; rw [if_neg hv]
  rw [this]
  unfold finishOrder writeOrderSlot
  dsimp only
  simp only [when, decide_true, if_true]
  have w1 : Memory.wf s.window := hc
  have w2 := wf_writeWord (orderBase slot + 0x14) (orderOutcomeCode (some .done)) w1
  have w3 := wf_writeWord (orderBase slot + 0x18) 0 w2
  refine ⟨?_, ?_, ?_, ?_⟩
  · show (put _ slot _)[slot] = _
    rw [put_same]
  · show readWord (writeWord (writeWord (writeWord s.window _ _) _ _) _ _) _ = _
    rw [readWord_writeWord w3]; rfl
  · show readWord (writeWord (writeWord (writeWord s.window _ _) _ _) _ _) _ = _
    rw [readWord_writeWord_other w3 _ (by omega), readWord_writeWord_other w2 _ (by omega), readWord_writeWord w1];
        rfl
  · show readWord (writeWord (writeWord (writeWord s.window _ _) _ _) _ _) _ = _
    rw [readWord_writeWord_other w3 _ (by omega), readWord_writeWord w2]

/-- DONE handed over for one slot leaves every other slot ANSWERED. -/
theorem takeOrderOutcome_keeps (slot : OrderSlot) (s : State) : TailKeeps s (takeOrderOutcome slot (.outcome .done 0)
    s) := by
  by_cases hv : s.exc.view = .halted
  · have : takeOrderOutcome slot (.outcome .done 0) s = s := by
      unfold takeOrderOutcome unlessHaltedExchange; rw [if_pos hv]
    rw [this]; exact ⟨rfl, id, rfl, rfl, rfl, rfl, id, fun _ _ _ => id⟩
  · have : takeOrderOutcome slot (.outcome .done 0) s = finishOrder slot .done 0 s := by
      unfold takeOrderOutcome unlessHaltedExchange; rw [if_neg hv]
    rw [this]
    have hx : ∃ E W, finishOrder slot .done 0 s = { s with exc := E, window := W } ∧ E.view = s.exc.view ∧
       W = writeWord (writeWord (writeWord s.window (orderBase slot + 0x14) (orderOutcomeCode (some .done)))
           (orderBase slot + 0x18) 0) (orderBase slot) (orderStateCode .answered)
       ∧ E.orderImages = put s.exc.orderImages slot .answered := by
      unfold finishOrder writeOrderSlot
      simp only [when, decide_true, if_true, setAttn, setOrderImage, onExc, onWindow, Exc.withAttn]
      exact ⟨_, _, rfl, rfl, rfl, rfl⟩
    obtain ⟨E, W, h1, h2, h3, h4⟩ := hx
    rw [h1]
    refine ⟨rfl, fun q => ⟨q.ending, q.drains⟩, h2, rfl, rfl, rfl, fun c => ?_, fun c _ sl a => ?_⟩
    · show Memory.wf W
      rw [h3]; exact wf_writeWord _ _ (wf_writeWord _ _ (wf_writeWord _ _ c))
    · by_cases hs : sl = slot
      · subst hs
        have := takeOrderOutcome_answers sl s c hv
        rw [‹takeOrderOutcome sl (.outcome .done 0) s = finishOrder sl .done 0 s›, h1] at this; exact this
      · obtain ⟨a1, a2, a3, a4⟩ := a
        have w1 : Memory.wf s.window := c
        have w2 := wf_writeWord (orderBase slot + 0x14) (orderOutcomeCode (some .done)) w1
        have w3 := wf_writeWord (orderBase slot + 0x18) 0 w2
        have hne : sl.1 ≠ slot.1 := fun e => hs (Fin.ext e)
        have rd : ∀ o, o + 4 ≤ orderBase slot ∨ orderBase slot + 32 ≤ o → readWord W o = readWord s.window o := by
          intro o ho
          rw [h3, readWord_writeWord_other w3 _ (by omega), readWord_writeWord_other w2 _ (by omega),
              readWord_writeWord_other w1 _ (by omega)]
        refine ⟨?_, ?_, ?_, ?_⟩
        · show E.orderImages[sl] = _
          rw [h4, put_other _ _ (Ne.symm hs)]; exact a1
        · exact (rd _ (by unfold orderBase; omega)).trans a2
        · exact (rd _ (by unfold orderBase; omega)).trans a3
        · exact (rd _ (by unfold orderBase; omega)).trans a4

/-- A batch report leaves the order slots as they are. -/
theorem takeSlotWrite_batch_keeps (slot : BatchSlot) (st : Option BatchState) (r : BatchReport) (s : State) :
    TailKeeps s (takeSlotWrite (.batch slot st r) s) := by
  by_cases hv : s.exc.view = .halted
  · have : takeSlotWrite (.batch slot st r) s = s := by
      unfold takeSlotWrite unlessHaltedExchange; rw [if_pos hv]
    rw [this]; exact ⟨rfl, id, rfl, rfl, rfl, rfl, id, fun _ _ _ => id⟩
  · have : takeSlotWrite (.batch slot st r) s = writeBatchSlot slot st r s := by
      unfold takeSlotWrite unlessHaltedExchange; rw [if_neg hv]
    rw [this]
    have hx : ∃ E W, writeBatchSlot slot st r s = { s with exc := E, window := W } ∧ E.view = s.exc.view
       ∧ (W = writeWords s.window (batchBase slot + 0x20) (reportWords r) ∨ ∃ w,
           W = writeWord (writeWords s.window (batchBase slot + 0x20) (reportWords r)) (batchBase slot) w)
       ∧ E.orderImages = s.exc.orderImages := by
      unfold writeBatchSlot
      cases st with
      | none => exact ⟨_, _, rfl, rfl, Or.inl rfl, rfl⟩
      | some x =>
        simp only [when, setAttn, setBatchImage, onExc, onWindow, Exc.withAttn]
        split
        · exact ⟨_, _, rfl, rfl, Or.inr ⟨batchStateCode x, rfl⟩, rfl⟩
        · exact ⟨_, _, rfl, rfl, Or.inr ⟨batchStateCode x, rfl⟩, rfl⟩
    obtain ⟨E, W, h1, h2, h3, h4⟩ := hx
    have byte : ∀ a, windowCanonical s → a < batchBase slot → readByte W a = readByte s.window a := by
      intro a hc ha
      have hw : ∀ m : Memory, readByte (writeWords m (batchBase slot + 0x20) (reportWords r)) a = readByte m a := by
        intro m
        exact readByte_writeWords_other m _ (Or.inl (by omega))
      rcases h3 with h3 | ⟨w, h3⟩
      · rw [h3, hw]
      · rw [h3, readByte_writeWord (wf_writeWords _ _ hc), if_neg (by omega), hw]
    rw [h1]
    refine ⟨rfl, fun q => ⟨q.ending, q.drains⟩, h2, rfl, rfl, rfl, fun c => ?_, fun c _ sl a => ?_⟩
    · show Memory.wf W
      rcases h3 with h3 | ⟨w, h3⟩
      · rw [h3]; exact wf_writeWords _ _ c
      · rw [h3]; exact wf_writeWord _ _ (wf_writeWords _ _ c)
    · obtain ⟨a1, a2, a3, a4⟩ := a
      have := sl.2
      have rd : ∀ o, o + 4 ≤ batchBase slot → readWord W o = readWord s.window o := by
        intro o ho
        simp only [readWord, readHalf]
        rw [byte _ c (by omega), byte _ c (by omega), byte _ c (by omega), byte _ c (by omega)]
      refine ⟨by show E.orderImages[sl] = _; rw [h4]; exact a1, ?_, ?_, ?_⟩
      · exact (rd _ (by unfold orderBase batchBase; omega)).trans a2
      · exact (rd _ (by unfold orderBase batchBase; omega)).trans a3
      · exact (rd _ (by unfold orderBase batchBase; omega)).trans a4

/-- The operation sends no message a reset waits for but those that may follow the end of a wave. -/
def AddsTail (s u : State) : Prop := ∃ new, u.mail = s.mail ++ new ∧ ∀ c ∈ new,
    settles c = true → isTailMessage c = true

theorem AddsTail.refl (s : State) : AddsTail s s := ⟨[], by simp, by simp⟩

theorem AddsTail.trans {s t u : State} (h : AddsTail s t) (k : AddsTail t u) : AddsTail s u := by
  obtain ⟨a, h1, h2⟩ := h; obtain ⟨b, k1, k2⟩ := k
  refine ⟨a ++ b, by rw [k1, h1]; simp, ?_⟩
  intro c hc; rcases List.mem_append.1 hc with h | h
  · exact h2 c h
  · exact k2 c h

theorem AddsTail.sendAll (s : State) (l : List Instr) (h : ∀ c ∈ l,
    settles c = true → isTailMessage c = true) : AddsTail s (sendAll l s) := ⟨l, rfl, h⟩

theorem AddsTail.send (s : State) (c : Instr) (h : settles c = true → isTailMessage c = true) : AddsTail s (send c s)
    := ⟨[c], rfl, by simpa using h⟩

theorem AddsTail.fold {α : Type} (l : List α) (f : State → α → State) (h : ∀ t a,
    AddsTail t (f t a)) (s : State) : AddsTail s (l.foldl f s) := by
  induction l generalizing s with
  | nil => exact AddsTail.refl s
  | cons a l ih => exact (h s a).trans (ih _)

/-- Counts told to the Layer Tracker lead to exits and events alone. -/
theorem takeCountsChanged_addsTail (s : State) : AddsTail s (takeCountsChanged s) := by
  have hconv : ∀ k t, AddsTail t (tryConversion k t) := by
    intro k t; unfold tryConversion
    split
    · exact AddsTail.refl t
    · dsimp only; unfold addSectorEvents
      dsimp only
      split
      · exact AddsTail.refl _
      · exact ⟨_, rfl, by simp [settles, settling]⟩
  have hex : ∀ k t, AddsTail t (exitTest k t) := by
    intro k t; unfold exitTest
    split
    · exact AddsTail.refl t
    · refine AddsTail.trans ?_ (hconv k _)
      unfold removeLeaving; dsimp only
      refine ⟨_, rfl, ?_⟩
      intro c hc _
      obtain ⟨l, _, hl⟩ := List.mem_flatMap.1 hc
      unfold exitNoticeOf at hl
      split at hl
      · simp at hl; subst hl; rfl
      · simp at hl
  unfold takeCountsChanged unlessHaltedLayer
  split
  · exact AddsTail.refl s
  · dsimp only
    have h1 : AddsTail s (forSectors (usedSectors (recomputeBottoms s)) exitTest (recomputeBottoms s)) :=
      AddsTail.trans (show AddsTail s (recomputeBottoms s) from AddsTail.refl s) (AddsTail.fold _ _ (fun t k => hex k
          t) _)
    split
    · exact h1.trans (AddsTail.send _ _ (by simp [settles, settling]))
    · exact h1

/-- An exit leads to a batch report alone, and moves no gate. -/
theorem takeExitNotice_addsTail (slot : BatchSlot) (i : PortionIndex) (w : Word) (s : State) : AddsTail s
    (takeExitNotice slot i w s)
   ∧ takeExitNotice slot i w s =
       { s with fds := (takeExitNotice slot i w s).fds, mail := (takeExitNotice slot i w s).mail }
   ∧ (takeExitNotice slot i w s).fds.gate = s.fds.gate := by
  unfold takeExitNotice unlessHaltedFeed
  split
  · exact ⟨AddsTail.refl s, rfl, rfl⟩
  · dsimp only
    split
    · split
      · unfold recordExit writeSlot setBatch
        split
        · exact ⟨⟨_, rfl, by simp [isTailMessage]⟩, rfl, rfl⟩
        · exact ⟨⟨_, rfl, by simp [isTailMessage]⟩, rfl, rfl⟩
      · exact ⟨AddsTail.refl s, rfl, rfl⟩
    · exact ⟨AddsTail.refl s, rfl, rfl⟩

/-- What such an operation adds to the messages a reset waits for. -/
theorem settlingMail_of_addsTail {s u : State} (h : AddsTail s u) : ∃ new, settlingMail u = settlingMail s ++ new
    ∧ ∀ c ∈ new, isTailMessage c = true := by
  obtain ⟨n, h1, h2⟩ := h
  refine ⟨n.filter settles, settlingMail_append s u n h1, ?_⟩
  intro c hc; obtain ⟨a, b⟩ := List.mem_filter.1 hc; exact h2 c a b

/-- One message that follows the end of a settled wave. -/
theorem settleOne_tail (s : State) (c : Instr) (q : List Instr) (hq : WaveQuiet s) (h : settlingMail s = c :: q) (hc
    : isTailMessage c = true) :
    TailKeeps s (settleOne s) ∧ (∃ new, settlingMail (settleOne s) = q ++ new ∧ ∀ c ∈ new, isTailMessage c = true)
    ∧ (∀ slot, c = .orderOutcome slot (.outcome .done 0) → windowCanonical s → s.exc.view ≠ .halted → answeredDone
        slot (settleOne s)) := by
  have htk : settlingMail (took c s) = q := settlingMail_took s c q h
  have kt : TailKeeps s (took c s) := ⟨rfl, fun x => ⟨x.ending, x.drains⟩, rfl, rfl, rfl, rfl, id, fun _ _ _ => id⟩
  have comp : ∀ u, TailKeeps (took c s) u → TailKeeps s u := fun u k =>
    ⟨k.table.trans kt.table, fun q => k.quiet (kt.quiet q), k.excView, k.psv, k.tmb, k.gate, fun c => k.canon c,
        fun c v sl a => k.kept c v sl a⟩
  have hqt : WaveQuiet (took c s) := ⟨hq.ending, hq.drains⟩
  match c, hc with
  | .countsChanged, _ =>
    rw [settleOne_eq s _ q takeCountsChanged h rfl]
    refine ⟨comp _ (TailKeeps.of _ _ ?_ ?_ ?_), ?_, by simp⟩
    · have := layerless_eq (s := took .countsChanged s) (t := takeCountsChanged (took .countsChanged s)) (by simp)
      rw [this]
    · have := layerless_eq (s := took .countsChanged s) (t := takeCountsChanged (took .countsChanged s)) (by simp)
      rw [this]; exact fun d => id
    · have := layerless_eq (s := took .countsChanged s) (t := takeCountsChanged (took .countsChanged s)) (by simp)
      rw [this]
    · obtain ⟨n, n1, n2⟩ := settlingMail_of_addsTail (takeCountsChanged_addsTail (took .countsChanged s))
      exact ⟨n, by rw [n1, htk], n2⟩
  | .exitNotice slot i w, _ =>
    rw [settleOne_eq s _ q (takeExitNotice slot i w) h rfl]
    obtain ⟨g1, g2, g3⟩ := takeExitNotice_addsTail slot i w (took (.exitNotice slot i w) s)
    refine ⟨comp _ (TailKeeps.of _ _ ?_ ?_ g3), ?_, by simp⟩
    · generalize takeExitNotice slot i w (took (.exitNotice slot i w) s) = u at *
      obtain ⟨F, M, rfl⟩ : ∃ F M, u = { (took (.exitNotice slot i w) s) with fds := F, mail := M } := ⟨_, _, g2⟩
      rfl
    · rw [g2]; exact fun d => id
    · obtain ⟨n, n1, n2⟩ := settlingMail_of_addsTail g1
      exact ⟨n, by rw [n1, htk], n2⟩
  | .slotWriteRequest (.batch slot st r), _ =>
    rw [settleOne_eq s _ q (takeSlotWrite (.batch slot st r)) h rfl]
    refine ⟨comp _ (takeSlotWrite_batch_keeps slot st r _), ⟨[], ?_, by simp⟩, by simp⟩
    rw [List.append_nil, ← htk]
    unfold settlingMail takeSlotWrite unlessHaltedExchange
    split
    · rfl
    · unfold writeBatchSlot; cases st with
      | none => rfl
      | some x => dsimp only; unfold when; split <;> rfl
  | .orderOutcome slot (.outcome .done d), hc =>
    have hd : d = 0 := by simpa [isTailMessage] using hc
    subst hd
    rw [settleOne_eq s _ q (takeOrderOutcome slot (.outcome .done 0)) h rfl]
    refine ⟨comp _ (takeOrderOutcome_keeps slot _), ⟨[], ?_, by simp⟩, ?_⟩
    · rw [List.append_nil, ← htk]
      unfold settlingMail takeOrderOutcome unlessHaltedExchange
      split
      · rfl
      · rfl
    · intro sl e hc hv
      injection e with e; subst e
      exact takeOrderOutcome_answers slot _ hc hv
  | .drainQueue st, _ =>
    rw [settleOne_eq s _ q (takeDrainQueue st) h rfl]
    refine ⟨comp _ (TailKeeps.of _ _ rfl (fun d => id) rfl), ?_, by simp⟩
    have : AddsTail (took (.drainQueue st) s) (takeDrainQueue st (took (.drainQueue st) s)) := ⟨_,
        rfl, by simp [isTailMessage]⟩
    obtain ⟨n, n1, n2⟩ := settlingMail_of_addsTail this
    exact ⟨n, by rw [n1, htk], n2⟩
  | .drainAnswer st rs o, _ =>
    rw [settleOne_eq s _ q (takeDrainAnswer st rs o) h rfl]
    obtain ⟨t, ht⟩ : ∃ t, t = took (.drainAnswer st rs o) s := ⟨_, rfl⟩
    rw [← ht] at htk comp hqt ⊢
    have hx : takeDrainAnswer st rs o t = t ∨ ∃ d ∈ t.wvc.drains,
        takeDrainAnswer st rs o t = flushCounts { t with wvc := { t.wvc with drains := t.wvc.drains.erase d } } := by
      unfold takeDrainAnswer unlessHaltedWave
      split
      · exact Or.inl rfl
      · dsimp only
        cases hf : t.wvc.drains.find? fun d => decide (d.station = st) with
        | none => exact Or.inl rfl
        | some d =>
          right
          have hm := List.mem_of_find?_eq_some hf
          have hp := hqt.drains d hm
          refine ⟨d, hm, ?_⟩
          dsimp only
          rw [hp]
          show checkEnding { t with wvc := { t.wvc with drains := t.wvc.drains.erase d } } = _
          unfold checkEnding; dsimp only; rw [hqt.ending]
    rcases hx with hx | ⟨d, hd, hx⟩
    · rw [hx]
      exact ⟨comp _ ⟨rfl, id, rfl, rfl, rfl, rfl, id, fun _ _ _ => id⟩, ⟨[], by rw [htk]; simp, by simp⟩, by simp⟩
    · rw [hx]
      obtain ⟨⟨D, M, f1⟩, f2⟩ := flushCounts_spec { t with wvc := { t.wvc with drains := t.wvc.drains.erase d } }
      refine ⟨comp _ (TailKeeps.of _ _ ?_ ?_ ?_), ?_, by simp⟩
      · rw [f1]
      · rw [f1]; intro x hx; exact List.mem_of_mem_erase hx
      · rw [f1]
      · rcases f2 with f2 | f2
        · exact ⟨[], by rw [f2, List.append_nil]; exact htk, by simp⟩
        · exact ⟨[.countsChanged], by rw [f2]; congr 1, by simp [isTailMessage]⟩

/-- All of them: the table stays, and every DONE among the first messages answers its slot. -/
theorem settleMail_tail (n : Nat) (s : State) (hq : WaveQuiet s) (hok : ∀ c ∈ settlingMail s,
    isTailMessage c = true) :
    TailKeeps s (settleMail n s)
    ∧ (∀ p r, settlingMail s = p ++ r → p.length ≤ n → windowCanonical s → s.exc.view ≠ .halted → ∀ slot,
        .orderOutcome slot (.outcome .done 0) ∈ p → answeredDone slot (settleMail n s)) := by
  induction n generalizing s with
  | zero =>
    refine ⟨⟨rfl, id, rfl, rfl, rfl, rfl, id, fun _ _ _ => id⟩, ?_⟩
    intro p r _ hl _ _ slot hs
    have : p = [] := List.length_eq_zero_iff.1 (by omega)
    subst this; simp at hs
  | succ n ih =>
    cases hQ : settlingMail s with
    | nil =>
      rw [settleMail_none _ _ hQ]
      refine ⟨⟨rfl, id, rfl, rfl, rfl, rfl, id, fun _ _ _ => id⟩, ?_⟩
      intro p r hp _ _ _ slot hs
      have : p = [] := by
        cases p with
        | nil => rfl
        | cons a p => simp at hp
      subst this; simp at hs
    | cons c q =>
      rw [hQ] at hok
      obtain ⟨k, ⟨new, hn, hno⟩, ho⟩ := settleOne_tail s c q hq hQ (hok c (List.mem_cons_self ..))
      have e : settleMail (n + 1) s = settleMail n (settleOne s) := by rw [Nat.add_comm, settleMail_add]; rfl
      rw [e]
      obtain ⟨k2, o2⟩ := ih (settleOne s) (k.quiet hq) (by
        rw [hn]; intro x hx; rcases List.mem_append.1 hx with h | h
        · exact hok x (List.mem_cons_of_mem _ h)
        · exact hno x h)
      refine ⟨⟨k2.table.trans k.table, fun q => k2.quiet (k.quiet q), k2.excView.trans k.excView, k2.psv.trans k.psv,
          k2.tmb.trans k.tmb, k2.gate.trans k.gate, fun c => k2.canon (k.canon c),
          fun c v sl a => k2.kept (k.canon c) (by rw [k.excView]; exact v) sl (k.kept c v sl a)⟩, ?_⟩
      intro p r hp hl hc hv slot hs
      cases p with
      | nil => simp at hs
      | cons d p =>
        rw [List.cons_append] at hp
        injection hp with e1 e2
        subst e1
        by_cases hd : c = .orderOutcome slot (.outcome .done 0)
        · exact k2.kept (k.canon hc) (by rw [k.excView]; exact hv) slot (ho slot hd hc hv)
        · have hs2 : .orderOutcome slot (.outcome .done 0) ∈ p := by
            rcases List.mem_cons.1 hs with h | h
            · exact absurd h.symm hd
            · exact h
          refine o2 p (r ++ new) (by rw [hn, e2]; simp) (by simp at hl; omega) (k.canon hc)
              (by rw [k.excView]; exact hv) slot hs2

/-- DRAIN_QUEUE and CLOSE_WINDOW sent to several stations. -/
theorem forEach_sendDrainClose (W : List Station) (p : DrainPurpose) (s : State) : forEach W (sendDrainClose p) s =
   { s with wvc := { s.wvc with drains := s.wvc.drains ++ W.map fun x => ⟨x, p⟩ }, mail := s.mail ++ W.flatMap fun x => [.drainQueue x, .closeWindow x] } := by
  induction W generalizing s with
  | nil => simp [forEach]
  | cons a W ih =>
    show forEach W (sendDrainClose p) (sendDrainClose p a s) = _
    rw [ih]; simp [sendDrainClose, sendDrain, send]

/-- The record a settlement leaves, by what its judgement gives. -/
theorem settledRecord_eq (s : State) (x : Station) (hw : inWave s = true) :
    settledRecord s x = if x ∈ participants s then settledBy s x (ssuOf s x).queue else recordOf s x := by
  have hw' : s.wvc.climb = .drive ∨ s.wvc.climb = .settle := by simpa [inWave] using hw
  have hm : x ∈ participants s ↔ (itemOf s x).participant = true := by
    simp [participants, mem_allStations, isParticipant, hw]
  unfold settledRecord
  dsimp only
  by_cases h : (itemOf s x).participant = true
  · rw [if_pos ⟨hw', h⟩, if_pos (hm.2 h)]; rfl
  · rw [if_neg (fun a => h a.2), if_neg (fun a => h (hm.1 a))]

/-- A wave in flight, nothing else being on its way,
    is settled from the edge queues: every record as `settledRecord` and
`retiredRecord` give it, every deferred RETIRE answered DONE. -/
theorem settleWave_spec (s : State) (hQ : settlingMail s = []) (hw : inWave s = true) (hv : s.wvc.view ≠ .halted) (hd
    : s.wvc.drains = []) (hr : s.wvc.recoveryWindows = []) :
    let u := settleWave s
    (∀ x, recordOf u x = retiredRecord (settledRecord s x)) ∧ u.fds.gate = s.fds.gate ∧ u.tmb = s.tmb ∧ u.psv = s.psv
    ∧ u.exc.view = s.exc.view
    ∧ (windowCanonical s → s.exc.view ≠ .halted → ∀ x slot,
        (recordOf s x).retirePending = some slot → answeredDone slot u) := by
  obtain ⟨t, ht⟩ : ∃ t : State, t =
      { s with wvc := { s.wvc with view := .powerDown, driveTimer := none, settleTimer := none, fallTimer := none, recoveryWindows := [], ending := some .powerDown } } := ⟨_, rfl⟩
  have hp : participants t = participants s := by
    unfold participants; apply List.filter_congr; intro x _; rw [ht]; rfl
  have hf := forEach_sendDrainClose (participants s) .powerDown t
  have htd : t.wvc.drains = [] := by rw [ht]; exact hd
  rw [htd, List.nil_append] at hf
  have h1 : takeWavePowerDown s = if noDrain .powerDown (forEach (participants s) (sendDrainClose .powerDown) t) then
      finishPowerDown (forEach (participants s) (sendDrainClose .powerDown) t) else forEach (participants s)
      (sendDrainClose .powerDown) t := by
    unfold takeWavePowerDown unlessHaltedWave
    rw [if_neg hv]
    have : closeRecoveryWindows
        { s with wvc := { s.wvc with view := .powerDown, driveTimer := none, settleTimer := none, fallTimer := none } } = { s with wvc := { s.wvc with view := .powerDown, driveTimer := none, settleTimer := none, fallTimer := none, recoveryWindows := [] } } := by
      unfold closeRecoveryWindows; dsimp only; rw [hr]; rfl
    dsimp only
    rw [this]
    have hw2 : inWave { s with wvc := { s.wvc with view := .powerDown, driveTimer := none, settleTimer := none, fallTimer := none, recoveryWindows := [] } } = true := hw
    rw [if_pos hw2]
    have hp2 : participants { s with wvc := { s.wvc with view := .powerDown, driveTimer := none, settleTimer := none, fallTimer := none, recoveryWindows := [] } } = participants s := rfl
    rw [hp2]
    rw [ht]
  have hsw : settleWave s = settleMail 4096 (takeWavePowerDown s) := by unfold settleWave; rw [if_pos hw]; rfl
  have hnd : (participants s).Nodup := (List.nodup_finRange 64).filter _
  have hlen : (participants s).length ≤ 64 := by
    have := List.length_filter_le (isParticipant s) allStations
    have h64 : allStations.length = 64 := by simp [allStations]
    show (allStations.filter (isParticipant s)).length ≤ 64
    omega
  have tail : ∀ (X : State) (n : Nat), 129 ≤ n → settlingMail X = [] → (∀ d ∈ X.wvc.drains, d.purpose = .discard) →
      (∃ T D DR M S, X = { s with wvc := { s.wvc with view := .powerDown, driveTimer := none, settleTimer := none, fallTimer := none, recoveryWindows := [], ending := some .powerDown, table := T, countsDirty := D, drains := DR }, mail := M, ssu := S }) →
      (∀ x, recordOf X x = settledRecord s x) →
      let u := settleMail n (finishPowerDown X)
      (∀ x, recordOf u x = retiredRecord (settledRecord s x)) ∧ u.fds.gate = s.fds.gate ∧ u.tmb = s.tmb
          ∧ u.psv = s.psv
      ∧ u.exc.view = s.exc.view
      ∧ (windowCanonical s → s.exc.view ≠ .halted → ∀ x slot,
          (recordOf s x).retirePending = some slot → answeredDone slot u) := by
    intro X n hn hQX hdX hX hrec
    obtain ⟨T, D, DR, M, S, hX⟩ := hX
    obtain ⟨f1, ⟨T2, D2, H2, C2, DR2, M2, f2⟩, f3, new, f4, f5, f6, f7⟩ := finishPowerDown_spec X hdX
    rw [hQX, List.nil_append] at f4
    obtain ⟨k, o⟩ := settleMail_tail n (finishPowerDown X) f3 (by rw [f4]; exact f6)
    dsimp only
    have e1 : (finishPowerDown X).fds = s.fds := by rw [f2, hX]
    have e2 : (finishPowerDown X).tmb = s.tmb := by rw [f2, hX]
    have e3 : (finishPowerDown X).psv = s.psv := by rw [f2, hX]
    have e4 : (finishPowerDown X).exc = s.exc := by rw [f2, hX]
    have e5 : (finishPowerDown X).window = s.window := by rw [f2, hX]
    refine ⟨fun x => ?_, by rw [k.gate, e1], by rw [k.tmb, e2], by rw [k.psv, e3], by rw [k.excView, e4], fun hc hvx x slot hs => ?_⟩
    · unfold recordOf; rw [k.table]
      show recordOf (finishPowerDown X) x = _
      rw [f1, hrec]
    · refine o new [] (by rw [f4]; simp) (by omega) (by unfold windowCanonical; rw [e5]; exact hc)
          (by rw [e4]; exact hvx) slot (f7 x slot ?_)
      rw [hrec]
      rw [settledRecord_eq s x hw]
      split
      · unfold settledBy creditedRecord; dsimp only
        split <;> exact hs
      · exact hs
  by_cases hn : participants s = []
  · have hz : forEach (participants s) (sendDrainClose .powerDown) t = t := by rw [hn]; rfl
    rw [hz, if_pos (by simp [noDrain, htd])] at h1
    dsimp only
    rw [hsw, h1]
    refine tail t 4096 (by omega) (by rw [ht]; exact hQ) (by rw [htd]; simp) ⟨s.wvc.table, s.wvc.countsDirty,
        s.wvc.drains, s.mail, s.ssu, by rw [ht]⟩ ?_
    intro x; rw [settledRecord_eq s x hw, hn]; simp; rw [ht]; rfl
  · obtain ⟨v, hvd⟩ : ∃ v, v = forEach (participants s) (sendDrainClose .powerDown) t := ⟨_, rfl⟩
    rw [← hvd] at h1 hf
    have hnv : noDrain .powerDown v = false := by
      rw [hf]; obtain ⟨a, as, e⟩ := List.exists_cons_of_ne_nil hn
      simp [noDrain, e]
    rw [if_neg (by simp [hnv])] at h1
    have hQv : settlingMail v = (participants s).map Instr.drainQueue ++ [] := by
      rw [hf]
      unfold settlingMail; dsimp only; rw [List.filter_append]
      have : t.mail.filter settles = [] := by rw [ht]; exact hQ
      rw [this, List.nil_append, List.append_nil]
      induction participants s with
      | nil => rfl
      | cons a as ih => rw [List.flatMap_cons, List.filter_append, ih]; rfl
    obtain ⟨a1, a2⟩ := settleMail_drainQueues (participants s) [] v hnd hQv
    rw [List.nil_append] at a1
    generalize hw1 : settleMail (participants s).length v = w at *
    have hwvc : w.wvc = v.wvc := by rw [a2]
    have hssu : ∀ x, ssuOf v x = ssuOf s x := by intro x; rw [hf, ht]; rfl
    simp only [hssu] at a1
    obtain ⟨X, x1, ⟨T, D, M, x2⟩, x3, x4⟩ := settleMail_drainAnswers (participants s) (fun a => (ssuOf s a).queue)
        (fun a => (ssuOf s a).overflow) w hnd hn a1
      (by rw [hwvc, hf]) (by rw [hwvc, hf, ht]) (by rw [hwvc, hf, ht]; simp)
    have hfin : settleWave s = settleMail (4096 - (participants s).length - (participants s).length) (finishPowerDown
        X) := by
      rw [hsw, h1]
      have : 4096 = (participants s).length + ((participants s).length + (4096 - (participants s).length -
          (participants s).length)) := by omega
      conv_lhs => rw [this]
      rw [settleMail_add, hw1, settleMail_add, x1]
    dsimp only
    rw [hfin]
    refine tail X _ (by omega) x3 (by rw [x2]; simp) ?_ ?_
    · rw [x2, a2, hf, ht]; exact ⟨_, _, _, _, _, rfl⟩
    · intro x; rw [x4, settledRecord_eq s x hw]
      have e1 : ∀ y, recordOf w y = recordOf s y := by intro y; unfold recordOf; rw [hwvc, hf, ht]
      have e2 : ∀ y, settledBy w y (ssuOf s y).queue = settledBy s y (ssuOf s y).queue := by
        intro y; unfold settledBy creditedRecord itemOf; rw [e1, hwvc, hf, ht]
      rw [e1, e2]

/-- What the assertion of a reset does to the table, in a wave and without one. -/
theorem assertReset_settles (s : State) (cause : ResetCause) (hS : settlingWaits s = false)
    (hk : inWave s = true → s.wvc.view ≠ .halted ∧ s.wvc.drains = [] ∧ s.wvc.recoveryWindows = []) :
    let u := assertReset cause s
    (∀ x, recordOf u x = if inWave s = true then retiredRecord (settledRecord s x) else recordOf s x)
    ∧ u.wvc.climb = .held ∧ u.wvc.dwell = 180000000 ∧ u.wvc.permission = false ∧ (∀ x, itemOf u x = WaveItem.clear)
    ∧ (inWave s = true → windowCanonical s → s.exc.view ≠ .halted → ∀ x slot,
        (recordOf s x).retirePending = some slot → answeredDone slot u) := by
  have hQ : settlingMail s = [] := by
    unfold settlingWaits at hS
    unfold settlingMail; rw [List.filter_eq_nil_iff]; intro c hc h
    rw [List.any_eq_false] at hS; exact hS c hc h
  obtain ⟨t, ht⟩ : ∃ t, t = onFds (fun f => { f with view := if f.view = .halted then .halted else .powerDown }) s :=
      ⟨_, rfl⟩
  have hsa : settleAtAssertion s = if gatesRun s then cutAtReset (settleWave t) else settleWave t := by
    unfold settleAtAssertion
    dsimp only
    rw [← ht, settleMail_none _ t (by rw [ht]; exact hQ)]
  have hcut : ∀ v, cutAtReset v = { v with fds := (cutAtReset v).fds } := by
    intro v; unfold cutAtReset; split <;> rfl
  have hsv : ∃ F, settleAtAssertion s = { settleWave t with fds := F } := by
    rw [hsa]; split
    · exact ⟨_, hcut _⟩
    · exact ⟨_, rfl⟩
  obtain ⟨F, hF⟩ := hsv
  have hwt : (assertReset cause s).wvc = (settleWave t).wvc.volatile := by
    unfold assertReset holdReset; rw [hF]; rfl
  have hwin : (assertReset cause s).window = (settleWave t).window := by
    unfold assertReset holdReset; rw [hF]; rfl
  have him : (assertReset cause s).exc.orderImages = (settleWave t).exc.orderImages := by
    unfold assertReset holdReset; rw [hF]; rfl
  have hrec : ∀ x, recordOf (assertReset cause s) x = recordOf (settleWave t) x := by
    intro x; unfold recordOf; rw [hwt]; rfl
  have hit : ∀ x, itemOf (assertReset cause s) x = WaveItem.clear := by
    intro x; unfold itemOf; rw [hwt]; simp [Wvc.volatile, Wvc.cold]
  refine ⟨fun x => ?_, by rw [hwt]; rfl, by rw [hwt]; rfl, by rw [hwt]; rfl, hit, fun hw hc hx x slot hs => ?_⟩
  · rw [hrec]
    split
    · rename_i hw
      obtain ⟨h1, h2, h3⟩ := hk hw
      have := (settleWave_spec t (by rw [ht]; exact hQ) (by rw [ht]; exact hw) (by rw [ht]; exact h1)
          (by rw [ht]; exact h2) (by rw [ht]; exact h3)).1 x
      rw [this, ht]; rfl
    · rename_i hw
      have : settleWave t = t := by unfold settleWave; rw [if_neg (by rw [ht]; exact hw)]
      rw [this, ht]; rfl
  · obtain ⟨h1, h2, h3⟩ := hk hw
    have := (settleWave_spec t (by rw [ht]; exact hQ) (by rw [ht]; exact hw) (by rw [ht]; exact h1)
        (by rw [ht]; exact h2) (by rw [ht]; exact h3)).2.2.2.2.2 (by rw [ht]; exact hc) (by rw [ht]; exact hx) x slot
        (by rw [ht]; exact hs)
    unfold answeredDone; rw [hwin, him]; exact this

end Sys2Proof.Machine
end

