-- ==== Sys2Proof/Laws/StrokeFrame.lean ====
section
/-! SUPPORT. Every operation of the Stroke Sensing Unit changes its own state and the messages alone. -/

namespace Sys2Proof.Machine

open Sys2Proof

/-- Everything but what the Stroke Sensing Unit keeps and the messages. -/
def strokeless (s : State) :=
  (s.pending, s.power, s.strap, s.storeFails, s.resetReads, s.tmb, s.vdu, s.wvc, s.lbp, s.ltr, s.fds, s.exc, s.psv, s.window)

@[simp] theorem strokeless_with_ssu (s : State) (x : Ssu) : strokeless { s with ssu := x } = strokeless s := rfl

@[simp] theorem strokeless_with_mail (s : State) (x : List Instr) : strokeless { s with mail := x } = strokeless s := rfl

@[simp] theorem strokeless_with (s : State) (xssu : Ssu) (xmail : List Instr) :
    strokeless { s with ssu := xssu, mail := xmail } = strokeless s := rfl

@[simp] theorem strokeless_ite (c : Prop) [Decidable c] (s t : State) :
    strokeless (if c then s else t) = if c then strokeless s else strokeless t := apply_ite _ _ _ _

@[simp] theorem strokeless_send (c : Instr) (s : State) : strokeless (send c s) = strokeless s := rfl

@[simp] theorem strokeless_sendAll (cs : List Instr) (s : State) : strokeless (sendAll cs s) = strokeless s := rfl

@[simp] theorem strokeless_requestAttn (a : AttnSource) (s : State) : strokeless (requestAttn a s) = strokeless s := rfl

@[simp] theorem strokeless_took (c : Instr) (s : State) : strokeless (took c s) = strokeless s := rfl

@[simp] theorem strokeless_when (b : Bool) (f : State → State) (s : State) (h : strokeless (f s) = strokeless s) :
    strokeless (when b f s) = strokeless s := by
  cases b
  · rfl
  · exact h

@[simp] theorem strokeless_when_send (b : Bool) (c : Instr) (s : State) : strokeless (when b (send c) s) = strokeless s := by
  cases b <;> rfl

theorem strokeless_fold {α : Type} (f : State → α → State) (h : ∀ t a, strokeless (f t a) = strokeless t) (l : List α) (s : State) :
    strokeless (l.foldl f s) = strokeless s := by
  induction l generalizing s with
  | nil => rfl
  | cons a l ih => rw [List.foldl_cons, ih, h]

@[simp] theorem strokeless_forEach (sts : List Station) (f : Station → State → State) (s : State)
    (h : ∀ st t, strokeless (f st t) = strokeless t) : strokeless (forEach sts f s) = strokeless s :=
  strokeless_fold _ (fun t a => h a t) sts s

/-- Only the unit's own state and the messages have changed. -/
theorem strokeless_eq {s t : State} (h : strokeless t = strokeless s) : t = { s with ssu := t.ssu, mail := t.mail } := by
  simp only [strokeless, Prod.mk.injEq] at h
  obtain ⟨h0, h1, h2, h3, h4, h5, h6, h7, h8, h9, h10, h11, h12⟩ := h
  cases s; cases t; simp_all

@[simp] theorem strokeless_setSsu (st : Station) (u : SsuStation) (s : State) : strokeless (setSsu s st u) = strokeless s := rfl

@[simp] theorem strokeless_mapSsu (f : SsuStation → SsuStation) (s : State) : strokeless (mapSsu f s) = strokeless s := by
  unfold mapSsu
  simp

@[simp] theorem strokeless_strayEdge (st : Station) (s : State) : strokeless (strayEdge st s) = strokeless s := by
  unfold strayEdge
  simp

@[simp] theorem strokeless_queueEdge (st : Station) (e : EdgeRecord) (w : Window) (s : State) : strokeless (queueEdge st e w s) = strokeless s := by
  unfold queueEdge
  simp

@[simp] theorem strokeless_disposeEdge (st : Station) (e : EdgeRecord) (s : State) : strokeless (disposeEdge st e s) = strokeless s := by
  unfold disposeEdge
  try dsimp only
  (repeat' split) <;> simp

@[simp] theorem strokeless_readStation (row : Fin 8) (columns : Byte) (column : Fin 8) (s : State) : strokeless (readStation row columns column s) = strokeless s := by
  unfold readStation
  try dsimp only
  (repeat' split) <;> simp

@[simp] theorem strokeless_readColumns (row : Fin 8) (columns : Byte) (s : State) : strokeless (readColumns row columns s) = strokeless s := strokeless_fold _ (fun t c => strokeless_readStation row columns c t) _ s

@[simp] theorem strokeless_stopScan (s : State) : strokeless (stopScan s) = strokeless s := by
  unfold stopScan
  simp

@[simp] theorem strokeless_nextRow (row : Fin 8) (idleNext : Bool) (s : State) : strokeless (nextRow row idleNext s) = strokeless s := by
  unfold nextRow
  try dsimp only
  (repeat' split) <;> simp

@[simp] theorem strokeless_readRow (row : Fin 8) (columns : Byte) (idleNext : Bool) (s : State) : strokeless (readRow row columns idleNext s) = strokeless s := by
  unfold readRow
  simp

@[simp] theorem strokeless_takeOpenWindow (st : Station) (kinds : WindowKinds) (notices : Bool) (s : State) : strokeless (takeOpenWindow st kinds notices s) = strokeless s := by
  unfold takeOpenWindow
  simp

@[simp] theorem strokeless_takeCloseWindow (st : Station) (s : State) : strokeless (takeCloseWindow st s) = strokeless s := by
  unfold takeCloseWindow
  simp

@[simp] theorem strokeless_takeDrainQueue (st : Station) (s : State) : strokeless (takeDrainQueue st s) = strokeless s := by
  unfold takeDrainQueue
  simp

@[simp] theorem strokeless_takeStrayReset (st : Station) (s : State) : strokeless (takeStrayReset st s) = strokeless s := by
  unfold takeStrayReset
  simp

@[simp] theorem strokeless_clearStrays (s : State) : strokeless (clearStrays s) = strokeless s := by
  unfold clearStrays
  simp

@[simp] theorem strokeless_strokeLineHold (s : State) : strokeless (strokeLineHold s) = strokeless s := by
  unfold strokeLineHold
  split <;> simp

@[simp] theorem strokeless_resetSsu (s : State) : strokeless (resetSsu s) = strokeless s := rfl

@[simp] theorem strokeless_ssuEnters (p : PartState) (s : State) : strokeless (ssuEnters p s) = strokeless s := by
  unfold ssuEnters
  try dsimp only
  (repeat' split) <;> simp

@[simp] theorem strokeless_endScan (s : State) : strokeless (endScan s) = strokeless s := by
  unfold endScan
  simp

end Sys2Proof.Machine
end

