-- ==== Sys2Proof/Laws/ValveFrame.lean ====
section
/-! SUPPORT. Every operation of the Valve Drive Unit changes its own state and the messages alone. -/

namespace Sys2Proof.Machine

open Sys2Proof

/-- Everything but what the Valve Drive Unit keeps and the messages. -/
def valveless (s : State) :=
  (s.pending, s.power, s.strap, s.storeFails, s.resetReads, s.tmb, s.ssu, s.wvc, s.lbp, s.ltr, s.fds, s.exc, s.psv, s.window)

@[simp] theorem valveless_with_vdu (s : State) (x : Vdu) : valveless { s with vdu := x } = valveless s := rfl

@[simp] theorem valveless_with_mail (s : State) (x : List Instr) : valveless { s with mail := x } = valveless s := rfl

@[simp] theorem valveless_with (s : State) (xvdu : Vdu) (xmail : List Instr) :
    valveless { s with vdu := xvdu, mail := xmail } = valveless s := rfl

@[simp] theorem valveless_ite (c : Prop) [Decidable c] (s t : State) :
    valveless (if c then s else t) = if c then valveless s else valveless t := apply_ite _ _ _ _

@[simp] theorem valveless_send (c : Instr) (s : State) : valveless (send c s) = valveless s := rfl

@[simp] theorem valveless_sendAll (cs : List Instr) (s : State) : valveless (sendAll cs s) = valveless s := rfl

@[simp] theorem valveless_requestAttn (a : AttnSource) (s : State) : valveless (requestAttn a s) = valveless s := rfl

@[simp] theorem valveless_took (c : Instr) (s : State) : valveless (took c s) = valveless s := rfl

@[simp] theorem valveless_when (b : Bool) (f : State → State) (s : State) (h : valveless (f s) = valveless s) :
    valveless (when b f s) = valveless s := by
  cases b
  · rfl
  · exact h

@[simp] theorem valveless_when_send (b : Bool) (c : Instr) (s : State) : valveless (when b (send c) s) = valveless s := by
  cases b <;> rfl

theorem valveless_fold {α : Type} (f : State → α → State) (h : ∀ t a, valveless (f t a) = valveless t) (l : List α) (s : State) :
    valveless (l.foldl f s) = valveless s := by
  induction l generalizing s with
  | nil => rfl
  | cons a l ih => rw [List.foldl_cons, ih, h]

@[simp] theorem valveless_forEach (sts : List Station) (f : Station → State → State) (s : State)
    (h : ∀ st t, valveless (f st t) = valveless t) : valveless (forEach sts f s) = valveless s :=
  valveless_fold _ (fun t a => h a t) sts s

/-- Only the unit's own state and the messages have changed. -/
theorem valveless_eq {s t : State} (h : valveless t = valveless s) : t = { s with vdu := t.vdu, mail := t.mail } := by
  simp only [valveless, Prod.mk.injEq] at h
  obtain ⟨h0, h1, h2, h3, h4, h5, h6, h7, h8, h9, h10, h11, h12⟩ := h
  cases s; cases t; simp_all

@[simp] theorem valveless_setChannel (st : Station) (c : Channel) (s : State) : valveless (setChannel s st c) = valveless s := rfl

@[simp] theorem valveless_mapChannels (f : Channel → Channel) (s : State) : valveless (mapChannels f s) = valveless s := by
  unfold mapChannels
  simp

@[simp] theorem valveless_takeOpen (st : Station) (s : State) : valveless (takeOpen st s) = valveless s := by
  unfold takeOpen
  simp

@[simp] theorem valveless_takeClose (st : Station) (s : State) : valveless (takeClose st s) = valveless s := by
  unfold takeClose
  simp

@[simp] theorem valveless_takeRest (st : Station) (s : State) : valveless (takeRest st s) = valveless s := by
  unfold takeRest
  simp

@[simp] theorem valveless_takeOff (st : Station) (s : State) : valveless (takeOff st s) = valveless s := by
  unfold takeOff
  simp

@[simp] theorem valveless_takeFaultReset (st : Station) (s : State) : valveless (takeFaultReset st s) = valveless s := by
  unfold takeFaultReset
  simp

@[simp] theorem valveless_takeWake (s : State) : valveless (takeWake s) = valveless s := by
  unfold takeWake
  simp

@[simp] theorem valveless_endRamp (st : Station) (s : State) : valveless (endRamp st s) = valveless s := by
  unfold endRamp
  simp

@[simp] theorem valveless_judgeCoilOpen (st : Station) (s : State) : valveless (judgeCoilOpen st s) = valveless s := by
  unfold judgeCoilOpen
  simp

@[simp] theorem valveless_testCoil (st : Station) (current : Nat) (s : State) : valveless (testCoil st current s) = valveless s := by
  unfold testCoil
  simp

@[simp] theorem valveless_allChannelsOff (s : State) : valveless (allChannelsOff s) = valveless s := by
  unfold allChannelsOff
  simp

@[simp] theorem valveless_setQuiet (s : State) : valveless (setQuiet s) = valveless s := rfl

@[simp] theorem valveless_holdChannels (again : Bool) (s : State) :
    valveless (holdChannels again s) = valveless s := by
  unfold holdChannels
  simp

@[simp] theorem valveless_clearCoilFaults (s : State) : valveless (clearCoilFaults s) = valveless s := by
  unfold clearCoilFaults
  simp

@[simp] theorem valveless_resetVdu (s : State) : valveless (resetVdu s) = valveless s := rfl

@[simp] theorem valveless_vduEnters (p : PartState) (s : State) : valveless (vduEnters p s) = valveless s := by
  unfold vduEnters
  simp

end Sys2Proof.Machine
end

