-- ==== Sys2Proof/WellFormed.lean ====
section
/-! DEFINITION. When the operands of a command are ones the spec lets its sender give. -/

namespace Sys2Proof

/-- The directive fields the Wave Controller keeps are in range (08 R154). -/
def ClimbValues.wellFormed (v : ClimbValues) : Bool :=
  decide (v.riseRate ≤ 600) && decide (v.topElevation ≤ 200000)
    && (List.finRange 64).all fun s => decide (-4 ≤ v.trims[s]) && decide (v.trims[s] ≤ 4)

/-- A batch has at most 8 portion entries (07 R119). -/
def BatchReport.wellFormed (r : BatchReport) : Bool := decide (r.entries.length ≤ 8)

/-- The part state notice goes to every block but its sender; the other notices to the blocks their rules name. -/
def Block.hearsSiteSecond : Block → Bool
  | .wvc | .ltr | .fds => true
  | _ => false

/-- The blocks a line reset in HOLD mode is told to (09 R169); the Exchange Controller's share is an attention request. -/
def Block.hearsLineHold : Block → Bool
  | .ssu | .vdu | .wvc | .fds => true
  | _ => false

/-- The operands of a command are ones its sender can give. -/
def Instr.wellFormed : Instr → Bool
  | .unknownCommand code => !(decide (1 ≤ code.toNat) && decide (code.toNat ≤ 6))
  | .ignoredRegisterWrite offset _ => offset == 0x00 || offset == 0x08 || decide (0x18 ≤ offset)
  | .hostWindowWrite offset _ => decide (offset < 0x8000) && offset % 4 == 0
  | .siteSecondNotice receiver => receiver.hearsSiteSecond
  | .partStateNotice receiver _ => !(receiver == .psv)
  | .lineHoldNotice receiver => receiver.hearsLineHold
  | .drainAnswer _ records _ => decide (records.length ≤ 4)
  | .coilTest _ current => decide (current ≤ 255)
  | .replyFrame bytes _ => decide (bytes.length ≤ 7)
  | .feedView _ _ portionCount => decide (portionCount ≤ 8)
  | .pourPlanRequest request => request.newIndex.isNone || request.remainder.isNone
  | .placement _ _ volume => decide (volume ≤ 12000)
  | .climbDirective values => values.wellFormed
  | .flowDirective flow => decide (flow ≤ 1000)
  | .slotWriteRequest (.batch _ _ report) => report.wellFormed
  | _ => true

end Sys2Proof
end

