-- ==== Sys2Proof/Tests/Slice0.lean ====
section
/-! SUPPORT. Small checks: each well-formedness check refuses a term, the spec's worked examples come out, and the
hypotheses of every obligation are met by some state, clause by clause. -/

set_option maxRecDepth 20000

namespace Sys2Proof.Tests

open Sys2Proof Sys2Proof.Machine

/-! ## Well-formedness refuses -/

theorem test_unknownCommand_refuses_a_known_code :
    (Instr.unknownCommand 1).wellFormed = false ∧ (Instr.unknownCommand 6).wellFormed = false := by decide
theorem test_ignoredRegisterWrite_refuses_a_written_register :
    (Instr.ignoredRegisterWrite 0x0C 0).wellFormed = false := by decide
theorem test_hostWindowWrite_refuses_other_offsets :
    (Instr.hostWindowWrite 0x8000 0).wellFormed = false ∧ (Instr.hostWindowWrite 2 0).wellFormed = false := by decide
theorem test_siteSecondNotice_refuses_other_receivers : (Instr.siteSecondNotice .ssu).wellFormed = false := by decide
theorem test_partStateNotice_refuses_its_sender : (Instr.partStateNotice .psv .run).wellFormed = false := by decide
theorem test_lineHoldNotice_refuses_other_receivers : (Instr.lineHoldNotice .exc).wellFormed = false := by decide
theorem test_drainAnswer_refuses_five_records :
    (Instr.drainAnswer 0 (List.replicate 5 ⟨.extend, 0⟩) false).wellFormed = false := by decide
theorem test_coilTest_refuses_a_current_above_255 : (Instr.coilTest 0 256).wellFormed = false := by decide
theorem test_replyFrame_refuses_eight_bytes : (Instr.replyFrame (List.replicate 8 0) false).wellFormed = false := by decide
theorem test_feedView_refuses_nine_portions : (Instr.feedView 0 0 9).wellFormed = false := by decide
theorem test_pourPlanRequest_refuses_two_indices :
    (Instr.pourPlanRequest ⟨0, 0, 0, 0, some 0, some 0⟩).wellFormed = false := by decide
theorem test_placement_refuses_more_than_a_batch : (Instr.placement 0 0 12001).wellFormed = false := by decide
theorem test_climbDirective_refuses_values_out_of_range :
    (Instr.climbDirective { ClimbValues.defaults with riseRate := 601 }).wellFormed = false
    ∧ (Instr.climbDirective { ClimbValues.defaults with topElevation := 200001 }).wellFormed = false
    ∧ (Instr.climbDirective { ClimbValues.defaults with trims := Vector.replicate 64 5 }).wellFormed = false := by decide
theorem test_flowDirective_refuses_a_flow_above_1000 : (Instr.flowDirective 1001).wellFormed = false := by decide
theorem test_slotWriteRequest_refuses_nine_entries :
    (Instr.slotWriteRequest (.batch 0 none
      ⟨.none, 0, 0, 0, 0, .none, false, List.replicate 9 ⟨0, .new, 0, 0, none⟩⟩)).wellFormed = false := by decide

/-! ## States to try -/

/-- The part acting in CONFIG, nothing waiting. -/
def idleInConfig : State := { State.reset with mail := [] }

/-- The part without power. -/
def dead : State := { idleInConfig with power := .off }

/-- Rig values: stations 0 to 7 in sectors 0 and 1. -/
def rig : RigValues :=
  { RigValues.standby with
    fitted := 0xFF#64, strokeLength := 25, formHeight := 1200, targetFill := 150, maxFill := 500, minLayer := 150,
    levelBand := 2, driveTimeout := 8, settleTimeout := 6, strayLimit := 3, debounceScans := 3, riseRamp := 600,
    onLevel := 200, fallRamp := 400, restLevel := 40, probeTolerance := 10, freshnessLimit := 10, maxPortion := 400,
    mergeWindow := 600, areas := Vector.replicate 16 150 }

/-- A station that stands ACTIVE at a count. -/
def active (count : Nat) : StationRecord := { StationRecord.blank with service := .active, count := count }

/-- Every block's view, and the part state. -/
def inState (p : PartState) (s : State) : State :=
  { s with
    psv := { s.psv with state := p }, ssu := { s.ssu with view := p }, vdu := { s.vdu with view := p },
    wvc := { s.wvc with view := p }, lbp := { s.lbp with view := p }, ltr := { s.ltr with view := p },
    fds := { s.fds with view := p }, exc := { s.exc with view := p } }

/-- The part in RUN within a job, stations 0 to 7 ACTIVE at 40, the climb HELD. -/
def running : State :=
  inState .run
    { idleInConfig with
      psv := { idleInConfig.psv with jobMark := true, rig := rig }
      vdu := { idleInConfig.vdu with quiet := false }
      wvc := { idleInConfig.wvc with
        holds := 0, table := tabulate fun st => if st.1 < 8 then active 40 else StationRecord.blank } }

/-- The running part with the climb in this state. -/
def climbing (c : Climb) : State := { running with wvc := { running.wvc with climb := c } }

/-- A wave in this phase, in which stations 0 and 1 take part and are awaited. -/
def inPhase (c : Climb) : State :=
  setItem (setItem (climbing c) 0 { WaveItem.clear with participant := true, awaited := true }) 1
    { WaveItem.clear with participant := true, awaited := true }

/-- The part in BENCH. -/
def bench (r : BenchResult) (p : BenchPhase) : State :=
  inState .bench { idleInConfig with psv := { idleInConfig.psv with bench := r, benchPhase := p } }

/-- The words of a Rig Page that passes, fields 0 to 63. -/
def pageWords : List Word :=
  [0xFF, 0, 25, 1200, 150, 500, 150, 2, 1, 8, 6, 3, 2, 3, 600, 200] ++ [400, 40, 10, 10, 2, 10, 600, 400, 1, 0, 0, 0, 0, 0, 0, 0]
    ++ List.replicate 16 150 ++ [600, 60, 300, 600, 600, 60, 300, 600, 600, 60, 300, 600, 600, 60, 300, 600]

/-- A window whose Rig Page passes. -/
def pageWindow : Memory := writeWords [] 0 pageWords

/-- A batch of 300 L of which nothing has been placed. -/
def batch : BatchRecord := ⟨5, 300, 0, 0, 0xFFFF#16, 0, 0, 0, 0, 300, .none, false, [], none, .lined⟩

/-- The running part with the flow on and a batch at the head of the line. -/
def feeding (r : BatchRecord) : State :=
  { running with fds := { running.fds with line := [7], flow := 300, records := put running.fds.records 7 (some r) } }

/-- A gate opened for 300 L of slot 7. -/
def gateRun : GateRun := ⟨7, 300, 0, 300, 60000, none, none⟩

/-- The running part with this gate. -/
def withGate (g : Gate) : State := { feeding batch with fds := { (feeding batch).fds with gate := g } }

/-- The running part with a stack in sector 0. -/
def stacked (layers : List Layer) : State :=
  { running with ltr := { running.ltr with stack := put running.ltr.stack 0 layers } }

/-- A CONCRETE layer of slot 7, portion 0. -/
def layer (bottom : Int) (thickness : Nat) : Layer := ⟨bottom, thickness, .concrete ⟨7, 0, 0, 0, 0, false⟩⟩

/-- The running part with this pour plan and these openings in sector 0. -/
def planning (p : Option Plan) (os : List Opening) (layers : List Layer) : State :=
  { stacked layers with
    ltr := { (stacked layers).ltr with plan := p, openings := put running.ltr.openings 0 os } }

/-- The running part with station 9's channel, fitted, as given. -/
def valve (c : Channel) : State :=
  setChannel { running with psv := { running.psv with rig := { rig with fitted := 0xFFFF#64 } } } 9 c

/-- The running part with station 3's switch as given. -/
def sensing (u : SsuStation) : State := setSsu running 3 u

/-- The part at this fine time. -/
def atTime (t : Word) (s : State) : State := { s with tmb := { s.tmb with fineTime := t } }

/-- The state a command leads to. -/
def after (c : Instr) (s : State) : State :=
  match exec c s with
  | .next t => t
  | _ => s

/-! ## Worked examples of the spec -/

/-- Station 9 standing at the rest level (03, One Channel Through a Reversed Wave). -/
def atRest : State := atTime 50000 (valve ⟨.idle, 40, 40, none, false, 0⟩)

theorem test_open_takes_480_ms_from_the_rest_level :
    channelOf (after (.openValve 9) atRest) 9 = ⟨.opening, 40, 200, some ⟨40, 50000, 480⟩, false, 0⟩ := by decide
theorem test_the_rise_stands_at_120_half_way :
    (channelOf (after (.openValve 9) atRest) 9).present 50240 = 120 := by decide
theorem test_close_reverses_the_rise_in_200_ms :
    channelOf (after (.closeValve 9) (atTime 50300 (after (.openValve 9) atRest))) 9
      = ⟨.closing, 140, 40, some ⟨140, 50300, 200⟩, false, 0⟩ := by decide
theorem test_open_asserts_the_pump_enable : (after (.openValve 9) atRest).vdu.pumpEnable = true := by decide
theorem test_a_second_failed_coil_test_is_told :
    (after (.coilTest 9 9) (valve ⟨.idle, 40, 40, none, false, 1⟩)).mail = [.coilFaultNotice 9] := by decide

/-- Stations 0 to 4 with the readings of the worked example (05, A Deviation Episode). -/
def deviating : State :=
  let counts (st : Station) : Nat := if st.1 = 2 ∨ st.1 = 4 then 41 else 40
  let readings (st : Station) : Option Reading :=
    if st.1 < 5 then some ⟨BitVec.ofNat 24 ([1003, 1000, 1024, 1001, 998].getD st.1 0), .good, 0, false⟩ else none
  { running with
    wvc := { running.wvc with table := tabulate fun st => if st.1 < 5 then active (counts st) else StationRecord.blank }
    lbp := { running.lbp with readings := tabulate readings } }

theorem test_station_4_is_out_by_111 :
    scaledDifference deviating (comparedStations deviating) 4 = -111 := by decide
theorem test_station_2_is_within_by_19 : scaledDifference deviating (comparedStations deviating) 2 = 19 := by decide
theorem test_station_4_is_marked_for_deviation :
    (checkDeviation 4 deviating).mail = [.markRequest 4 .deviation] := by decide

theorem test_a_gate_for_400_L_at_300_is_open_80_s : gateTime 400 300 = 80000 := by decide
theorem test_a_gate_for_650_L_at_300_is_open_130_s : gateTime 650 300 = 130000 := by decide

/-- Wave 212 as it starts (04, worked example): counts 40, 40 and 41. -/
def wave212 : State :=
  { running with wvc := { running.wvc with
      waveNumber := 211, climb := .dwell
      table := tabulate fun st => match st.1 with
        | 0 | 1 => active 40
        | 2 => active 41
        | _ => StationRecord.blank } }

theorem test_wave_212_has_three_participants : participants (startDrive wave212) = [0, 1, 2] := by decide
theorem test_wave_212_has_its_number : (startDrive wave212).wvc.waveNumber = 212 := by decide

theorem test_a_posted_batch_is_seen :
    (compareBatch 0 { running with window := writeWord [] 0x800 1 }).exc.batchImages[(0 : BatchSlot)] = .posted := by decide
theorem test_a_host_write_of_TAKEN_is_a_misuse :
    (compareOrder 1 { running with window := writeWord [] 0x420 2 }).exc.misuse = some (.order, 1) := by decide
theorem test_an_edition_of_good_values_is_accepted :
    (readDirective { running with window := writeWord (writeWord [] 0x200 1) 0x2FC 1 }).exc.edition = 1 := by decide
theorem test_a_rise_rate_of_601_is_rejected_at_field_2 :
    (readDirective { running with window := writeWord (writeWord (writeWord [] 0x200 1) 0x2FC 1) 0x208 601 }).exc.badField = 2 := by
  decide
theorem test_a_word_is_laid_out_least_byte_first :
    writeWord [] 8 0x11002233 = [(8, 0x33), (9, 0x22), (11, 0x11)] := by decide
theorem test_a_page_that_passes_begins_the_job :
    (after .start { idleInConfig with window := pageWindow }).psv.control = ⟨1, .done, 0, false, false⟩ := by decide
theorem test_the_lamps_of_a_held_run_are_green_and_amber :
    ((after .wake running).psv.green.pattern, (after .wake running).psv.amber.pattern) = (.steady, .steady) := by decide

/-! ## The hypotheses of the obligations are met -/

theorem hyp_stepOnAnEmptyQueue :
    dead.pending = [] ∧ acting dead = false ∧ acting State.reset = true ∧ State.reset.mail = [.publishTimerExpiry]
    ∧ running.mail = [] ∧ due running = some .transactionBegin := by decide
theorem hyp_stepTicksWhenNothingIsDue :
    acting idleInConfig = true ∧ idleInConfig.mail = [] ∧ due idleInConfig = none := by decide
theorem hyp_commandsNeedTheReleasedPart :
    Instr.needsActing .start = true ∧ acting dead = false ∧ Instr.needsActing .publicationEnd = true := by decide
theorem hyp_lampsShowTheState :
    dead.power ≠ .on ∧ idleInConfig.psv.state = .config ∧ running.psv.state = .run ∧ running.wvc.climb = .held
    ∧ (climbing .dwell).wvc.climb ≠ .held ∧ (climbing .dwell).fds.paused = false
    ∧ (climbing .dwell).psv.state = .run ∧ (bench .running (.lampTest 0)).psv.benchPhase = .lampTest 0 := by decide
theorem hyp_lampsShowTheBench (b : Word) :
    (bench .running .storePass).psv.benchPhase ≠ .lampTest b ∧ (bench .pass .done).psv.benchPhase ≠ .lampTest b := by
  simp [bench, inState]
theorem hyp_lampFlash_green : lampsExact idleInConfig ∧ idleInConfig.psv.green.pattern = .slow := by
  unfold lampsExact; decide
theorem hyp_lampFlash_amber :
    let s := refreshLamps { climbing .dwell with fds := { running.fds with paused := true } }
    acting s = true ∧ lampsExact s ∧ s.psv.amber.pattern = .slow := by unfold lampsExact; decide
theorem hyp_lampFlash_red :
    let s := refreshLamps (bench .matrixFault .done)
    acting s = true ∧ lampsExact s ∧ s.psv.red.pattern = .fast ∧ s.psv.green.pattern = .dark := by
  unfold lampsExact; decide

/-- The part in CONFIG with WAKE in the queue. -/
def waking : State := { idleInConfig with pending := [.wake] }

theorem hyp_stepKeeps_window : windowCanonical waking ∧ ∃ t, step waking = .next t := by
  refine ⟨?_, _, rfl⟩; unfold windowCanonical Memory.wf; decide
theorem hyp_stepKeeps_attnLine : attnLineExact waking ∧ ∃ t, step waking = .next t := by
  refine ⟨?_, _, rfl⟩; unfold attnLineExact; decide
theorem hyp_stepKeeps_pump : pumpExact waking ∧ ∃ t, step waking = .next t := by
  refine ⟨?_, _, rfl⟩; unfold pumpExact; decide
theorem hyp_stepKeeps_queues : queuesSound waking ∧ ∃ t, step waking = .next t := by
  refine ⟨?_, _, rfl⟩; unfold queuesSound SsuStation.sound; decide
theorem hyp_stepKeeps_records : recordsSound waking ∧ ∃ t, step waking = .next t := by
  refine ⟨?_, _, rfl⟩; unfold recordsSound StationRecord.sound; decide
theorem hyp_stepKeeps_stacks : stacksSound waking ∧ ∃ t, step waking = .next t := by
  refine ⟨fun k => ⟨by revert k; decide, by revert k; decide, ?_⟩, _, rfl⟩
  rintro ⟨p, i, h, _⟩; simp [waking, idleInConfig, State.reset, Ltr.cold] at h
theorem hyp_stepKeeps_line : lineSound waking ∧ paceSound waking ∧ ∃ t, step waking = .next t := by
  refine ⟨?_, ?_, _, rfl⟩
  · unfold lineSound; decide
  · unfold paceSound; decide
theorem hyp_stepKeeps_lamps : lampsExact waking ∧ ∃ t, step waking = .next t := by
  refine ⟨?_, _, rfl⟩; unfold lampsExact; decide

theorem hyp_blocksChangeTheirOwnStateAlone :
    acting running = true ∧ Instr.isStroke (.drainQueue 0) = true ∧ Instr.isValve .wake = true
    ∧ Instr.isWave .waveStop = true ∧ Instr.isLevel .querySent = true ∧ Instr.isLayer .dropPlan = true
    ∧ Instr.isFeed .gateClose = true ∧ Instr.isExchange .exchangeScan = true := by decide

/-! ### CONTROL -/

theorem hyp_startOnAPageThatPasses :
    let s := { idleInConfig with window := pageWindow }
    acting s = true ∧ s.psv.control.waiting = false ∧ s.psv.state = .config
    ∧ badRigField (rigPage s.window) = none ∧ s.psv.jobMark = false := by decide
theorem hyp_startWithinAJob :
    changedField (snapshotOf (rigPage pageWindow)) (rigPage pageWindow) = none := by decide
theorem hyp_startOnAPageThatFails :
    acting idleInConfig = true ∧ idleInConfig.psv.control.waiting = false ∧ idleInConfig.psv.state = .config
    ∧ badRigField (rigPage idleInConfig.window) = some 1
    ∧ changedField { snapshotOf (rigPage pageWindow) with fitted := 1 } (rigPage pageWindow) = some 1 := by decide
theorem hyp_rigCheck : badRigField RigValues.standby = some 1 := by decide
theorem hyp_stopInRun : acting running = true ∧ running.psv.control.waiting = false ∧ running.psv.state = .run := by decide
theorem hyp_commandsInTheWrongState :
    running.psv.state ≠ .config ∧ idleInConfig.psv.state ≠ .run ∧ (inState .stopping running).psv.state = .stopping
    ∧ acting (inState .stopping running) = true := by decide
theorem hyp_commandWhileOneWaits :
    let s := { idleInConfig with psv := { idleInConfig.psv with control := ⟨3, .waiting, 0, true, false⟩ } }
    acting s = true ∧ s.psv.control.waiting = true := by decide
theorem hyp_resetInActions :
    let s := inState .powerDown { running with psv := { running.psv with monitor := .actions } }
    acting s = true ∧ s.psv.control.waiting = false ∧ inActions s = true := by decide
theorem hyp_resetNow :
    inActions idleInConfig = false ∧ idleInConfig.psv.jobMark = false
    ∧ running.psv.jobMark = true ∧ inActions running = false := by decide

/-! ### Stroke sensing and valves -/

/-- A station with an open window. -/
def windowed : SsuStation := { SsuStation.reset with window := some ⟨.both, true⟩, armedExtend := true, armedRetract := true }

theorem hyp_windows :
    acting (sensing windowed) = true ∧ (sensing windowed).ssu.view ≠ .halted ∧ (ssuOf (sensing windowed) 3).window ≠ none
    ∧ (ssuOf running 3).window = none ∧ (inState .halted running).ssu.view = .halted := by decide
/-- The part at this row in the matrix pass. -/
def inMatrixPass (inScan adopting : Bool) (row : Fin 8) : State :=
  let s := bench .running (.matrixPass inScan 3 0x10)
  { s with ssu := { s.ssu with adopting := adopting, position := .row row } }

theorem hyp_rowReadAdopts :
    acting running = true ∧ running.ssu.scan ≠ .stopped ∧ running.ssu.position = .row 0 ∧ running.ssu.adopting = true
    ∧ (0 : Fin 8).1 + 1 < 8 ∧ (inMatrixPass true true 7).ssu.scan ≠ .stopped
    ∧ (inMatrixPass true true 7).ssu.position = .row 7 ∧ (inMatrixPass true true 7).ssu.adopting = true
    ∧ (inMatrixPass false true 7).psv.benchPhase = .matrixPass false 3 0x10
    ∧ (inMatrixPass true true 7).psv.benchPhase = .matrixPass true 3 0x10 := by decide
theorem hyp_rowRead_inTheMatrixPass :
    acting (inMatrixPass true false 7) = true ∧ (inMatrixPass true false 7).ssu.scan ≠ .stopped
    ∧ (inMatrixPass true false 7).ssu.position = .row 7 ∧ (inMatrixPass true false 7).ssu.adopting = false
    ∧ (inMatrixPass true false 7).psv.benchPhase = .matrixPass true 3 0x10
    ∧ (inMatrixPass false false 0).psv.benchPhase = .matrixPass false 3 0x10
    ∧ (inMatrixPass false false 0).ssu.position = .row 0 := by decide
theorem test_row_7_of_a_matrix_scan_is_followed_by_the_idle_read :
    (after (.rowRead 0) (inMatrixPass true false 7)).ssu.position = .idle
    ∧ (after (.rowRead 0) (inMatrixPass false false 7)).psv.benchPhase = .matrixPass true 3 0x10
    ∧ (after (.rowRead 0) (inMatrixPass false false 7)).ssu.position = .row 0 := by decide
theorem hyp_rowReadStopped :
    let s := { running with ssu := { running.ssu with scan := .stopped } }
    acting s = true ∧ s.ssu.scan = .stopped := by decide
theorem hyp_debounce :
    SwitchLevel.opened = SsuStation.reset.level ∧ SwitchLevel.closed ≠ SsuStation.reset.level
    ∧ SsuStation.reset.run + 1 < 3 ∧ 1 ≤ SsuStation.reset.run + 1
    ∧ SwitchLevel.opened ≠ { SsuStation.reset with level := SwitchLevel.closed }.level := by decide
theorem hyp_edge_notFitted : running.psv.rig.fitted.getLsbD 8 = false := by decide
theorem hyp_edge_accepted :
    running.psv.rig.fitted.getLsbD 3 = true ∧ (ssuOf (sensing windowed) 3).window = some ⟨.both, true⟩
    ∧ accepts .both .extend = true ∧ windowed.overflow = false ∧ windowed.queue.length < 4
    ∧ windowed.armed .extend = true := by decide
theorem hyp_edge_fifth :
    4 ≤ { windowed with queue := List.replicate 4 ⟨.extend, 0⟩ }.queue.length
    ∧ { windowed with overflow := true }.overflow = true ∧ { windowed with armedExtend := false }.armed .extend = false := by
  decide
theorem hyp_edge_stray :
    (∀ w, (ssuOf running 3).window = some w → accepts w.kinds .extend = false) ∧ running.psv.state = .run
    ∧ (ssuOf running 3).strays + 1 < running.psv.rig.strayLimit
    ∧ running.psv.rig.strayLimit ≤ (ssuOf (sensing { SsuStation.reset with strays := 2 }) 3).strays + 1 := by
  refine ⟨?_, by decide, by decide, by decide⟩
  intro w h; have : (ssuOf running 3).window = none := by decide
  simp [this] at h
theorem hyp_edge_refusedByKind : accepts .retractOnly .extend = false ∧ accepts .extendOnly .retract = false := by decide
theorem hyp_edge_discarded : idleInConfig.psv.state ≠ .run ∧ idleInConfig.psv.state ≠ .stopping
    ∧ idleInConfig.psv.state ≠ .recovery := by decide

theorem hyp_valve_ignored :
    idleInConfig.vdu.view ≠ .run ∧ idleInConfig.vdu.view ≠ .stopping ∧ running.psv.rig.fitted.getLsbD 8 = false
    ∧ (channelOf (valve ⟨.idle, 0, 0, none, true, 0⟩) 9).coilFault = true := by decide
theorem hyp_valve_idle : takesCommands atRest 9 ∧ (channelOf atRest 9).state = .idle
    ∧ 600 * (200 - (channelOf atRest 9).present 50000) / 200 ≠ 0 := by unfold takesCommands; decide
theorem hyp_valve_opening :
    let s := valve ⟨.opening, 0, 200, some ⟨0, 0, 600⟩, false, 0⟩
    takesCommands s 9 ∧ (channelOf s 9).state = .opening ∧ pumpExact s ∧ (channelOf s 9).present 0 ≤ 40 := by
  unfold takesCommands pumpExact; decide
theorem hyp_valve_openingHigh :
    let s := atTime 300 (valve ⟨.opening, 0, 200, some ⟨0, 0, 600⟩, false, 0⟩)
    takesCommands s 9 ∧ (channelOf s 9).state = .opening ∧ 40 < (channelOf s 9).present 300 := by
  unfold takesCommands; decide
theorem hyp_valve_opened :
    let s := valve ⟨.opened, 200, 200, none, false, 0⟩
    takesCommands s 9 ∧ (channelOf s 9).state = .opened ∧ 400 * ((channelOf s 9).present 0 - 40) / 200 ≠ 0 := by
  unfold takesCommands; decide
theorem hyp_valve_closing :
    let s := valve ⟨.closing, 200, 40, some ⟨200, 0, 320⟩, false, 0⟩
    takesCommands s 9 ∧ (channelOf s 9).state = .closing ∧ pumpExact s ∧ (channelOf s 9).ramp = some ⟨200, 0, 320⟩ := by
  unfold takesCommands pumpExact; decide
theorem hyp_valve_noRamp :
    let s := setChannel { running with psv := { running.psv with rig := { rig with riseRamp := 0, fallRamp := 0 } } } 3
      ⟨.opened, 200, 200, none, false, 0⟩
    takesCommands s 3 ∧ 0 * (200 - (channelOf s 3).present 0) / 200 = 0 := by unfold takesCommands; decide
theorem hyp_coilTest :
    (channelOf (valve ⟨.idle, 0, 0, none, false, 0⟩) 9).present 0 = 0 ∧ 0 < (channelOf atRest 9).present 50000
    ∧ (channelOf atRest 9).present 50000 ≤ 4 * 10 ∧ 4 * 9 < (channelOf atRest 9).present 50000
    ∧ (channelOf atRest 9).testRun = 0 ∧ (channelOf (valve ⟨.idle, 40, 40, none, false, 1⟩) 9).testRun ≠ 0 := by decide

/-! ### Notices, line, supply -/

theorem hyp_partStateNotice :
    acting running = true ∧ running.wvc.climb = .held ∧ (climbing .dwell).wvc.climb ≠ .held ∧ running.fds.line = []
    ∧ (inState .halted running).exc.view = .halted ∧ running.exc.view ≠ .halted := by decide
theorem hyp_siteSecondAdvance (n : Word) (k : Nat) :
    acting dead = false ∧ acting running = true ∧ running.psv.benchPhase ≠ .storePass
    ∧ running.psv.benchPhase ≠ .clockPass n k := by
  refine ⟨rfl, rfl, ?_, ?_⟩ <;> simp [running, inState, idleInConfig, State.reset, Psv.cold]
theorem hyp_siteSecondNotice :
    running.wvc.view = .run ∧ running.wvc.climb = .held ∧ running.wvc.permission = false ∧ (climbing .drive).wvc.climb ≠ .held
    ∧ running.ltr.view = .run ∧ running.fds.view = .run ∧ (inState .powerDown running).ltr.view = .powerDown := by decide
theorem hyp_siteSecondNotice_joint :
    let s := { stacked [layer 0 100] with tmb := { running.tmb with siteSeconds := 300 } }
    used s 0 = true ∧ jointDue s 0 = true ∧ jointDue s 1 = false := by decide
theorem hyp_lineReset_hold :
    let s := { running with psv := { running.psv with lineMode := .hold } }
    acting s = true ∧ s.psv.lineMode = .hold ∧ s.psv.state = .run ∧ (inState .powerDown s).psv.state = .powerDown
    ∧ (inState .bench s).psv.state = .bench := by decide
theorem hyp_lineReset_restart : running.psv.lineMode = .restart ∧ inActions running = false := by decide
theorem hyp_lineHold :
    (climbing .settle).wvc.climb = .settle ∧ (climbing .dwell).wvc.view ≠ .halted ∧ (inPhase .drive).wvc.climb = .drive
    ∧ running.fds.gate = .idle ∧ (withGate (.drop 0 gateRun)).fds.gate = .drop 0 gateRun ∧ gateRun.passed = none
    ∧ (channelOf atRest 9).state = .idle
    ∧ 400 * (channelOf (valve ⟨.opened, 200, 200, none, false, 0⟩) 9).present 0 / 200 ≠ 0 := by decide
theorem hyp_clearNotice :
    acting idleInConfig = true ∧ idleInConfig.psv.state ≠ .halted ∧ idleInConfig.exc.publication = none
    ∧ { idleInConfig.exc with publication := some 1 }.publication ≠ none ∧ pumpExact idleInConfig := by
  unfold pumpExact; decide
theorem hyp_clearDone : [Block.exc, .psv].erase .psv ≠ [] ∧ [Block.exc].erase .exc = [] ∧ [Block.exc] ≠ [] := by decide
theorem hyp_supplyLow :
    acting running = true ∧ running.psv.monitor = .normal ∧ running.psv.state ≠ .bench ∧ running.psv.state ≠ .halted
    ∧ isRepeated running = false ∧ isRepeated (inState .recovery running) = true
    ∧ (bench .pass .done).psv.state = .bench := by decide
/-- The part in POWER_DOWN, waiting, the good-supply timer running. -/
def waiting : State :=
  inState .powerDown { running with psv := { running.psv with monitor := .wait, goodTimer := some 0 } }
theorem hyp_returnOfGoodSupply :
    acting waiting = true ∧ waiting.psv.state = .powerDown ∧ waiting.psv.monitor = .wait ∧ waiting.psv.goodTimer ≠ none
    ∧ waiting.psv.jobMark = true ∧ running.psv.monitor ≠ .wait := by decide
theorem hyp_stoppingEnds :
    let s := inState .stopping running
    acting s = true ∧ s.psv.state = .stopping ∧ s.psv.feedStopped = false ∧ s.psv.waveEnded = false
    ∧ inActions running = false ∧ running.psv.state ≠ .stopping := by decide
theorem hyp_powerDownActions :
    let s := inState .powerDown { running with psv := { running.psv with monitor := .actions, feedDone := true } }
    acting s = true ∧ inActions s = true ∧ s.psv.feedDone = true ∧ s.psv.waveDone = false
    ∧ settlingWaits (took .powerDownActionsDone s) = false ∧ s.psv.deferredReset = none := by decide
theorem hyp_storeError : acting running = true ∧ running.psv.state ≠ .halted ∧ running.exc.view ≠ .halted
    ∧ (inState .halted running).psv.state = .halted := by decide
theorem hyp_power :
    dead.power = .off ∧ running.power ≠ .off ∧ dead.tmb.savedWord = none
    ∧ { dead.tmb with savedWord := some 7 }.savedWord = some 7
    ∧ { dead with power := .held .powerOn }.power = .held .powerOn := by decide
theorem hyp_benchSelfCheck :
    (bench .running (.lampTest 0)).psv.benchPhase = .lampTest 0 ∧ (bench .running .storePass).psv.benchPhase = .storePass
    ∧ (bench .running (.clockPass 0 9)).psv.benchPhase = .clockPass 0 9
    ∧ 9950 ≤ ((atTime 9950 (bench .running (.clockPass 0 9))).tmb.fineTime - 0).toNat
    ∧ ((atTime 10050 (bench .running (.clockPass 0 9))).tmb.fineTime - 0).toNat ≤ 10050
    ∧ 10050 < ((atTime 10051 (bench .running (.clockPass 0 9))).tmb.fineTime - 0).toNat := by decide
theorem hyp_benchMatrixPass :
    let s := bench .running (.matrixPass true 15 0x01)
    let t := { s with ssu := { s.ssu with position := .idle } }
    acting t = true ∧ t.ssu.scan ≠ .stopped ∧ t.ssu.position = .idle ∧ t.psv.benchPhase = .matrixPass true 15 0x01
    ∧ 0x01#8 &&& 0x01#8 ≠ 0 ∧ 0x02#8 &&& 0x01#8 = 0 := by decide
/-- The part in RECOVERY, in phase SETTLING. -/
def settling_ : State :=
  inState .recovery { running with psv := { running.psv with recovery := .settling } }
theorem hyp_recovery :
    acting settling_ = true ∧ isSettling settling_ = true ∧ isActive settling_ 0 = true ∧ isFresh settling_ 0 = false
    ∧ isSettling running = false := by decide
theorem hyp_recoveryReady :
    let s := { settling_ with lbp := { running.lbp with readings := Vector.replicate 64 (some ⟨0, .good, 0, false⟩) } }
    isSettling s = true ∧ ∀ x, isActive s x = true → isFresh s x = true := by decide
theorem hyp_restartCheck :
    (comparedStations running).length < 4 ∧ (4 : Station) ∈ comparedStations deviating
    ∧ (recordOf deviating 4).inDoubt = false
    ∧ (recordOf (setRecord deviating 4 { active 41 with inDoubt := true }) 4).inDoubt = true := by decide

/-! ### Waves -/

theorem hyp_firstOfKind :
    (inPhase .drive).wvc.view ≠ .halted ∧ (inPhase .drive).wvc.ending = none ∧ (itemOf (inPhase .drive) 2).participant = false
    ∧ (itemOf (inPhase .drive) 0).awaited = true
    ∧ ∃ x, x ≠ 0 ∧ (itemOf (inPhase .drive) x).participant = true ∧ (itemOf (inPhase .drive) x).awaited = true := by decide
theorem hyp_firstOfKind_last :
    let s := setItem (inPhase .drive) 1 { WaveItem.clear with participant := true }
    (itemOf s 0).awaited = true ∧ ¬∃ x, x ≠ 0 ∧ (itemOf s x).participant = true ∧ (itemOf s x).awaited = true := by decide
theorem hyp_firstOfKind_late :
    let s := setItem (inPhase .settle) 0 { WaveItem.clear with participant := true, verdict := some .missing }
    s.wvc.climb = .settle ∧ (itemOf s 0).participant = true ∧ (itemOf s 0).verdict = some .missing := by decide

/-- The wave with these drains sent for the end of this phase. -/
def judging (c : Climb) (e : Option WaveEnding) (ds : List Drain) : State :=
  { inPhase c with wvc := { (inPhase c).wvc with ending := e, drains := ds } }

/-- A bar of station 7 whose drain is outstanding among these, its notice being owed. -/
def barDraining (c : Climb) (e : Option WaveEnding) (v : Option Verdict) (ds : List Drain) : State :=
  let s := setItem (judging c e ds) 7 { WaveItem.clear with verdict := v }
  { s with wvc := { s.wvc with countsDirty := true } }

theorem hyp_driveJudgement :
    let s := judging .settle (some .driveEnd) [⟨0, .driveEnd⟩, ⟨1, .driveEnd⟩]
    acting s = true ∧ s.wvc.view ≠ .halted
    ∧ (s.wvc.drains.find? fun d => decide (d.station = 0)) = some ⟨0, .driveEnd⟩ ∧ s.wvc.ending = some .driveEnd
    ∧ ((s.wvc.drains.erase ⟨0, .driveEnd⟩).any fun d => decide (d.purpose = .driveEnd)) = true
    ∧ (itemOf s 0).unreported = false ∧ (recordOf s 0).service = .active ∧ (recordOf s 0).marks < 2
    ∧ (itemOf (setItem s 0 { WaveItem.clear with participant := true, unreported := true }) 0).unreported = true := by decide
theorem hyp_driveJudgement_last :
    let s := judging .settle (some .driveEnd) [⟨0, .driveEnd⟩]
    (s.wvc.drains.find? fun d => decide (d.station = 0)) = some ⟨0, .driveEnd⟩ ∧ s.wvc.ending = some .driveEnd
    ∧ ((s.wvc.drains.erase ⟨0, .driveEnd⟩).any fun d => decide (d.purpose = .driveEnd)) = false
    ∧ s.wvc.climb = .settle ∧ inWave s = true := by decide
theorem hyp_driveJudgement_lastBars (participates : Bool) :
    let s := setRecord (setItem (judging .settle (some .driveEnd) [⟨0, .driveEnd⟩]) 0
      { WaveItem.clear with participant := participates }) 0 { active 40 with marks := 2 }
    (recordOf s 0).service = .active ∧ (recordOf s 0).marks = 2 ∧ s.wvc.climb = .settle
    ∧ (itemOf s 0).participant = participates := by cases participates <;> decide
theorem hyp_drainAnswer_toNoDrain :
    let s := judging .settle (some .driveEnd) [⟨0, .driveEnd⟩]
    acting s = true ∧ s.wvc.view ≠ .halted ∧ (s.wvc.drains.find? fun d => decide (d.station = 1)) = none := by decide
theorem hyp_drainAnswer_discard :
    let s := judging .held none [⟨0, .discard⟩]
    let t := barDraining .settle none none [⟨0, .discard⟩, ⟨7, .barDrive⟩]
    (s.wvc.drains.find? fun d => decide (d.station = 0)) = some ⟨0, .discard⟩ ∧ s.wvc.ending = none
    ∧ s.wvc.countsDirty = false ∧ (t.wvc.drains.find? fun d => decide (d.station = 0)) = some ⟨0, .discard⟩
    ∧ t.wvc.ending = none ∧ t.wvc.countsDirty = true ∧ (∃ d ∈ t.wvc.drains, d.purpose ≠ .discard) := by decide
theorem hyp_drainAnswer_settle :
    let s := setItem (judging .settle (some .settleEnd) [⟨0, .settleEnd⟩, ⟨1, .settleEnd⟩]) 0
      { WaveItem.clear with participant := true, verdict := some .extended }
    (s.wvc.drains.find? fun d => decide (d.station = 0)) = some ⟨0, .settleEnd⟩
    ∧ ((s.wvc.drains.erase ⟨0, .settleEnd⟩).any fun d => decide (d.purpose = .settleEnd)) = true
    ∧ (itemOf s 0).verdict = some .extended ∧ (itemOf s 0).retracted = false := by decide
theorem hyp_markRequest :
    acting running = true ∧ running.wvc.view ≠ .halted ∧ (inState .halted running).wvc.view = .halted
    ∧ acting (inState .halted running) = true ∧ (recordOf running 8).service ≠ .active ∧ (recordOf running 7).service = .active ∧ (recordOf running 7).marks < 2
    ∧ (recordOf (setRecord running 7 { active 40 with marks := 2 }) 7).marks = 2 ∧ inWave running = false
    ∧ isParticipant (inPhase .drive) 0 = true := by decide
theorem hyp_dwellExpiry :
    let s := { climbing .dwell with wvc := { (climbing .dwell).wvc with values := { ClimbValues.defaults with riseRate := 1 } } }
    s.wvc.climb = .dwell ∧ s.wvc.values.riseRate ≠ 0 ∧ s.wvc.permission = false ∧ running.wvc.values.riseRate = 0 := by decide
theorem hyp_permissionAnswer :
    acting running = true ∧ running.wvc.view = .run ∧ inWave (inPhase .settle) = true ∧ inWave running = false := by decide
/-- The running part with these directive values. -/
def climbingAt (rate top : Nat) : State :=
  { running with wvc := { running.wvc with values := ⟨.climb, rate, top, Vector.replicate 64 0⟩ } }
theorem hyp_permissionAnswer_drives :
    (after (.risePermissionAnswer 0 0) (climbingAt 600 200000)).wvc.holds = 0
    ∧ (after (.risePermissionAnswer 0 0) (climbingAt 600 200000)).wvc.climb = .drive
    ∧ running.psv.rig.strokeLength * 3600000 / 600 ≤ running.wvc.dwell := by decide
theorem hyp_permissionAnswer_dwells :
    let s := { climbingAt 1 200000 with wvc := { (climbingAt 1 200000).wvc with dwell := 0 } }
    (after (.risePermissionAnswer 0 0) s).wvc.holds = 0
    ∧ (after (.risePermissionAnswer 0 0) s).wvc.climb = .dwell := by decide
theorem hyp_waveTimers :
    let s := { inPhase .settle with wvc := { (inPhase .settle).wvc with settleTimer := some ⟨0, 6000⟩, fallTimer := some ⟨0, 400⟩ } }
    participants s ≠ [] ∧ s.wvc.ending = none ∧ s.wvc.settleTimer ≠ none ∧ s.wvc.fallTimer ≠ none ∧ awaitEmpty s = false
    ∧ s.wvc.climb = .settle := by decide
/-- DRIVE with its timer running, the wave being ended so, if it is. -/
def driving (e : Option WaveEnding) : State :=
  { inPhase .drive with wvc := { (inPhase .drive).wvc with driveTimer := some ⟨0, 8000⟩, ending := e } }
theorem hyp_driveTimer :
    (driving none).wvc.climb = .drive ∧ (driving none).wvc.driveTimer ≠ none ∧ (driving none).wvc.ending = none
    ∧ participants (driving none) ≠ [] ∧ acting (driving none) = true ∧ (driving none).wvc.view ≠ .halted
    ∧ (driving (some .powerDown)).wvc.ending ≠ none ∧ (inPhase .drive).wvc.driveTimer = none := by decide
/-- The wave with no participant left. -/
def deserted (s : State) : State := setItem (setItem s 0 WaveItem.clear) 1 WaveItem.clear
theorem hyp_waveTimers_deserted :
    participants (deserted (inPhase .settle)) = [] ∧ awaitEmpty (deserted (inPhase .settle)) = true
    ∧ participants (deserted (driving none)) = [] ∧ (deserted (driving none)).wvc.climb = .drive
    ∧ (deserted (inPhase .settle)).wvc.drains = [] ∧ (deserted (driving none)).wvc.drains = [] := by decide
theorem test_the_drive_timer_ends_drive :
    ((after .driveTimerExpiry (driving none)).wvc.climb, (after .driveTimerExpiry (driving none)).wvc.ending)
      = (.settle, some .driveEnd) := by decide
theorem test_a_cancelled_drive_timer_does_not_expire :
    let t := after .wavePowerDown (driving none)
    t.wvc.ending = some .powerDown ∧ (after .driveTimerExpiry t).wvc = t.wvc := by decide
theorem test_a_power_down_leaves_the_request_outstanding :
    let s : State := { running with wvc := { running.wvc with permission := true } }
    (after .wavePowerDown s).wvc.permission = true
    ∧ (after (.risePermissionAnswer 0 0) (after .wavePowerDown s)).wvc.permission = false := by decide
theorem hyp_fallTimer_ends :
    let s := setItem (setItem (inPhase .settle) 0 { WaveItem.clear with participant := true }) 1 WaveItem.clear
    awaitEmpty s = true ∧ participants s ≠ [] := by decide
theorem hyp_waveStop :
    running.wvc.climb = .held ∧ (climbing .dwell).wvc.climb = .dwell ∧ (climbing .settle).wvc.climb = .settle
    ∧ participants (inPhase .drive) ≠ [] ∧ running.wvc.view ≠ .halted ∧ (inPhase .drive).wvc.ending = none := by decide
theorem hyp_wavePowerDown :
    (inPhase .drive).wvc.recoveryWindows = [] ∧ inWave (inPhase .drive) = true ∧ inWave running = false
    ∧ (∀ st, (recordOf running st).retirePending = none) ∧ running.wvc.countsDirty = false := by decide
theorem hyp_climbDirective :
    running.wvc.holds.getLsbD 5 = false
    ∧ ({ running.wvc with holds := 0x20#6 }).holds.getLsbD 5 = true ∧ running.psv.state = .run
    ∧ (inState .stopping running).psv.state = .stopping
    ∧ idleInConfig.psv.state ≠ .run ∧ idleInConfig.psv.state ≠ .stopping ∧ running.wvc.view ≠ .halted := by decide

/-- The running part with station 7 BARRED. -/
def barred : State := setRecord running 7 { active 40 with service := .barred, marks := 3 }

theorem hyp_requalify :
    64 ≤ (64 : Word).toNat ∧ ¬ 64 ≤ (63 : Word).toNat ∧ 65535 < (65536 : Word).toNat ∧ (65535 : Word).toNat ≤ 65535
    ∧ (recordOf running 63).service = .absent ∧ (recordOf running 0).service = .active
    ∧ (recordOf barred 7).service = .barred ∧ inWave barred = false
    ∧ inWave { barred with wvc := { barred.wvc with climb := .drive } } = true := by decide
theorem hyp_requalify_band :
    (∀ x, (recordOf barred x).service = .active → (41 : Int) < effectiveCount barred x + 2)
    ∧ (∃ x, (recordOf barred x).service = .active ∧ effectiveCount barred x ≤ 41)
    ∧ ¬ ∀ x, (recordOf barred x).service = .active → (42 : Int) < effectiveCount barred x + 2 := by decide
theorem hyp_retire :
    (recordOf running 63).service = .absent ∧ (recordOf running 7).service = .active
    ∧ (recordOf (setRecord running 7 { active 40 with service := .retired }) 7).service = .retired
    ∧ isParticipant (inPhase .drive) 0 = true ∧ (recordOf (inPhase .drive) 0).retirePending = none
    ∧ (recordOf (setRecord (inPhase .drive) 0 { active 40 with retirePending := some 3 }) 0).retirePending ≠ none
    ∧ isParticipant running 7 = false := by decide
theorem hyp_requalify_done :
    barred.wvc.ending = none ∧ (∀ d ∈ barred.wvc.drains, d.purpose = .discard) ∧ (judging .held none [⟨7, .barSettle⟩]).wvc.drains ≠ []
    ∧ (judging .held (some .powerDown) []).wvc.ending ≠ none := by decide
theorem test_a_requalified_station_is_told :
    (after (.requalify 3 7 41) barred).mail = [.strayReset 7, .faultReset 7, .restValve 7, .countsChanged,
      .orderOutcome 3 (.outcome .done 0)] := by decide
theorem hyp_retire_short :
    let s := { climbing .dwell with psv := { running.psv with rig := { rig with minActive := 4 } } }
    isParticipant s 0 = false ∧ (recordOf s 0).service = .active ∧ used s (sectorOf 0) = true
    ∧ ((stationsOf (sectorOf 0)).filter fun x =>
      decide (x ≠ 0) && decide ((recordOf s x).service = .active)).length < s.psv.rig.minActive ∧ s.wvc.climb = .dwell
    ∧ (recordOf barred 7).service = .barred ∧ isParticipant barred 7 = false := by decide
theorem test_a_retirement_that_leaves_its_sector_short_holds_the_climb :
    let s := { climbing .dwell with psv := { running.psv with rig := { rig with minActive := 4 } } }
    let t := after (.retire 3 0) s
    t.wvc.holds = 0x10#6 ∧ t.mail = [.drainQueue 0, .closeWindow 0, .offValve 0, .attentionSetRequest .hold, .countsChanged,
      .orderOutcome 3 (.outcome .done 0)] := by decide
theorem hyp_clearEvents :
    512 ≤ (512 : Word).toNat ∧ (511 : Word).toNat < 512 ∧ 16 ≤ (16 : Word).toNat ∧ (15 : Word).toNat < 16
    ∧ 32 ≤ (32 : Word).toNat ∧ (31 : Word).toNat < 32 ∧ running.ltr.view ≠ .halted ∧ running.exc.view ≠ .halted := by decide

/-! ### Level probes -/

/-- The running part with this transaction. -/
def polling (t : Transaction) : State := { running with lbp := { running.lbp with transaction := t, settleHold := none } }

theorem hyp_transactions :
    nextPoll running = some 0 ∧ running.lbp.transaction = .idle ∧ polls running.lbp.view = true
    ∧ nextPoll idleInConfig = none ∧ polls .bench = false
    ∧ nextPoll { running with lbp := { running.lbp with pollPosition := some 7 } } = some 0
    ∧ nextPoll { running with lbp := { running.lbp with pollPosition := some 3 } } = some 4
    ∧ (polling (.query 0)).lbp.transaction = .query 0 ∧ (polling (.retry 0)).lbp.transaction = .retry 0 := by decide
theorem hyp_replies :
    (polling (.await 7 .first 0)).lbp.transaction = .await 7 .first 0 ∧ (polling (.await 7 .first 0)).lbp.settleHold = none
    ∧ running.lbp.settleHold ≠ none ∧ judgeReply 7 [] false = none ∧ judgeReply 7 [0xA5#8] true = none := by decide
theorem hyp_replies_idle (x : Station) (b : Attempt) (w : Word) : running.lbp.transaction ≠ .await x b w := by
  simp [running, inState, idleInConfig, State.reset, Lbp.reset]
theorem hyp_misses :
    (polling (.await 7 .second 0)).lbp.transaction = .await 7 .second 0 ∧ (fittedStations running).getLast? = some 7
    ∧ running.lbp.roundHeard = false ∧ running.lbp.probeBus = false ∧ (fittedStations running).getLast? ≠ some 0 := by decide
theorem hyp_deviationCheck :
    isFresh deviating 4 = true ∧ isActive deviating 4 = true ∧ deviating.psv.state = .run
    ∧ 4 ≤ (comparedStations deviating).length
    ∧ (comparedStations deviating).length * deviating.psv.rig.probeTolerance
        < (scaledDifference deviating (comparedStations deviating) 4).natAbs
    ∧ ¬ (comparedStations deviating).length * deviating.psv.rig.probeTolerance
        < (scaledDifference deviating (comparedStations deviating) 2).natAbs
    ∧ deviating.lbp.episodes[(4 : Station)] = false := by decide
theorem hyp_deviationCheck_open :
    let s := setEpisode 4 true deviating
    isFresh s 4 = true ∧ s.lbp.episodes[(4 : Station)] = true := by decide
theorem hyp_deviationCheck_otherwise :
    isActive (setRecord deviating 4 { active 41 with service := .barred }) 4 = false
    ∧ (inState .config deviating).psv.state ≠ .run
    ∧ isFresh (setRecord deviating 4 { active 41 with service := .barred }) 4 = true := by decide

theorem test_no_deviation_check_is_made_once_a_stop_is_taken :
    (checkDeviation 4 (after .stop deviating)).mail = (after .stop deviating).mail := by decide

/-! ### Layers -/

theorem hyp_countsChanged :
    acting running = true ∧ running.ltr.view ≠ .halted ∧ used running 1 = true ∧ activeIn running 1 ≠ []
    ∧ used running 2 = false ∧ running.ltr.openings[(1 : Sector)] = [] := by decide
theorem hyp_countsChanged_nothing :
    let s := after .countsChanged running
    ∀ k, formBottom (after .countsChanged s) k = formBottom s k := by decide
theorem hyp_feedView_wants :
    let s := { running with ltr := { running.ltr with feedMask := 3 } }
    used s 0 = true ∧ s.ltr.feedMask.getLsbD 0 = true ∧ (s.psv.rig.minLayer : Int) ≤ fillDepth s 0 - s.psv.rig.targetFill
    ∧ (stackOf s 0).length < 10 ∧ 10 ≤ (stackOf (stacked (List.replicate 10 (layer 0 1))) 0).length := by decide
/-- A plan for 300 L of slot 7 in sector 0. -/
def plan (k : PlanKind) : Plan := ⟨0, 7, 0, 0, k⟩
theorem hyp_pourPlan_refused :
    (planning (some (plan (.new 0))) [] []).ltr.plan ≠ none ∧ used running 2 = false := by decide
theorem hyp_pourPlan_merges :
    topConcrete (stacked [layer 0 100]) 0 = some ⟨7, 0, 0, 0, 0, false⟩ ∧ (stacked [layer 0 100]).ltr.plan = none
    ∧ (600 - 0 : Word).toNat ≤ (stacked [layer 0 100]).psv.rig.mergeWindow := by decide
theorem hyp_pourPlan_new :
    topConcrete running 0 = none ∧ (stackOf running 0).length < 10 ∧ used running 0 = true ∧ running.ltr.plan = none := by
  decide
theorem hyp_placement :
    let s := planning (some (plan (.new 0))) [] []
    s.ltr.plan = some ⟨0, 7, 0, 0, .new 0⟩ ∧ s.ltr.openings[(0 : Sector)] = []
    ∧ (planning (some (plan (.merge 0))) [] [layer 0 100]).ltr.plan = some ⟨0, 7, 0, 0, .merge 0⟩
    ∧ (plan (.new 0)).sector ≠ 1 := by decide
theorem hyp_addOpening :
    16 ≤ (16 : Word).toNat ∧ ¬ 16 ≤ (15 : Word).toNat ∧ used running 15 = false ∧ used running 0 = true
    ∧ (100 : Word).toInt ≤ (100 : Word).toInt ∧ (1200 : Int) < (1201 : Word).toInt - 0
    ∧ (-1 : Word).toInt < fillTop running 0 ∧ fillTop running 0 ≤ (0 : Word).toInt
    ∧ fillTop running 0 < (1 : Word).toInt := by decide
theorem hyp_addOpening_full :
    let s := planning none [⟨10, 20⟩, ⟨30, 40⟩] []
    2 ≤ (s.ltr.openings[(0 : Sector)]).length ∧ (planning none [⟨10, 20⟩] []).ltr.openings[(0 : Sector)] = [⟨10, 20⟩]
    ∧ (10 : Int) < 15 ∧ (15 : Int) < 20 := by decide
theorem hyp_dropOpening :
    let s := planning none [⟨10, 20⟩, ⟨30, 40⟩] []
    s.ltr.openings[(0 : Sector)] = [⟨10, 20⟩, ⟨30, 40⟩] ∧ (planning none [⟨10, 20⟩] []).ltr.openings[(0 : Sector)] = [⟨10, 20⟩]
    ∧ 2 ≤ (2 : Word).toNat ∧ (running.ltr.openings[(15 : Sector)]).length ≤ (0 : Word).toNat := by decide
theorem hyp_dropOpening_sound : stacksSound (planning none [⟨10, 20⟩, ⟨30, 40⟩] []) := by
  refine fun k => ⟨by revert k; decide, by revert k; decide, ?_⟩
  rintro ⟨p, i, h, _⟩; simp [planning] at h

/-! ### Feed -/

theorem hyp_arbiter_notFree :
    running.fds.flow = 0 ∧ running.fds.line = [] ∧ idleInConfig.fds.view ≠ .run ∧ idleInConfig.psv.state ≠ .run
    ∧ (withGate (.drop 0 gateRun)).fds.gate ≠ .idle := by decide
theorem hyp_arbiter_head :
    let s := feeding batch
    s.fds.gate = .idle ∧ s.fds.plan = .none ∧ s.fds.view = .run ∧ s.psv.state = .run ∧ s.fds.paused = false
    ∧ 0 < s.fds.flow ∧ s.fds.line = 7 :: [] ∧ batchOf s 7 = some batch ∧ s.ltr.view ≠ .halted ∧ batch.toWaste = false
    ∧ ¬ (s.psv.rig.mixes[(0 : MixClass)]).maxPlacement ≤ (s.tmb.siteSeconds - batch.origin).toNat := by decide
theorem hyp_arbiter_aged :
    ((feeding batch).psv.rig.mixes[(0 : MixClass)]).maxPlacement ≤ ((600 : Word) - batch.origin).toNat
    ∧ { batch with toWaste := true }.toWaste = true := by decide
theorem hyp_arbiter_remainder :
    let r := { batch with remaining := 224, lastPortion := some 0, entries := [⟨0, .new, 76, 0, none⟩] }
    r.lastPortion = some 0 ∧ r.entries[0]? = some ⟨0, .new, 76, 0, none⟩
    ∧ r.remaining < (feeding r).psv.rig.minLayer * (feeding r).psv.rig.areas[(0 : Sector)] / 100
    ∧ (batch.lastPortion = none) := by decide
theorem hyp_arbiter_candidate :
    let s := { feeding batch with ltr := { running.ltr with feedMask := 3 } }
    (firstCandidate (candidates s 7 batch)).map Prod.fst = some 0 ∧ candidates (feeding batch) 7 batch = [] := by decide
/-- A plan asked for in sector 0. -/
def asked (remainder : Bool) : State :=
  { feeding batch with fds := { (feeding batch).fds with plan := .asked 0 7 300 remainder } }
theorem hyp_planAnswer :
    (asked true).fds.plan = .asked 0 7 300 true ∧ (asked true).fds.gate = .idle ∧ (asked true).fds.view = .run
    ∧ (asked true).psv.state = .run ∧ (asked true).fds.paused = false ∧ 0 < (asked true).fds.flow ∧ (asked true).fds.line.head? = some 7
    ∧ batchOf (asked true) 7 = some batch ∧ (asked false).fds.owesReport = false
    ∧ ({ asked true with fds := { (asked true).fds with paused := true } }).fds.paused ≠ false := by decide
theorem hyp_gateCloses :
    (withGate (.drop 0 gateRun)).fds.gate = .drop 0 gateRun ∧ gateRun.passed = none
    ∧ (withGate (.waste gateRun .aged)).fds.gate = .waste gateRun .aged ∧ gateRun.volume = batch.remaining
    ∧ batchOf (withGate (.waste gateRun .aged)) gateRun.slot = some batch ∧ { gateRun with passed := some 0 }.passed ≠ none := by
  decide
theorem hyp_placementAnswer :
    let s := withGate (.drop 0 { gateRun with passed := some 300 })
    s.fds.gate = .drop 0 { gateRun with passed := some 300 } ∧ batchOf s 7 = some batch ∧ s.fds.view ≠ .halted := by decide
theorem hyp_feedStops :
    running.fds.gate = .idle ∧ running.fds.plan = .none ∧ (asked false).fds.plan ≠ .none
    ∧ (withGate (.drop 0 gateRun)).fds.gate = .drop 0 gateRun := by decide
theorem hyp_cancelBatch :
    48 ≤ (48 : Word).toNat ∧ ¬ 48 ≤ (47 : Word).toNat ∧ batchOf running 47 = none ∧ batchOf (feeding batch) 7 = some batch
    ∧ (feeding batch).fds.line.head? = some 7 ∧ batch.state = .lined
    ∧ { batch with state := .pouring }.state = .pouring ∧ { batch with state := .casting }.state ≠ .lined
    ∧ ({ (feeding batch).fds with line := [3, 7] }).line.head? ≠ some 7 := by decide
theorem hyp_exitNotice :
    let r := { batch with remaining := 0, entries := [⟨0, .new, 300, 0, none⟩] }
    batchOf (feeding r) 7 = some r ∧ r.entries[0]? = some ⟨0, .new, 300, 0, none⟩
    ∧ (r.entries.modify 0 fun x => { x with exit := some 9 }) = [⟨0, .new, 300, 0, some 9⟩]
    ∧ batchOf running 7 = none := by decide
/-- A request that passes every check. -/
def request : BatchRequest := ⟨5, 300, 0, 0, 3⟩
/-- The running part with slot 7 posted. -/
def posted : State := { running with exc := { running.exc with batchImages := put running.exc.batchImages 7 .posted } }
theorem hyp_handover :
    stillPosted (took (.batchHandover 7 request) posted) 7 = true ∧ posted.fds.line.length < 4
    ∧ 4 ≤ ({ posted.fds with line := [0, 1, 2, 3] }).line.length
    ∧ posted.fds.lastPost.toNat < request.postNumber.toNat ∧ ¬ posted.fds.lastPost.toNat < (0 : Word).toNat
    ∧ 50 ≤ (50 : Word).toNat ∧ ¬ 50 ≤ (49 : Word).toNat ∧ (12000 : Word).toNat ≤ 12000 ∧ ¬ (7201 : Word).toNat ≤ 7200
    ∧ 4 ≤ (4 : Word).toNat ∧ ((0 : MixClass).1 = request.mixClass.toNat) := by decide
/-- Slot 7 and these slots posted, these waiting to be handed over. -/
def queued (cs : List BatchSlot) : State :=
  { posted with exc := { posted.exc with candidates := cs, batchImages := put posted.exc.batchImages 3 .posted } }
theorem hyp_handover_goesOn :
    (queued [5, 3, 9]).exc.candidates = [5] ++ 3 :: [9] ∧ (queued [5, 3, 9]).exc.batchImages[(5 : BatchSlot)] ≠ .posted
    ∧ (queued [5, 3, 9]).exc.batchImages[(3 : BatchSlot)] = .posted ∧ (queued [5, 3, 9]).mail = []
    ∧ (queued [5, 3, 9]).exc.batchImages[(7 : BatchSlot)] = .posted ∧ (queued [5]).exc.candidates = [5]
    ∧ acting (queued []) = true ∧ (queued []).fds.view ≠ .halted := by decide
theorem test_the_next_candidate_follows_a_take_and_a_refusal :
    (after (.batchHandover 7 request) (queued [3])).mail.getLast? = some (.batchHandover 3 ⟨0, 0, 0, 0, 0⟩)
    ∧ (after (.batchHandover 7 { request with volume := 1 }) (queued [3])).mail.getLast?
      = some (.batchHandover 3 ⟨0, 0, 0, 0, 0⟩) := by decide
theorem test_a_take_tries_the_arbiter :
    let s := { queued [] with
      fds := { posted.fds with flow := 300 }, ltr := { posted.ltr with feedMask := 3 } }
    (after (.batchHandover 7 request) s).fds.plan ≠ .none := by decide
theorem hyp_handover_named :
    (∃ k, used posted k = true ∧ request.destination.getLsbD k.1 = true)
    ∧ (¬ ∃ k, used posted k = true ∧ (4 : BitVec 16).getLsbD k.1 = true)
    ∧ (posted.psv.rig.mixes[(0 : MixClass)]).maxPlacement ≤ (600 : Word).toNat
    ∧ request.ageAtPost.toNat < (posted.psv.rig.mixes[(0 : MixClass)]).maxPlacement := by decide

/-! ### The exchange -/

theorem hyp_hostWrite :
    windowCanonical running ∧ 0x8000 ≤ 0x8000 ∧ 2 % 4 ≠ 0 ∧ 0x7FFC < 0x8000 ∧ 0x7FFC % 4 = 0 ∧ inUnused 0x300 = true := by
  unfold windowCanonical Memory.wf; decide
/-- A report with one portion entry. -/
def report : BatchReport := ⟨.none, 9, 76, 0, 224, .none, true, [⟨2, .merged, 76, 11, some 12⟩]⟩
theorem hyp_slotWrite_entries :
    windowCanonical running ∧ report.entries[0]? = some ⟨2, .merged, 76, 11, some 12⟩ ∧ report.entries.length ≤ 1 ∧ (1 : Nat) < 8 := by
  unfold windowCanonical Memory.wf; decide
theorem test_a_portion_entry_is_laid_out :
    let m := (after (.slotWriteRequest (.batch 1 none report)) running).window
    [readWord m 0x93C, readWord m 0x940, readWord m 0x944, readWord m 0x948, readWord m 0x94C, readWord m 0x950, readWord m 0x954]
      = [1, 2, 0x102, 76, 11, 12, 0] := by decide
theorem hyp_hostWrite_unused :
    running.power ≠ .off ∧ inUnused 0x300 = true ∧ inUnused 0x3FC = true ∧ inUnused 0x400 = false ∧ inUnused 0x5FC = false
    ∧ inUnused 0x600 = true ∧ inUnused 0x7FC = true ∧ inUnused 0x800 = false ∧ inUnused 0x37FC = false
    ∧ inUnused 0x3800 = true ∧ inUnused 0x3FFC = true ∧ inUnused 0x4000 = false := by decide
theorem hyp_slotWrite : acting running = true ∧ running.exc.view ≠ .halted ∧ BatchState.lined ≠ .spent := by decide
theorem hyp_scan :
    exchanges (bench .pass .done).psv.state = false ∧ exchanges running.psv.state = true ∧ running.exc.clearStage = .none
    ∧ running.exc.batchImages[(0 : BatchSlot)] = .free ∧ readWord (writeWord [] 0x800 1) (batchBase 0) = 1
    ∧ readWord (writeWord [] 0x800 2) (batchBase 0) ≠ batchStateCode .free := by decide
theorem hyp_directive :
    let m := writeWord (writeWord [] 0x200 1) 0x2FC 1
    readWord m 0x200 = readWord m 0x2FC ∧ readWord m 0x200 ≠ 0 ∧ badDirectiveField m = none
    ∧ badDirectiveField (writeWord m 0x204 2) = some 1 ∧ badDirectiveField (writeByte m 0x257 5) = some 69
    ∧ ¬ readWord [] 0x200 ≠ 0 := by decide
theorem hyp_publish :
    running.exc.publication = none ∧ running.exc.clearStage = .none ∧ running.exc.deferred = false
    ∧ { running.exc with publication := some 1 }.publication = some 1 ∧ windowCanonical running := by
  unfold windowCanonical Memory.wf; decide
theorem hyp_publicationEnd :
    running.exc.attnPace ≠ 0 ∧ running.exc.attnPace ≤ running.exc.postscaler + 1
    ∧ running.exc.postscaler + 1 < { running.exc with attnPace := 2 }.attnPace := by decide

/-! ## The hypotheses of the widened obligations are met -/

/-- The part in which WAVE_POWER_DOWN waits for the scan's last row, with these messages. -/
def scanEnding (mail : List Instr) (s : State) : State := { s with ssu := { s.ssu with scan := .ending }, mail := mail }

theorem hyp_stepWhileAMessageWaits :
    (scanEnding [.wavePowerDown, .wake] running).mail = [.wavePowerDown] ++ .wake :: []
    ∧ (scanEnding [.wavePowerDown] running).ssu.scan = .ending ∧ Instr.wake ≠ .wavePowerDown
    ∧ due (scanEnding [.wavePowerDown] running) = some .transactionBegin
    ∧ due (scanEnding [.wavePowerDown] idleInConfig) = none ∧ running.ssu.scan ≠ .ending := by decide

theorem hyp_clearNoticesWait :
    let s (b : Block) := { idleInConfig with mail := [.clearNotice b, .slotWriteRequest (.batch 7 none batch.report)] }
    settlingWaits (s .fds) = true ∧ nextMessage (s .exc) = some (.slotWriteRequest (.batch 7 none batch.report))
    ∧ nextMessage { s .exc with mail := [.clearNotice .exc] } = some (.clearNotice .exc) := by decide

/-- The running part with this done to its Wave Controller. -/
def waving (f : Wvc → Wvc) : State := { running with wvc := f running.wvc }

theorem hyp_due_ramps_and_waves :
    due (atTime 600 (valve ⟨.opening, 0, 200, some ⟨0, 0, 600⟩, false, 0⟩)) = some (.rampEnd 9)
    ∧ due (atTime 8000 (waving fun w => { w with climb := .drive, driveTimer := some ⟨0, 8000⟩ })) = some .driveTimerExpiry
    ∧ due (atTime 6000 (waving fun w => { w with climb := .settle, settleTimer := some ⟨0, 6000⟩ })) = some .settleTimerExpiry
    ∧ due (atTime 400 (waving fun w => { w with climb := .settle, fallTimer := some ⟨0, 400⟩ })) = some .fallTimerExpiry
    ∧ due (waving fun w => { w with climb := .dwell, dwell := 150000, values := { w.values with riseRate := 600 } })
        = some .dwellExpiry
    ∧ due (waving fun w => { w with climb := .dwell, dwell := 149999, values := { w.values with riseRate := 600 } })
        ≠ some .dwellExpiry := by decide
theorem hyp_due_gates_and_the_supervisor :
    due (atTime 60000 (withGate (.drop 0 gateRun))) = some .gateClose
    ∧ due (atTime 60000 (withGate (.waste gateRun .aged))) = some .wasteGateClose
    ∧ due (atTime 10000 (inState .recovery { running with psv := { running.psv with
        recovery := .settling, recoveryTimer := some ⟨0, 10000⟩ } })) = some .recoveryWindowExpiry
    ∧ due (atTime 200 (inState .powerDown { running with psv := { running.psv with monitor := .wait, goodTimer := some 0 } }))
        = some .returnOfGoodSupply
    ∧ due (atTime 2000 (bench .running (.lampTest 0))) = some .lampTestExpiry := by decide

/-- The running part with this done to its poller, the exchange timers and the lamps' times set. -/
def probing (f : Lbp → Lbp) (e : Exc → Exc) : State :=
  { running with
    lbp := f { running.lbp with settleHold := none, lastEnd := some 100 }
    exc := e { running.exc with scanTimer := none, publishTimer := none } }

theorem hyp_due_the_poller :
    due (atTime 2000 (probing (fun l => { l with settleHold := some 0 }) id)) = some .settleHoldEnd
    ∧ due (atTime 0x80000000 (probing (fun l => { l with readings := put l.readings 3 (some ⟨0, .good, 0, false⟩) }) id))
        = some (.readingMadeAbsent 3)
    ∧ due (atTime 4 (probing (fun l => { l with transaction := .await 0 .first 0 }) id)) = some .replyTimeout
    ∧ due (atTime 5 (probing (fun l => { l with transaction := .await 0 .first 0, incoming := some ⟨3, [0xA5#8]⟩ }) id))
        = some .replyTimeout
    ∧ due (atTime 101 (probing id id)) = some .transactionBegin := by decide
theorem hyp_due_the_exchange_and_the_lamps :
    due (atTime 100 (probing id fun e => { e with scanTimer := some 0 })) = some .exchangeScan
    ∧ due (atTime 100 (probing id fun e => { e with publishTimer := some ⟨0, 100⟩ })) = some .publishTimerExpiry
    ∧ due (atTime 1000 { idleInConfig with exc := { idleInConfig.exc with scanTimer := none, publishTimer := none } })
        = some (.lampFlashToggle .green)
    ∧ (lampOf idleInConfig .green).pattern = .slow
    ∧ (lampOf (refreshLamps (inState .stopping running)) .green).pattern = .fast := by decide
theorem hyp_startRefitsThePoller :
    idleInConfig.psv.rig.fitted ≠ (rigPage pageWindow).fitted ∧ rig.fitted = (rigPage pageWindow).fitted
    ∧ fittedIn (rigPage pageWindow).fitted 7 = true ∧ fittedIn (rigPage pageWindow).fitted 8 = false := by decide

/-! ### Resets -/

/-- The running part with the power-down actions going on, a reset waiting and the reports at hand. -/
def inActionsWith (r : Option DeferredReset) (waves feed : Bool) : State :=
  inState .powerDown { running with psv := { running.psv with
    monitor := .actions, deferredReset := r, waveDone := waves, feedDone := feed } }

theorem hyp_resetInActions_waits :
    inActions (inActionsWith none false false) = true
    ∧ (inActionsWith (some (.line none)) false false).psv.deferredReset = some (.line none)
    ∧ (inActionsWith (some .command) false true).psv.deferredReset = some .command
    ∧ (inActionsWith none false false).psv.control.waiting = false
    ∧ settlingWaits (took .powerDownActionsDone (inActionsWith (some .command) false true)) = false
    ∧ settlingWaits (took .feedStopped (inActionsWith (some (.line (some true))) true false)) = false
    ∧ (inActionsWith none true true).psv.dying = false ∧ running.psv.deferredReset ≠ some (.line none)
    ∧ acting (inActionsWith (some .command) false true) = true := by decide
theorem hyp_resetOfEveryKind :
    ({ running with storeFails := some .read }).storeFails = some .read ∧ running.storeFails = none
    ∧ running.mail = [] ∧ inWave running = false
    ∧ (∀ st, (recordOf running st).retirePending = none) := by decide
theorem hyp_resetWithAnActiveStation : (recordOf (resetNow running) 0).service = .active :=
  (by decide : ∀ high, (recordOf (resetAndRelease high running) 0).service = .active) _
theorem hyp_resetWithNoActiveStation :
    let s := { running with wvc := { running.wvc with table := Vector.replicate 64 StationRecord.blank } }
    s.psv.jobMark = true ∧ ∀ st, (recordOf (resetNow s) st).service ≠ .active :=
  (by decide : let s := { running with wvc := { running.wvc with table := Vector.replicate 64 StationRecord.blank } }
    ∀ high, s.psv.jobMark = true ∧ ∀ st, (recordOf (resetAndRelease high s) st).service ≠ .active) _
theorem hyp_resetFindsTheStrap (s : State) :
    Config.strapHighAtReset s.resetReads = true ∨ Config.strapHighAtReset s.resetReads = false := by
  cases Config.strapHighAtReset s.resetReads <;> simp
theorem test_a_reset_out_of_bench_goes_by_the_strap_it_finds :
    let s := inState .bench { running with strap := true }
    (resetAndRelease false s).psv.state = .recovery ∧ (resetAndRelease true s).psv.state = .bench
    ∧ (resetAndRelease true s).psv.benchPhase = .lampTest 0 ∧ (resetAndRelease true s).strap = true := by decide

/-- The running part with an adopted scan that stands at this row. -/
def scanning (scan : ScanMode) (row : Fin 8) : State :=
  { sensing windowed with ssu := { (sensing windowed).ssu with scan := scan, adopting := false, position := .row row } }

theorem hyp_rowReadAfterAdoption :
    (scanning .running 0).ssu.scan ≠ .stopped ∧ (scanning .ending 7).ssu.scan = .ending
    ∧ (scanning .ending 7).ssu.position = .row 7 ∧ (scanning .running 0).ssu.adopting = false
    ∧ acting (scanning .running 0) = true ∧ (0 : Fin 8).1 + 1 < 8 ∧ (9 : Station).1 / 8 ≠ (0 : Fin 8).1 := by decide
theorem test_two_stations_of_a_row_are_read_by_themselves :
    (ssuOf (after (.rowRead 0x0A) (scanning .running 0)) 3).run = 1
    ∧ (ssuOf (after (.rowRead 0x0A) (scanning .running 0)) 1).run = 1
    ∧ (ssuOf (after (.rowRead 0x0A) (scanning .running 0)) 0).run = 0 := by decide
theorem test_the_last_row_before_power_down_is_read_and_the_scan_stops :
    (after (.rowRead 0x08) (scanning .ending 0)).ssu.scan = .stopped := by decide

theorem hyp_valve_wake :
    running.vdu.view = .run ∧ running.psv.state = .run ∧ (inState .stopping running).vdu.view = .stopping
    ∧ ({ running with psv := { running.psv with state := .powerDown } }).psv.state ≠ .run
    ∧ ({ running with psv := { running.psv with state := .powerDown } }).vdu.view = .run := by decide
theorem test_a_wake_of_before_the_warning_keeps_the_quiet_flag :
    (after .wake (after .supplyLow { running with vdu := { running.vdu with quiet := false } })).vdu.quiet = true := by decide
theorem hyp_ramps :
    ((channelOf (valve ⟨.closing, 200, 40, some ⟨200, 0, 320⟩, false, 0⟩) 9).ramp = some ⟨200, 0, 320⟩)
    ∧ (320 : Nat) ≤ ((320 : Word) - 0).toNat ∧ ((319 : Word) - 0).toNat < 320 ∧ 40 < 200
    ∧ (⟨.idle, 40, 40, none, false, 0⟩ : Channel).ramp = none
    ∧ (⟨.opening, 40, 200, some ⟨40, 0, 480⟩, false, 0⟩ : Channel).ramp = some ⟨40, 0, 480⟩ ∧ ((1 : Word) - 0).toNat < 480 := by
  decide

/-! ### Notices of the part state, the line, CLEAR -/

theorem hyp_partStateNotice_late :
    (inState .halted running).psv.state = .halted ∧ (inState .powerDown running).psv.state = .powerDown
    ∧ PartState.run ≠ .powerDown ∧ running.psv.state ≠ .halted ∧ running.psv.state ≠ .powerDown
    ∧ acting (inState .halted running) = true
    ∧ (scanning .ending 0).ssu.scan = .ending ∧ (scanning .running 0).ssu.scan ≠ .ending := by decide
theorem hyp_partStateNotice_others :
    running.wvc.holds.getLsbD 5 = false ∧ State.reset.exc.scanTimer ≠ none ∧ running.fds.line = []
    ∧ (inState .halted running).exc.view = .halted ∧ running.exc.view ≠ .halted := by decide
theorem hyp_partStateNotice_valves :
    ¬(inState .powerDown running).psv.state = .halted ∧ Block.vdu = .vdu ∧ Block.ssu ≠ .vdu
    ∧ acting (inState .powerDown running) = true := by decide
theorem test_a_notice_of_config_after_a_warning_closes_the_valves :
    let s := after .supplyLow (inState .stopping (valve ⟨.idle, 40, 40, none, false, 0⟩))
    (channelOf s 9).level = 40 ∧ (channelOf (after (.partStateNotice .vdu .config) s) 9).level = 0 := by decide
theorem test_a_notice_of_run_changes_nothing_in_halted :
    (after (.partStateNotice .fds .run) (inState .halted running)).fds.view = .halted := by decide

theorem hyp_lineReset_inActions :
    (inActionsWith none false false).psv.lineMode = .restart ∧ inActions (inActionsWith none false false) = true := by decide
/-- A wave in SETTLE with RESUME in the hold reasons, or not, and two strays of station 3. -/
def strayed (holds : BitVec 6) : State :=
  let s := setSsu (inPhase .settle) 3 { SsuStation.reset with strays := 2 }
  { s with wvc := { s.wvc with holds := holds } }
theorem hyp_lineHold_windingDown :
    acting (strayed 0x20) = true ∧ (strayed 0x20).wvc.climb = .settle ∧ (strayed 0x20).wvc.holds.getLsbD 5 = true
    ∧ (strayed 0).wvc.holds.getLsbD 5 = false ∧ running.wvc.climb ≠ .drive ∧ running.wvc.climb ≠ .settle := by decide
theorem test_a_second_hold_in_the_wind_down_leaves_the_strays :
    (ssuOf (after (.lineHoldNotice .ssu) (strayed 0x20)) 3).strays = 2
    ∧ (ssuOf (after (.lineHoldNotice .ssu) (strayed 0)) 3).strays = 0 := by decide
theorem hyp_lineReset_cuts :
    let s := withGate (.drop 0 { gateRun with passed := some 300 })
    s.psv.state = .run ∧ (inState .stopping s).psv.state = .stopping ∧ settlingWaits s = false ∧ inWave s = false
    ∧ inActions s = false ∧ s.psv.lineMode = .restart ∧ gateRun.cut = none ∧ gateRun.passed = none
    ∧ ({ gateRun with passed := some 90, cut := some 90 }).cut = some 90
    ∧ (withGate (.waste gateRun .aged)).fds.gate = .waste gateRun .aged ∧ (feeding batch).fds.gate = .idle := by decide
theorem test_a_reset_records_what_has_passed :
    (after .lineResetRestart (atTime 30000 (withGate (.drop 0 gateRun)))).fds.gate
      = .drop 0 { gateRun with passed := some 150, cut := some 150 } := by decide
/-- Station 9 falling to 0 from time 0 on, the climb, the hold reasons and the quiet flag as given. -/
def heldAgain (c : Climb) (holds : BitVec 6) (quiet : Bool) : State :=
  let s := valve ⟨.closing, 200, 0, some ⟨200, 0, 400⟩, false, 0⟩
  { s with wvc := { s.wvc with climb := c, holds := holds }, vdu := { s.vdu with quiet := quiet } }
theorem hyp_lineHold_falling :
    let s := heldAgain .settle 0x20 true
    windingDown s = true ∧ (channelOf s 9).state = .closing ∧ s.vdu.quiet = true ∧ (channelOf s 9).target = 0
    ∧ windingDown (heldAgain .held 0x20 true) = false ∧ windingDown (heldAgain .settle 0 true) = false
    ∧ (channelOf (valve ⟨.closing, 200, 40, some ⟨200, 0, 320⟩, false, 0⟩) 9).target ≠ 0
    ∧ (valve ⟨.closing, 200, 40, some ⟨200, 0, 320⟩, false, 0⟩).vdu.quiet = false := by decide
theorem test_a_second_hold_does_not_prolong_the_fall :
    let s := heldAgain .settle 0x20 true
    channelOf (after (.lineHoldNotice .vdu) (atTime 100 s)) 9 = channelOf s 9 := by decide
theorem test_a_first_hold_replaces_a_fall_to_0_under_the_quiet_flag :
    channelOf (after (.lineHoldNotice .vdu) (atTime 100 (heldAgain .held 0x20 true))) 9
      = ⟨.closing, 150, 0, some ⟨150, 100, 300⟩, false, 0⟩ := by decide
theorem hyp_lineHold_waste :
    (withGate (.waste gateRun .aged)).fds.gate = .waste gateRun .aged
    ∧ batchOf (withGate (.waste gateRun .aged)) gateRun.slot = some batch ∧ (withGate (.waste gateRun .aged)).fds.view ≠ .halted
    ∧ 0 < batch.remaining - min gateRun.volume (gateRun.flow * ((30000 : Word) - gateRun.openedAt).toNat / 60000)
    ∧ batch.remaining - min gateRun.volume (gateRun.flow * ((60000 : Word) - gateRun.openedAt).toNat / 60000) = 0 := by decide
theorem test_a_hold_wastes_what_has_passed :
    (batchOf (after (.lineHoldNotice .fds) (atTime 30000 (withGate (.waste gateRun .aged)))) 7).map
      (fun r => (r.wasted, r.remaining)) = some (150, 150) := by decide

/-- The part in CONFIG clearing, the Exchange Controller at this stage of it. -/
def clearingAt (stage : ClearStage) (p : Option Word) (blocks : List Block) : State :=
  { idleInConfig with
    exc := { idleInConfig.exc with clearStage := stage, publication := p, deferred := false }
    psv := { idleInConfig.psv with clearing := blocks } }

theorem hyp_clearAtTheExchange :
    windowCanonical idleInConfig ∧ (clearingAt .begun none []).exc.publication = none
    ∧ (clearingAt .begun (some 4) []).exc.publication ≠ none
    ∧ (clearingAt .publishing (some 4) []).exc.clearStage = .publishing
    ∧ (clearingAt .publishing (some 4) []).exc.deferred = false ∧ (clearingAt .waiting (some 4) []).exc.clearStage = .waiting
    ∧ (clearingAt .none none [.psv, .exc]).psv.clearing.erase .psv ≠ []
    ∧ (clearingAt .none none [.exc]).psv.clearing.erase .exc = [] ∧ (clearingAt .none none []).psv.clearing = []
    ∧ (inState .halted running).psv.state = .halted := by
  refine ⟨?_, by decide, by decide, by decide, by decide, by decide, by decide, by decide, by decide, by decide⟩
  unfold windowCanonical Memory.wf; decide

/-! ### Supply -/

/-- The running part whose last RECOVERY ended at this site second. -/
def recoveredAt (e : Word) : State := { running with psv := { running.psv with lastRecoveryEnd := some e } }

theorem hyp_supplyLow_repeated :
    (running.tmb.siteSeconds - 0).toNat < 120 ∧ ¬((({ running with tmb := { running.tmb with siteSeconds := 120 } }).tmb.siteSeconds
      - 0).toNat < 120)
    ∧ (recoveredAt 0).psv.lastRecoveryEnd = some 0 ∧ running.psv.lastRecoveryEnd = none
    ∧ (inState .recovery running).psv.state = .recovery ∧ running.psv.repeatedOutage = false
    ∧ (inState .halted running).psv.monitor = .normal ∧ (inActionsWith none false false).psv.monitor = .actions
    ∧ waiting.psv.monitor = .wait := by decide
theorem test_the_warning_cuts_off_a_publication :
    (after .supplyLow { running with mail := [.publicationEnd, .countsChanged] }).mail.head? = some .countsChanged := by decide
theorem hyp_returnOfGoodSupply_cold :
    let s := { waiting with psv := { waiting.psv with jobMark := false } }
    s.psv.jobMark = false ∧ s.psv.goodTimer ≠ none ∧ (recordOf waiting 0).service = .active := by decide
theorem hyp_returnOfGoodSupply_noStation :
    let s := { waiting with wvc := { waiting.wvc with table := Vector.replicate 64 StationRecord.blank } }
    s.psv.jobMark = true ∧ ∀ st, (recordOf s st).service ≠ .active := by decide
theorem hyp_stoppingEnds_second :
    let s := inState .stopping { running with psv := { running.psv with feedStopped := true, waveEnded := true } }
    s.psv.state = .stopping ∧ s.psv.feedStopped = true ∧ s.psv.waveEnded = true := by decide
theorem hyp_powerDownActions_wait :
    let s := { inActionsWith none false true with mail := [.powerDownActionsDone, .countsChanged] }
    inActions s = true ∧ s.psv.feedDone = true ∧ settlingWaits (took .powerDownActionsDone s) = true
    ∧ (inActionsWith none true false).psv.waveDone = true ∧ (inActionsWith none false false).psv.feedDone = false
    ∧ (inActionsWith none false false).psv.waveDone = false
    ∧ settlingWaits (took .feedStopped { inActionsWith none true false with mail := [.feedStopped, .countsChanged] }) = true
    ∧ settlingWaits (took .feedStopped (inActionsWith none true false)) = false := by decide

/-- A part in ACTIONS whose supply has died. -/
def dying (waves feed : Bool) : State :=
  { inActionsWith none waves feed with psv := { (inActionsWith none waves feed).psv with dying := true } }

theorem hyp_powerDownActions_dying :
    (dying false true).psv.dying = true ∧ inActions (dying false true) = true ∧ (dying false true).psv.feedDone = true
    ∧ settlingWaits (took .powerDownActionsDone (dying false true)) = false
    ∧ settlingWaits (took .feedStopped (dying true false)) = false ∧ (dying true false).psv.waveDone = true := by decide
theorem test_power_goes_when_the_actions_are_complete :
    (after .powerDownActionsDone (dying false true)).power = .off
    ∧ (after .supplyDies running).psv.state = .powerDown ∧ (after .supplyDies running).power = .on := by decide

theorem test_a_further_store_error_in_halted_changes_nothing :
    after (.retentionStoreError .read) (inState .halted running) = after .wake (inState .halted running) := by decide

/-- The running part held in reset. -/
def heldBy (cause : ResetCause) : State := { running with power := .held cause }

theorem hyp_storeError_elsewhere :
    dead.power = .off ∧ (heldBy .line).power = .held .line ∧ acting (inState .halted running) = true
    ∧ (inState .halted running).psv.state = .halted ∧ (dying false false).psv.state ≠ .halted
    ∧ acting (dying false false) = true ∧ running.psv.dying = false ∧ running.psv.benchPhase = .none
    ∧ (bench .running .storePass).psv.benchPhase = .storePass := by decide
theorem test_a_store_that_still_fails_halts_the_released_part :
    (after (.resetRelease false) (after (.retentionStoreError .read) (heldBy .line))).psv.state = .halted := by decide
theorem hyp_supplyDies :
    dead.power = .off ∧ (heldBy .powerOn).power = .held .powerOn ∧ running.power = .on ∧ running.psv.monitor = .normal
    ∧ (bench .pass .done).psv.monitor = .normal ∧ (bench .pass .done).psv.state = .bench ∧ waiting.psv.monitor = .wait
    ∧ (dying false false).psv.monitor = .actions ∧ running.psv.state ≠ .bench ∧ running.psv.state ≠ .halted := by decide
theorem hyp_powerOn :
    dead.power = .off ∧ dead.tmb.savedWord = none
    ∧ ({ dead with tmb := { dead.tmb with savedWord := some 7 } }).tmb.savedWord = some 7 ∧ running.power ≠ .off := by decide
theorem hyp_resetRelease :
    dead.power = .off ∧ running.power = .on ∧ (inActionsWith (some (.line none)) false false).power = .on
    ∧ (inActionsWith (some (.line none)) false false).psv.deferredReset = some (.line none)
    ∧ running.psv.deferredReset ≠ some (.line none) ∧ (heldBy .powerOn).storeFails = none
    ∧ ({ heldBy .line with storeFails := some .write }).storeFails = some .write ∧ (heldBy .line).psv.jobMark = true
    ∧ ({ heldBy .line with psv := { (heldBy .line).psv with jobMark := false } }).psv.jobMark = false
    ∧ (∀ st, (recordOf (heldBy .line) st).retirePending = none) := by decide
/-- The part held in reset with this gate record. -/
def heldWith (g : Gate) : State := { withGate g with power := .held .command }
theorem hyp_resetRelease_gates :
    (heldWith (.drop 0 gateRun)).power = .held .command ∧ (heldWith (.drop 0 gateRun)).storeFails = none
    ∧ (heldWith (.drop 0 gateRun)).psv.jobMark = true ∧ (heldWith (.drop 0 gateRun)).fds.gate = .drop 0 gateRun
    ∧ gateRun.cut = none ∧ ({ gateRun with cut := some 90 }).cut = some 90
    ∧ (heldWith (.waste { gateRun with cut := some 90 } .aged)).fds.gate = .waste { gateRun with cut := some 90 } .aged
    ∧ batchOf (heldWith (.waste { gateRun with cut := some 90 } .aged)) gateRun.slot = some batch
    ∧ (heldBy .line).fds.gate = .idle := by decide
theorem test_a_close_that_halted_overtook_is_placed_with_0 :
    let s := after .gateClose (withGate (.drop 0 gateRun))
    let t := after (.resetRelease false) (after .lineResetRestart (after (.retentionStoreError .read) s))
    s.mail = [.placement 0 7 300] ∧ t.mail.head? = some (.placement 0 7 0) := by decide
theorem hyp_resetRelease_active : (recordOf (after (.resetRelease false) (heldBy .line)) 0).service = .active := by decide
theorem hyp_resetRelease_noStation :
    let s := { heldBy .line with wvc := { running.wvc with table := Vector.replicate 64 StationRecord.blank } }
    ∀ st, (recordOf (after (.resetRelease false) s) st).service ≠ .active := by decide
theorem hyp_restartCheck_ofFour :
    4 ≤ (comparedStations deviating).length
    ∧ (∀ st ∈ comparedStations deviating, (recordOf deviating st).inDoubt = false)
    ∧ (4 ∈ comparedStations deviating ∧ (comparedStations deviating).length * deviating.psv.rig.probeTolerance
        < (scaledDifference deviating (comparedStations deviating) 4).natAbs)
    ∧ ¬(0 ∈ comparedStations deviating ∧ (comparedStations deviating).length * deviating.psv.rig.probeTolerance
        < (scaledDifference deviating (comparedStations deviating) 0).natAbs)
    ∧ (9 : Station) ∉ comparedStations deviating ∧ deviating.wvc.countsDirty = false := by decide
theorem hyp_restartCheck_within :
    let s := { deviating with psv := { deviating.psv with rig := { rig with probeTolerance := 50 } } }
    4 ≤ (comparedStations s).length ∧ ∀ st, ¬(st ∈ comparedStations s
      ∧ (comparedStations s).length * s.psv.rig.probeTolerance < (scaledDifference s (comparedStations s) st).natAbs) := by
  decide

/-! ### Judgements -/

theorem hyp_firstOfKind_lastRetract :
    let s := setItem (inPhase .settle) 1 { WaveItem.clear with participant := true }
    (itemOf s 0).participant = true ∧ (itemOf s 0).awaited = true ∧ s.wvc.climb = .settle ∧ s.wvc.fallTimer = none
    ∧ s.wvc.ending = none ∧ ¬∃ x, x ≠ 0 ∧ (itemOf s x).participant = true ∧ (itemOf s x).awaited = true := by decide
theorem hyp_firstOfKind_settle :
    let s := { inPhase .settle with wvc := { (inPhase .settle).wvc with fallTimer := some ⟨0, 400⟩ } }
    s.wvc.climb = .settle ∧ s.wvc.fallTimer ≠ none ∧ (itemOf s 0).awaited = true
    ∧ ∃ x, x ≠ 0 ∧ (itemOf s x).participant = true ∧ (itemOf s x).awaited = true := by decide

/-- A phase end in which stations 0 and 1 have still to be judged, station 0 with these items and this record. -/
def judged (e : WaveEnding) (p : DrainPurpose) (i : WaveItem) (r : StationRecord) : State :=
  setRecord (setItem (judging .settle (some e) [⟨0, p⟩, ⟨1, p⟩]) 0 i) 0 r

theorem hyp_driveJudgement_rows :
    let s := judged .driveEnd .driveEnd { WaveItem.clear with participant := true } (active 40)
    (s.wvc.drains.find? fun d => decide (d.station = 0)) = some ⟨0, .driveEnd⟩ ∧ s.wvc.ending = some .driveEnd
    ∧ ((s.wvc.drains.erase ⟨0, .driveEnd⟩).any fun d => decide (d.purpose = .driveEnd)) = true
    ∧ (itemOf s 0).participant = true ∧ (itemOf s 0).unreported = false ∧ (recordOf s 0).service = .active
    ∧ (recordOf s 0).marks < 2 ∧ s.wvc.view ≠ .halted
    ∧ [(⟨.retract, 1⟩ : EdgeRecord), ⟨.extend, 2⟩, ⟨.retract, 3⟩] = [⟨.retract, 1⟩] ++ ⟨.extend, 2⟩ :: [⟨.retract, 3⟩]
    ∧ (∀ e ∈ [(⟨.retract, 1⟩ : EdgeRecord)], e.kind = .retract) := by decide
theorem hyp_driveJudgement_others :
    (itemOf (judged .driveEnd .driveEnd { WaveItem.clear with participant := true, unreported := true } (active 40)) 0).unreported
      = true
    ∧ (recordOf (judged .driveEnd .driveEnd WaveItem.clear { active 40 with marks := 2 }) 0).marks = 2
    ∧ (itemOf (judged .driveEnd .driveEnd WaveItem.clear { active 40 with marks := 2 }) 0).participant = false
    ∧ (recordOf (judged .driveEnd .driveEnd WaveItem.clear { active 40 with service := .barred }) 0).service ≠ .active := by
  decide
theorem test_a_missing_station_that_ends_with_a_retract_is_noted :
    let t := after (.drainAnswer 0 [⟨.retract, 5⟩] false)
      (judged .driveEnd .driveEnd { WaveItem.clear with participant := true } (active 40))
    (itemOf t 0).verdict = some .missing ∧ (itemOf t 0).retracted = true ∧ (recordOf t 0).events = 5 := by decide
theorem test_a_station_barred_meanwhile_is_judged_with_the_others :
    let t := after (.drainAnswer 0 [⟨.extend, 5⟩, ⟨.retract, 6⟩] false)
      (judged .driveEnd .driveEnd WaveItem.clear { active 40 with service := .barred })
    recordOf t 0 = { active 41 with service := .barred, lastStroke := some 5, events := 4 }
    ∧ (itemOf t 0).verdict = some .extended := by decide
theorem hyp_settleJudgement_rows :
    let s (v : Verdict) (r : Bool) := judged .settleEnd .settleEnd
      { WaveItem.clear with participant := true, verdict := some v, retracted := r } (active 40)
    ((s .extended false).wvc.drains.find? fun d => decide (d.station = 0)) = some ⟨0, .settleEnd⟩
    ∧ (s .extended false).wvc.ending = some .settleEnd
    ∧ (((s .extended false).wvc.drains.erase ⟨0, .settleEnd⟩).any fun d => decide (d.purpose = .settleEnd)) = true
    ∧ (itemOf (s .extended false) 0).verdict = some .extended ∧ (itemOf (s .extended false) 0).retracted = false
    ∧ (itemOf (s .extended true) 0).retracted = true ∧ (itemOf (s .missing false) 0).verdict = some .missing
    ∧ (itemOf (s .inDoubt false) 0).verdict = some .inDoubt ∧ (itemOf (s .missing false) 0).participant = true := by decide
theorem hyp_settleJudgement_barred :
    let s := judged .settleEnd .settleEnd { WaveItem.clear with verdict := some .missing } { active 40 with service := .barred }
    (itemOf s 0).participant = false ∧ (itemOf s 0).verdict = some .missing
    ∧ (recordOf s 0).service ≠ .active
    ∧ (recordOf (judged .settleEnd .settleEnd WaveItem.clear { active 40 with marks := 2 }) 0).marks = 2 := by decide
theorem hyp_settleJudgement_records :
    [(⟨.extend, 1⟩ : EdgeRecord), ⟨.retract, 2⟩] = [] ++ ⟨.extend, 1⟩ :: [⟨.retract, 2⟩]
    ∧ (∃ w, [(⟨.retract, 2⟩ : EdgeRecord)] = [⟨.retract, w⟩])
    ∧ ¬(∃ w, [(⟨.extend, 2⟩ : EdgeRecord)] = [⟨.retract, w⟩]) := by
  refine ⟨rfl, ⟨2, rfl⟩, ?_⟩
  rintro ⟨w, h⟩; simp at h
theorem test_a_late_stroke_clears_the_doubt_of_an_in_doubt_station :
    recordOf (after (.drainAnswer 0 [⟨.extend, 9⟩, ⟨.retract, 20⟩] false) (judged .settleEnd .settleEnd
      { WaveItem.clear with participant := true, verdict := some .inDoubt } { active 40 with inDoubt := true })) 0
      = { active 41 with lastStroke := some 9 } := by decide

/-- The end of SETTLE with station 0 alone to be judged, the wave clean but for its answer. -/
def lastSettle (r : StationRecord) : State :=
  setRecord (setItem (judging .settle (some .settleEnd) [⟨0, .settleEnd⟩]) 0
    { WaveItem.clear with participant := true, verdict := some .extended, cleanDrive := true }) 0 r

theorem hyp_lastSettle :
    let s := lastSettle (active 40)
    (s.wvc.drains.find? fun d => decide (d.station = 0)) = some ⟨0, .settleEnd⟩ ∧ s.wvc.ending = some .settleEnd
    ∧ ((s.wvc.drains.erase ⟨0, .settleEnd⟩).any fun d => decide (d.purpose = .settleEnd)) = false
    ∧ (itemOf s 0).participant = true ∧ (itemOf s 0).verdict = some .extended ∧ (itemOf s 0).retracted = false
    ∧ s.wvc.climb = .settle ∧ (∀ x, (recordOf s x).retirePending = none) ∧ s.wvc.view = .run ∧ s.wvc.holds = 0
    ∧ (∀ d ∈ s.wvc.drains.erase ⟨0, .settleEnd⟩, d.purpose = .discard)
    ∧ ({ s.wvc with holds := 1 }).holds ≠ 0 ∧ (inState .stopping s).wvc.view = .stopping
    ∧ (inState .config s).wvc.view = .config
    ∧ (after (.drainAnswer 0 [⟨.retract, 9⟩] false) s).wvc.holds = 0 ∧ s.psv.state = .run := by decide
theorem hyp_lastSettle_afterAStop :
    let s := lastSettle (active 40)
    let t : State := { s with psv := { s.psv with state := .stopping } }
    t.wvc.view = .run ∧ t.psv.state ≠ .run := by decide
theorem hyp_lastSettle_retires :
    let s := lastSettle { active 40 with retirePending := some 3 }
    (recordOf s 0).retirePending = some 3 ∧ (recordOf s 0).service = .active
    ∧ (∀ d ∈ s.wvc.drains.erase ⟨0, .settleEnd⟩, d.purpose = .discard) := by decide
theorem hyp_lastSettle_bars :
    let s := lastSettle { active 40 with marks := 2 }
    (recordOf s 0).service = .active ∧ (recordOf s 0).marks = 2 ∧ s.wvc.climb = .settle ∧ (itemOf s 0).participant = true
    ∧ (itemOf (setItem s 0 { WaveItem.clear with verdict := some .missing }) 0).participant = false
    ∧ shortIn (after (.drainAnswer 0 [] false) s) 0 = false := by decide
theorem hyp_lastSettle_others :
    let s := setItem (lastSettle (active 40)) 0 { WaveItem.clear with participant := true, verdict := some .missing }
    (itemOf s 0).verdict = some .missing ∧ ((s.wvc.drains.erase ⟨0, .settleEnd⟩).any fun d => decide (d.purpose = .settleEnd)) = false
    ∧ (itemOf (setItem s 0 { WaveItem.clear with participant := true, verdict := some .inDoubt }) 0).verdict = some .inDoubt
    ∧ (itemOf (setItem s 0 { WaveItem.clear with participant := true, verdict := some .extended, retracted := true }) 0).retracted
      = true := by decide
theorem test_a_last_answer_after_a_stop_leaves_the_climb_held :
    let s := lastSettle (active 40)
    (after (.drainAnswer 0 [⟨.retract, 9⟩] false) { s with psv := { s.psv with state := .stopping } }).wvc.climb = .held := by decide
theorem test_the_last_answer_ends_the_wave_in_dwell :
    let t := after (.drainAnswer 0 [⟨.retract, 9⟩] false) (lastSettle (active 40))
    t.wvc.climb = .dwell ∧ (recordOf t 0).cleanRun = 1
    ∧ t.mail = [.closeWindow 0, .closeWindow 1, .restValve 0, .restValve 1] := by decide
theorem hyp_barDrains :
    let s := barDraining .settle none none [⟨7, .barDrive⟩]
    let t (v : Verdict) := barDraining .settle (some .driveEnd) (some v) [⟨7, .barSettle⟩, ⟨0, .driveEnd⟩]
    acting s = true ∧ s.wvc.view ≠ .halted ∧ s.wvc.countsDirty = true ∧ s.wvc.ending = none
    ∧ (s.wvc.drains.find? fun d => decide (d.station = 7)) = some ⟨7, .barDrive⟩
    ∧ (∀ d ∈ s.wvc.drains.erase ⟨7, .barDrive⟩, d.purpose = .discard)
    ∧ (t .missing).wvc.countsDirty = true ∧ (t .missing).wvc.ending = some .driveEnd
    ∧ (∃ d ∈ (t .missing).wvc.drains, d.purpose = .driveEnd)
    ∧ ((t .missing).wvc.drains.find? fun d => decide (d.station = 7)) = some ⟨7, .barSettle⟩
    ∧ ¬(∀ d ∈ (t .missing).wvc.drains.erase ⟨7, .barSettle⟩, d.purpose = .discard)
    ∧ (itemOf (t .missing) 7).verdict = some .missing ∧ (itemOf (t .inDoubt) 7).verdict = some .inDoubt
    ∧ (itemOf (t .extended) 7).verdict = some .extended := by decide
theorem hyp_barDrains_open :
    let s := barDraining .settle none (some .missing) [⟨7, .barSettle⟩, ⟨1, .barSettle⟩]
    s.wvc.ending = none ∧ ¬(∀ d ∈ s.wvc.drains.erase ⟨7, .barSettle⟩, d.purpose = .discard) := by decide
theorem test_the_answer_to_a_bar_closes_the_window_and_tells_the_count :
    (after (.drainAnswer 7 [⟨.extend, 9⟩] false) (barDraining .settle none none [⟨7, .barDrive⟩])).mail
      = [.closeWindow 7, .countsChanged] := by decide
theorem test_the_bar_of_a_participant_leaves_its_window_open :
    (after (.coilFaultNotice 0) (inPhase .drive)).mail
      = [.attentionSetRequest .event, .drainQueue 0, .offValve 0] := by decide
theorem test_the_bar_of_another_station_closes_its_window :
    (after (.coilFaultNotice 0) running).mail
      = [.attentionSetRequest .event, .drainQueue 0, .closeWindow 0, .offValve 0, .countsChanged] := by decide

/-- The settlement of a wave at a warning, stations 0 and 1 to be settled, station 0 with this verdict. -/
def settledAtPowerDown (v : Option Verdict) (ds : List Drain) : State :=
  setItem (judging .drive (some .powerDown) ds) 0 { WaveItem.clear with participant := true, verdict := v }

theorem hyp_powerDownDrains :
    let both : List Drain := [⟨0, .powerDown⟩, ⟨1, .powerDown⟩]
    let s := settledAtPowerDown none both
    (s.wvc.drains.find? fun d => decide (d.station = 0)) = some ⟨0, .powerDown⟩ ∧ s.wvc.ending = some .powerDown
    ∧ ((s.wvc.drains.erase ⟨0, .powerDown⟩).any fun d => decide (d.purpose = .powerDown)) = true
    ∧ (itemOf s 0).verdict = none ∧ (itemOf (settledAtPowerDown (some .extended) both) 0).verdict = some .extended
    ∧ (itemOf (settledAtPowerDown (some .missing) both) 0).verdict = some .missing := by decide
theorem hyp_powerDownDrains_last :
    let s := settledAtPowerDown (some .extended) [⟨0, .powerDown⟩]
    ((s.wvc.drains.erase ⟨0, .powerDown⟩).any fun d => decide (d.purpose = .powerDown)) = false
    ∧ (itemOf s 0).verdict = some .extended ∧ s.wvc.countsDirty = false ∧ (∀ x, (recordOf s x).retirePending = none)
    ∧ s.wvc.climb ≠ .held := by decide
theorem hyp_bars_outsideAWave :
    let s := setRecord running 7 { active 40 with marks := 2 }
    acting s = true ∧ inWave s = false ∧ (recordOf s 7).service = .active ∧ (recordOf s 7).marks = 2 ∧ s.wvc.view ≠ .halted
    ∧ s.wvc.ending = none ∧ (∀ d ∈ s.wvc.drains, d.purpose = .discard) ∧ s.wvc.climb ≠ .drive ∧ s.wvc.climb ≠ .settle := by
  decide
theorem hyp_bars_short :
    let s := { climbing .dwell with psv := { running.psv with rig := { rig with minActive := 4 } } }
    s.wvc.climb = .dwell ∧ used s 0 = true ∧ ((stationsOf 0).filter fun x =>
      decide (x ≠ 0) && decide ((recordOf s x).service = .active)).length < s.psv.rig.minActive
    ∧ ¬((stationsOf 0).filter fun x =>
      decide (x ≠ 0) && decide ((recordOf running x).service = .active)).length < running.psv.rig.minActive := by decide
theorem hyp_bars_inDrive :
    let awaits (s : State) : Prop := ∃ x, x ≠ 0 ∧ (itemOf s x).participant = true ∧ (itemOf s x).awaited = true
    let s := setItem (inPhase .drive) 1 { WaveItem.clear with participant := true }
    let t := setItem (inPhase .drive) 1 WaveItem.clear
    isParticipant (inPhase .drive) 0 = true ∧ awaits (inPhase .drive) ∧ (recordOf (inPhase .drive) 0).service = .active
    ∧ s.wvc.ending = none ∧ s.wvc.climb = .drive ∧ ¬awaits s
    ∧ (allStations.filter fun x => inWave s && decide (x ≠ 0) && (itemOf s x).participant) = [1]
    ∧ ¬awaits t ∧ (allStations.filter fun x => inWave t && decide (x ≠ 0) && (itemOf t x).participant) = []
    ∧ (∀ d ∈ t.wvc.drains, d.purpose ≠ .driveEnd) ∧ (judging .drive (some .powerDown) []).wvc.ending ≠ none := by decide
theorem hyp_bars_inSettle :
    let awaits (s : State) : Prop := ∃ x, x ≠ 0 ∧ (itemOf s x).participant = true ∧ (itemOf s x).awaited = true
    let s := setItem (inPhase .settle) 1 { WaveItem.clear with participant := true }
    let t := setItem (inPhase .settle) 1 WaveItem.clear
    let late := { s with wvc := { s.wvc with fallTimer := some ⟨0, 400⟩ } }
    s.wvc.ending = none ∧ s.wvc.climb = .settle ∧ ¬awaits s ∧ s.wvc.fallTimer = none ∧ late.wvc.fallTimer ≠ none
    ∧ (allStations.filter fun x => inWave s && decide (x ≠ 0) && (itemOf s x).participant) = [1]
    ∧ ¬awaits t ∧ (allStations.filter fun x => inWave t && decide (x ≠ 0) && (itemOf t x).participant) = []
    ∧ (∀ d ∈ t.wvc.drains, d.purpose ≠ .settleEnd) ∧ (recordOf t 0).retirePending = none ∧ t.wvc.view = .run
    ∧ t.psv.state = .run ∧ (after (.coilFaultNotice 0) t).wvc.holds = 0
    ∧ ({ t with psv := { t.psv with state := .stopping } }).psv.state ≠ .run := by decide
theorem hyp_bars_aDrainIsOpen :
    let s := judging .held none [⟨1, .barSettle⟩]
    s.wvc.ending = none ∧ (∃ d ∈ s.wvc.drains, d.purpose ≠ .discard)
    ∧ (∃ d ∈ (judging .drive none [⟨1, .driveEnd⟩]).wvc.drains, d.purpose = .driveEnd)
    ∧ (∃ d ∈ (judging .settle none [⟨1, .settleEnd⟩]).wvc.drains, d.purpose = .settleEnd) := by decide
theorem hyp_coilFault :
    acting running = true ∧ (recordOf running 8).service ≠ .active ∧ running.wvc.view ≠ .halted
    ∧ acting (inState .halted running) = true ∧ (inState .halted running).wvc.view = .halted := by decide
theorem test_the_last_station_awaited_in_drive_ends_it_by_its_bar :
    let t := after (.coilFaultNotice 0) (setItem (inPhase .drive) 1 WaveItem.clear)
    t.wvc.climb = .settle ∧ t.wvc.drains = [⟨0, .barDrive⟩] := by decide
theorem hyp_permissionAnswer_due :
    let s := climbingAt 600 200000
    s.wvc.view = .run ∧ (after (.risePermissionAnswer 0 0) s).wvc.holds = 0 ∧ s.wvc.values.riseRate ≠ 0
    ∧ s.psv.rig.strokeLength * 3600000 / s.wvc.values.riseRate ≤ s.wvc.dwell
    ∧ (after (.risePermissionAnswer 1 0) s).wvc.holds ≠ 0 ∧ (inState .stopping s).wvc.view ≠ .run ∧ s.psv.state = .run
    ∧ (∃ x, (recordOf s x).service = .active) := by decide
theorem hyp_waveTimers_idle :
    (climbing .held).wvc.climb ≠ .drive ∧ (inPhase .settle).wvc.fallTimer = none ∧ (inPhase .settle).wvc.settleTimer = none
    ∧ (judging .settle (some .settleEnd) []).wvc.ending ≠ none := by decide

theorem test_no_wave_starts_once_a_stop_is_taken :
    let s := { climbingAt 600 200000 with mail := [.risePermissionAnswer 0 0] }
    (after (.risePermissionAnswer 0 0) (after .stop s)).wvc.climb = .held
    ∧ (after (.risePermissionAnswer 0 0) (after .supplyLow s)).wvc.climb = .held := by decide

/-! ### Probes -/

theorem hyp_nextPoll :
    (∀ x, fitted idleInConfig x = false) ∧ fitted running 7 = true
    ∧ nextPoll { running with lbp := { running.lbp with pollPosition := some 6 } } = some 7 := by decide
theorem test_check_byte_of_the_frames_of_chapter_11 : crc8 [0x00#8, 0x01#8] = 0x07#8 ∧ crc8 [0x01#8, 0x01#8] = 0x12#8 := by
  decide
/-- The bytes of station 7's reply at elevation 1000. -/
def reply7 : List Byte := [0xA5#8, 7#8, 0#8, 0#8, 0x03#8, 0xE8#8, 0x80#8]

/-- Station 7 awaited since 0, with these bytes of its reply come since time 3. -/
def receiving (t : Word) (bytes : List Byte) : State :=
  atTime t { polling (.await 7 .first 0) with lbp := { (polling (.await 7 .first 0)).lbp with incoming := some ⟨3, bytes⟩ } }

theorem hyp_replies_inTime :
    (polling (.await 7 .first 0)).lbp.incoming = none ∧ ((4 : Word) - 0).toNat ≤ 4
    ∧ (receiving 5 [0xA5#8]).lbp.incoming = some ⟨3, [0xA5#8]⟩ ∧ ((5 : Word) - 3).toNat ≤ 2
    ∧ reply7[6]? = some (crc8 [7#8, 0#8, 0#8, 0x03#8, 0xE8#8])
    ∧ ([0xA5#8] ++ (reply7.drop 1 ++ [0#8])).take 7 = reply7 ∧ [0xA5#8].length < 7 ∧ reply7.drop 1 ≠ []
    ∧ (inState .recovery (polling (.await 7 .first 0))).psv.state = .recovery := by decide
theorem hyp_replies_late :
    4 < ((5 : Word) - 0).toNat ∧ (receiving 6 [0xA5#8]).lbp.incoming = some ⟨3, [0xA5#8]⟩ ∧ 2 < ((6 : Word) - 3).toNat
    ∧ 7 ≤ ([] ++ List.replicate 7 (0#8 : Byte)).length
    ∧ ¬∃ status e2 e1 e0 : Byte, List.replicate 7 (0#8 : Byte)
        = [0xA5#8, 7#8, status, e2, e1, e0, crc8 [7#8, status, e2, e1, e0]] := by
  refine ⟨by decide, by decide, by decide, by decide, ?_⟩
  rintro ⟨s, a, b, c, h⟩; simp at h
theorem test_a_reply_in_two_pieces_is_taken :
    (readingOf (after (.replyFrame (reply7.drop 1) false) (receiving 5 [0xA5#8])) 7).map Reading.elevation = some 1000 := by decide
theorem test_a_reply_that_ends_late_is_repeated :
    (after (.replyFrame (reply7.drop 1) false) (receiving 6 [0xA5#8])).lbp.transaction = .retry 7 := by decide
theorem hyp_misses_boundaries :
    (put running.lbp.missRuns 7 7)[(7 : Station)] + 1 = 8 ∧ running.lbp.missRuns[(7 : Station)] + 1 ≠ 8
    ∧ ({ running.lbp with probeBus := true }).probeBus = true ∧ ({ running.lbp with roundHeard := true }).roundHeard ≠ false := by
  decide
theorem hyp_deviationCheck_fewer :
    let s := { deviating with lbp := { deviating.lbp with readings := put deviating.lbp.readings 0 none } }
    let t := { s with lbp := { s.lbp with readings := put s.lbp.readings 1 none } }
    isFresh t 4 = true ∧ isActive t 4 = true ∧ (comparedStations t).length < 4 := by decide

/-! ### Layers and openings -/

/-- The running part whose counts of sector 0 have risen past a layer of slot 7, over these openings. -/
def risen (os : List Opening) : State := planning none os [layer 0 100, layer 100 2000]

theorem hyp_countsChanged_leaves :
    let s := risen [⟨500, 600⟩]
    (stackOf s 0).takeWhile (leaves s.ltr.plan 0 1000) = [layer 0 100]
    ∧ (stackOf s 0).takeWhile (leaves s.ltr.plan 0 50) = []
    ∧ (s.ltr.plan.map Plan.sector) ≠ some 0 ∧ ((planning (some (plan (.new 0))) [] []).ltr.plan.map Plan.sector) = some 0
    ∧ recomputedBottom s 0 = 1000 := by decide
theorem test_a_layer_that_leaves_is_told_before_the_deficit :
    (after .countsChanged (risen [])).mail = [.exitNotice 7 0 0, .deficitNotice] := by decide
theorem test_an_opening_that_has_passed_is_missed :
    (after .countsChanged (risen [⟨500, 600⟩])).mail
      = [.exitNotice 7 0 0, .attentionSetRequest .event, .deficitNotice]
    ∧ (after .countsChanged (risen [⟨500, 600⟩])).ltr.events[(0 : Sector)] = 4 := by decide
theorem hyp_conversion :
    (100 : Int) < (⟨200, 300⟩ : Opening).lower ∧ (⟨50, 100⟩ : Opening).upper ≤ 100 ∧ (⟨50, 101⟩ : Opening).lower ≤ 100
    ∧ (100 : Int) < (⟨50, 101⟩ : Opening).upper ∧ [layer 0 100].length < 10
    ∧ 10 ≤ (List.replicate 10 (layer 0 100)).length := by decide
theorem hyp_feedView_ages :
    topConcrete (stacked [layer 0 100]) 0 = some ⟨7, 0, 0, 0, 0, false⟩
    ∧ ((600 : Word) - 0).toNat ≤ (stacked [layer 0 100]).psv.rig.mergeWindow
    ∧ ¬((601 : Word) - 0).toNat ≤ (stacked [layer 0 100]).psv.rig.mergeWindow ∧ topConcrete running 0 = none
    ∧ used running 2 = false := by decide
theorem hyp_addOpening_joins :
    let s := planning none [⟨10, 20⟩] []
    used s 0 = true ∧ (s.ltr.openings[(0 : Sector)]).length < 2 ∧ fillTop s 0 ≤ (30 : Int)
    ∧ ¬(∃ p ∈ s.ltr.openings[(0 : Sector)], (30 : Int) < p.upper ∧ p.lower < (40 : Int))
    ∧ (∃ p ∈ s.ltr.openings[(0 : Sector)], (15 : Int) < p.upper ∧ p.lower < (40 : Int))
    ∧ fillTop s 0 < (30 : Int) ∧ (∀ p ∈ s.ltr.openings[(0 : Sector)], fillTop s 0 < p.lower)
    ∧ ((planning (some (plan (.new 0))) [⟨10, 20⟩] []).ltr.plan.map Plan.sector) = some 0 := by decide
theorem test_an_opening_joins_in_ascending_order :
    (after (.addOpening 0 0 5 9) (planning none [⟨10, 20⟩] [])).ltr.openings[(0 : Sector)] = [⟨5, 9⟩, ⟨10, 20⟩] := by decide

/-! ### Feed -/

theorem hyp_candidates_ofEight :
    8 ≤ { batch with entries := List.replicate 8 ⟨0, .new, 10, 0, none⟩ }.entries.length ∧ batch.entries.length < 8
    ∧ (viewOf (stacked [layer 0 100]) 7 0xFFFF#16 0).merges = true ∧ (viewOf running 7 0xFFFF#16 0).merges = false := by decide
theorem hyp_feedStops_waste :
    (withGate (.waste gateRun .aged)).fds.gate = .waste gateRun .aged
    ∧ batchOf (withGate (.waste gateRun .aged)) gateRun.slot = some batch ∧ (withGate (.waste gateRun .aged)).fds.plan = .none
    ∧ (withGate (.waste gateRun .aged)).fds.view = .run ∧ (inState .stopping (feeding batch)).fds.view ≠ .run := by decide
theorem hyp_feedStops_closed :
    (withGate (.drop 0 { gateRun with passed := some 300 })).fds.gate = .drop 0 { gateRun with passed := some 300 }
    ∧ { gateRun with passed := some 300 }.passed ≠ none
    ∧ (withGate (.waste { gateRun with slot := 9 } .aged)).fds.gate = .waste { gateRun with slot := 9 } .aged
    ∧ batchOf (withGate (.waste { gateRun with slot := 9 } .aged)) 9 = none := by decide
theorem test_a_stop_awaits_the_placement_answer_of_a_closed_gate :
    let t := after .feedStop (withGate (.drop 0 { gateRun with passed := some 300 }))
    t.mail = [] ∧ t.fds.owesReport = true ∧ t.fds.gate = .drop 0 { gateRun with passed := some 300 } := by decide
/-- A drop gate open for 100 litres at 900 litres a minute, 6,666 ms. -/
def shortRun : GateRun := ⟨7, 100, 0, 900, 6666, none, none⟩
theorem hyp_cut_times :
    (shortRun.closeAt - shortRun.openedAt).toNat ≤ ((atTime 6666 (withGate (.drop 0 shortRun))).tmb.fineTime - shortRun.openedAt).toNat
    ∧ ¬(shortRun.closeAt - shortRun.openedAt).toNat ≤ ((atTime 6665 (withGate (.drop 0 shortRun))).tmb.fineTime - 0).toNat := by
  decide
theorem test_a_cut_at_the_close_gives_the_whole_volume :
    cutVolume (atTime 6666 (withGate (.drop 0 shortRun))) shortRun = 100
    ∧ cutVolume (atTime 6665 (withGate (.drop 0 shortRun))) shortRun = 99 := by decide
theorem test_no_gate_opens_once_a_stop_is_taken :
    (after .siteSecondAdvance (after .stop (feeding { batch with toWaste := true }))).fds.gate = .idle
    ∧ (tryArbiter (after .stop (feeding { batch with toWaste := true }))).fds.gate = .idle
    ∧ (tryArbiter (feeding { batch with toWaste := true })).fds.gate ≠ .idle := by decide
theorem hyp_cancelBatch_closed :
    let s := withGate (.drop 0 { gateRun with passed := some 300 })
    ∀ k g, s.fds.gate = .drop k g → g.slot = 7 → g.passed ≠ none := by
  intro s k g h _
  simp only [s, withGate, Gate.drop.injEq] at h
  simp [← h.2]
theorem hyp_planAnswer_refused :
    (asked false).fds.plan = .asked 0 7 300 false ∧ (asked false).fds.owesReport = false
    ∧ ({ batch with toWaste := true }).toWaste = true := by decide
theorem hyp_cancelBatch_images :
    batchOf running 7 = none ∧ posted.exc.batchImages[(7 : BatchSlot)] = .posted ∧ BatchState.free ≠ .posted
    ∧ (withGate (.drop 7 gateRun)).fds.gate = .drop 7 gateRun ∧ gateRun.slot = 7 := by decide
theorem hyp_handover_passedBy :
    stillPosted (took (.batchHandover 7 request) running) 7 = false
    ∧ stillPosted { posted with mail := [.slotWriteRequest (.batch 7 (some .refused) batch.report)] } 7 = false := by decide

/-! ### Scans, slots, publication -/

theorem hyp_slotWrite_forms :
    (some BatchState.spent) = some .spent ∧ BatchState.lined ≠ .refused ∧ windowCanonical running
    ∧ OrderState.answered = .answered ∧ OrderState.posted ≠ .answered := by
  unfold windowCanonical Memory.wf; decide

/-- The running part with these words at the state words of the slots. -/
def boarded (order : Option (OrderSlot × OrderState × Word)) (batch : Option (BatchSlot × BatchState × Word)) : State :=
  let s := match order with
    | none => running
    | some (slot, image, w) => { running with
        window := writeWord running.window (orderBase slot) w
        exc := { running.exc with orderImages := put running.exc.orderImages slot image } }
  match batch with
  | none => s
  | some (slot, image, w) => { s with
      window := writeWord s.window (batchBase slot) w
      exc := { s.exc with batchImages := put s.exc.batchImages slot image } }

/-- What the scan compares of batch slot 0. -/
def batchWord0 (s : State) : Word × BatchState := (readWord s.window (batchBase 0), s.exc.batchImages[(0 : BatchSlot)])

/-- What the scan compares of order slot 0. -/
def orderWord0 (s : State) : Word × OrderState := (readWord s.window (orderBase 0), s.exc.orderImages[(0 : OrderSlot)])

theorem hyp_scan_batches :
    batchWord0 (boarded none (some (0, .free, 1))) = (1, .free) ∧ batchWord0 (boarded none (some (0, .spent, 1))) = (1, .spent)
    ∧ batchWord0 (boarded none (some (0, .refused, 0))) = (0, .refused)
    ∧ batchWord0 (boarded none (some (0, .lined, 0))) = (0, .lined) ∧ (0 : Word) ≠ batchStateCode .lined
    ∧ (∀ x : BatchSlot, 0 < x → readWord (boarded none (some (0, .lined, 0))).window (batchBase x)
        = batchStateCode (boarded none (some (0, .lined, 0))).exc.batchImages[x]) := by decide
theorem hyp_scan_orders :
    orderWord0 (boarded (some (0, .free, 1)) none) = (1, .free) ∧ orderWord0 (boarded (some (0, .answered, 0)) none) = (0, .answered)
    ∧ orderWord0 (boarded (some (0, .taken, 0)) none) = (0, .taken) ∧ (0 : Word) ≠ orderStateCode .taken
    ∧ orderWord0 (boarded (some (0, .posted, 1)) none) = (1, .posted)
    ∧ (inState .stopping running).psv.state = .stopping ∧ (inState .recovery running).psv.state = .recovery := by decide
theorem hyp_scan_running :
    running.exc.scanTimer ≠ none ∧ running.exc.clearStage = .none ∧ running.exc.misuseEvent = false
    ∧ ({ running.exc with clearStage := .begun }).clearStage ≠ .none ∧ ({ running.exc with scanTimer := none }).scanTimer = none
    ∧ idleInConfig.psv.state = .config ∧ (inState .powerDown running).psv.state = .powerDown
    ∧ acting running = true := by decide
theorem hyp_scan_canonical :
    windowCanonical (boarded (some (0, .taken, 0)) (some (0, .lined, 0)))
    ∧ windowCanonical (boarded (some (0, .free, 1)) (some (0, .free, 1))) := by
  unfold windowCanonical Memory.wf; decide

/-- The running part with an order of this kind and scope posted in slot 0 and seen. -/
def ordered (kind scope : Word) : State :=
  { boarded (some (0, .posted, 1)) none with
    window := writeWord (writeWord (boarded (some (0, .posted, 1)) none).window 0x404 kind) 0x408 scope }

theorem hyp_orders :
    (ordered 2 0).exc.orderImages[(0 : OrderSlot)] = .posted ∧ (ordered 2 0).exc.orderHanded[(0 : OrderSlot)] = false
    ∧ readWord (ordered 2 0).window 0x404 = 2 ∧ readWord (ordered 4 4).window 0x404 = 4 ∧ readWord (ordered 4 4).window 0x408 = 4
    ∧ readWord (ordered 9 0).window 0x404 = 9 ∧ (0 : Word).toNat < 48 ∧ ¬(48 : Word).toNat < 48 := by decide
theorem hyp_orders_canonical : windowCanonical (ordered 4 4) := by unfold windowCanonical Memory.wf; decide
theorem test_an_order_of_no_kind_is_answered :
    let t := handOrders (ordered 9 0)
    readWord t.window 0x400 = 3 ∧ readWord t.window 0x414 = 2 ∧ readWord t.window 0x418 = 9 ∧ t.mail = [] := by decide
theorem test_a_requalify_is_handed_to_its_owner :
    (handOrders (ordered 2 7)).mail = [.requalify 0 7 0] := by decide

/-- The running part with slots 3 and 5 posted under the post numbers 9 and 4. -/
def candidatesPosted : State :=
  { running with
    window := writeWord (writeWord [] (batchBase 3 + 4) 9) (batchBase 5 + 4) 4
    exc := { running.exc with batchImages := put (put running.exc.batchImages 3 .posted) 5 .posted } }

theorem hyp_batches :
    sortedCandidates candidatesPosted = [5, 3] ∧ stillPosted candidatesPosted 5 = true
    ∧ ({ candidatesPosted with mail := [.batchHandover 2 request] }).mail = [.batchHandover 2 request]
    ∧ candidatesPosted.mail = [] ∧ stillPosted candidatesPosted 4 = false := by decide
theorem test_a_scan_that_follows_a_stop_hands_no_order_over :
    let s := ordered 2 7
    (after .exchangeScan { s with psv := { s.psv with state := .stopping } }).mail = []
    ∧ (after .exchangeScan s).mail = [.requalify 0 7 0] := by decide
theorem test_the_lower_post_number_is_handed_over_first :
    (handBatches candidatesPosted).exc.candidates = [3]
    ∧ (handBatches candidatesPosted).mail = [.batchHandover 5 ⟨4, 0, 0, 0, 0⟩] := by decide
theorem hyp_directive_rejected :
    let m := writeWord (writeWord (writeWord [] 0x200 1) 0x2FC 1) 0x208 601
    readWord m 0x200 = readWord m 0x2FC ∧ readWord m 0x200 ≠ 0 ∧ badDirectiveField m = some 2
    ∧ running.exc.edition ≠ 1 ∧ running.exc.lastRejected ≠ 1 ∧ running.exc.directiveBad = false := by decide
theorem hyp_publish_timer :
    running.exc.publishTimer ≠ none ∧ exchanges running.psv.state = true ∧ exchanges (bench .pass .done).psv.state = false
    ∧ ({ running.exc with publishTimer := none }).publishTimer = none
    ∧ ({ running.exc with clearStage := .waiting }).clearStage ≠ .none := by decide

/-! ### Hypotheses of the statements as they stand now -/

theorem hyp_drain_closedWindow :
    acting running = true ∧ (ssuOf running 3).window = none ∧ acting (inState .halted running) = true := by decide
theorem test_a_drain_arms_a_closed_window_too :
    (ssuOf (after (.drainQueue 3) running) 3).armedExtend = true
    ∧ (ssuOf (after (.drainQueue 3) running) 3).armedRetract = true := by decide
theorem hyp_siteSecondNotice_stopped :
    let s := { running with psv := { running.psv with state := .stopping } }
    s.wvc.view = .run ∧ s.psv.state ≠ .run ∧ s.ltr.view = .run
    ∧ ({ running with psv := { running.psv with state := .powerDown } }).psv.state = .powerDown
    ∧ ({ climbing .dwell with psv := { running.psv with state := .run } }).wvc.climb = .dwell
    ∧ (climbing .dwell).wvc.values.runRequest = .hold := by decide
theorem test_a_second_after_a_stop_begins_no_evaluation :
    (after (.siteSecondNotice .wvc) (after .stop running)).wvc.permission = false
    ∧ (after (.siteSecondNotice .wvc) running).wvc.permission = true := by decide
theorem test_a_second_after_a_warning_reports_no_joint :
    let s := { stacked [layer 0 100] with tmb := { running.tmb with siteSeconds := 300 } }
    (after (.siteSecondNotice .ltr) { s with psv := { s.psv with state := .powerDown } }).ltr.events[(0 : Sector)] = 0
    ∧ (after (.siteSecondNotice .ltr) s).ltr.events[(0 : Sector)] = 1 := by decide
theorem test_a_job_begins_with_no_trim :
    let s := { idleInConfig with
      window := pageWindow
      wvc := { idleInConfig.wvc with values := { ClimbValues.defaults with riseRate := 9, trims := Vector.replicate 64 2 } } }
    (after .start s).wvc.values = { ClimbValues.defaults with riseRate := 9 } := by decide
theorem hyp_resetOfAHaltedPart :
    let s := inState .halted running
    inActions s = false ∧ s.psv.state = .halted ∧ s.storeFails = none
    ∧ ({ running with storeFails := some .write }).psv.state ≠ .halted := by decide
theorem hyp_resetOfAHaltedPart_either :
    let s := inState .halted running
    Config.storeStillFails s.resetReads = true ∨ Config.storeStillFails s.resetReads = false := by
  cases Config.storeStillFails (inState .halted running).resetReads <;> simp
theorem test_a_reset_numbers_its_reads_and_fails_out_of_halted_alone :
    (rereadStore (inState .halted running)).resetReads = 1 ∧ (rereadStore running).resetReads = 1
    ∧ (rereadStore running).storeFails = none := by decide
theorem hyp_firstOfKind_whileDraining :
    let s := judging .drive (some .powerDown) [⟨0, .powerDown⟩]
    (itemOf s 0).participant = true ∧ (itemOf s 0).awaited = true ∧ s.wvc.climb = .drive ∧ s.wvc.ending ≠ none
    ∧ (judging .settle (some .settleEnd) []).wvc.ending ≠ none := by decide
theorem hyp_firstOfKind_ignored :
    let s := setItem (inPhase .settle) 0 { WaveItem.clear with participant := true, verdict := some .extended }
    running.wvc.climb ≠ .drive ∧ running.wvc.climb ≠ .settle ∧ (itemOf s 0).awaited = false
    ∧ ¬((itemOf s 0).verdict = some .missing ∨ (itemOf s 0).verdict = some .inDoubt)
    ∧ (itemOf (inPhase .drive) 2).awaited = false := by decide
theorem hyp_wavePowerDown_recovering :
    let s : State := { inState .recovery running with wvc := { running.wvc with view := .recovery, recoveryWindows := [0, 1] } }
    s.wvc.view ≠ .halted ∧ s.wvc.recoveryWindows ≠ [] ∧ inWave s = false ∧ participants (inPhase .drive) ≠ [] := by decide
theorem hyp_wavePowerDown_retires :
    let s : State := { setRecord running 0 { active 40 with retirePending := some 2 } with
      wvc := { (setRecord running 0 { active 40 with retirePending := some 2 }).wvc with countsDirty := true } }
    (recordOf s 0).retirePending = some 2 ∧ (recordOf s 0).service = .active ∧ s.wvc.countsDirty = true
    ∧ (∀ d ∈ s.wvc.drains, d.purpose = .discard) ∧ (recordOf s 1).retirePending = none := by decide
theorem hyp_wavePowerDown_deserted :
    let s := { climbing .drive with wvc := { (climbing .drive).wvc with drains := [⟨5, .barDrive⟩] } }
    inWave s = true ∧ participants s = [] ∧ (∀ d ∈ s.wvc.drains, d.purpose ≠ .powerDown)
    ∧ ¬(∀ d ∈ s.wvc.drains, d.purpose = .discard) := by decide
theorem hyp_powerDownDrains_lastOfEach :
    let s := settledAtPowerDown none [⟨0, .powerDown⟩]
    ((s.wvc.drains.erase ⟨0, .powerDown⟩).any fun d => decide (d.purpose = .powerDown)) = false
    ∧ (itemOf s 0).verdict = none ∧ (recordOf s 0).count < min 65535 ((recordOf s 0).count + 1)
    ∧ (∀ d ∈ s.wvc.drains.erase ⟨0, .powerDown⟩, d.purpose = .discard)
    ∧ (itemOf (settledAtPowerDown (some .missing) [⟨0, .powerDown⟩]) 0).verdict = some .missing
    ∧ (recordOf (setRecord s 0 { active 40 with retirePending := some 2 }) 0).retirePending = some 2 := by decide
theorem hyp_placement_converts :
    let s := planning (some (plan (.new 0))) [⟨50, 150⟩] [layer (-100) 100, layer 0 40]
    s.ltr.plan = some ⟨0, 7, 0, 0, .new 0⟩ ∧ s.ltr.openings[(0 : Sector)] ≠ []
    ∧ ([layer (-100) 100].takeWhile fun l => decide (l.bottom + l.thickness ≤ formBottom s 0)) ≠ []
    ∧ (planning none [] []).ltr.plan = none := by decide
theorem test_a_placement_converts_an_opening_and_lets_a_layer_leave :
    let t := after (.placement 0 7 30) (planning (some (plan (.new 1))) [⟨50, 150⟩] [layer (-100) 100, layer 0 40])
    (stackOf t 0).map Layer.thickness = [40, 20, 90] ∧ t.ltr.openings[(0 : Sector)] = []
    ∧ t.mail = [.placementAnswer (.new 1), .attentionSetRequest .event, .exitNotice 7 0 0, .deficitNotice] := by decide
theorem hyp_dropPlan :
    (planning (some (plan (.merge 0))) [] [layer 0 100]).ltr.plan = some (plan (.merge 0)) := by decide
theorem hyp_planAnswer_lost :
    let s := { asked true with fds := { (asked true).fds with line := [3, 7] } }
    s.fds.plan = .asked 0 7 300 true ∧ s.fds.line.head? ≠ some 7
    ∧ ({ asked false with fds := { (asked false).fds with owesReport := true } }).fds.owesReport = true
    ∧ (asked false).fds.gate = .idle := by decide
theorem hyp_gateCloses_part :
    let s := { withGate (.waste { gateRun with volume := 100 } .aged) with
      fds := { (withGate (.waste { gateRun with volume := 100 } .aged)).fds with owesReport := true, flow := 0 } }
    s.fds.gate = .waste { gateRun with volume := 100 } .aged ∧ 0 < batch.remaining - 100 ∧ (tryArbiter s).fds.owesReport = true
    ∧ batchOf { s with fds := { s.fds with records := running.fds.records } } 7 = none := by decide
theorem hyp_placementAnswer_others :
    let s := { feeding batch with fds := { (feeding batch).fds with plan := .ending } }
    (withGate (.drop 0 { gateRun with passed := some 300 })).fds.gate = .drop 0 { gateRun with passed := some 300 }
    ∧ gateRun.passed = none ∧ s.fds.plan = .ending ∧ (feeding batch).fds.plan ≠ .ending
    ∧ PlacementResult.new 0 ≠ .nothingPlaced := by decide
theorem hyp_placementAnswer_noGate (k : Sector) (g : GateRun) : (feeding batch).fds.gate ≠ .drop k g := by
  simp [feeding, running, inState, idleInConfig, State.reset, Fds.cold]
theorem hyp_directive_fields :
    let m := writeWord (writeWord [] 0x200 1) 0x2FC 1
    badDirectiveField (writeWord m 0x20C 200001) = some 3 ∧ badDirectiveField (writeWord m 0x210 1001) = some 4
    ∧ badDirectiveField (writeWord m 0x214 65536) = some 5 ∧ badDirectiveField (writeByte m 0x218 0xFB#8) = some 6
    ∧ badDirectiveField (writeByte m 0x218 0xFC#8) = none := by decide
theorem hyp_publicationEnd_stages :
    let s := { running with exc := { running.exc with publication := some 4, deferred := true } }
    s.exc.publication = some 4 ∧ s.exc.clearStage = .none ∧ s.exc.deferred = true ∧ running.exc.publication = none
    ∧ (clearingAt .begun (some 4) []).exc.clearStage = .begun
    ∧ (clearingAt .publishing (some 4) []).exc.clearStage = .publishing := by decide
theorem hyp_statusBody : stacksSound (planning none [⟨10, 20⟩, ⟨30, 40⟩] [layer 0 5]) ∧ used running 0 = true
    ∧ used running 2 = false ∧ running.fds.line = [] ∧ (feeding batch).fds.line.head? = some 7
    ∧ batchOf (feeding batch) 7 = some batch := by
  refine ⟨fun k => ⟨by revert k; decide, by revert k; decide, ?_⟩, by decide, by decide, by decide, by decide, by decide⟩
  rintro ⟨p, i, h, _⟩; simp [planning] at h
theorem hyp_statusBody_deck :
    (∀ x, (recordOf running x).service = .active → effectiveCount running 0 ≤ effectiveCount running x)
    ∧ (recordOf running 0).service = .active ∧ ∀ x, (recordOf idleInConfig x).service ≠ .active := by decide
theorem test_an_unused_sector_shows_only_its_events :
    (statusBody running)[63 + 16 * 64 + 128 * 2]? = some 0 ∧ (statusBody running)[63 + 16 * 64 + 128 + 1]? = some 1200 := by
  decide

/-! ### A wave in flight at a reset -/

/-- A wave in this phase in which station 0 has an EXTEND in its queue and station 1 none, station 1's RETIRE of slot 3
waiting. -/
def inFlight (c : Climb) : State :=
  setRecord (setSsu (inPhase c) 0 { windowed with queue := [⟨.extend, 700⟩] }) 1 { active 40 with retirePending := some 3 }

theorem hyp_resetInAWave :
    acting (inFlight .drive) = true ∧ settlingWaits (inFlight .drive) = false ∧ inWave (inFlight .drive) = true
    ∧ (inFlight .drive).wvc.view ≠ .halted ∧ (inFlight .drive).wvc.drains = [] ∧ (inFlight .drive).wvc.recoveryWindows = []
    ∧ (inFlight .drive).exc.view ≠ .halted ∧ (recordOf (inFlight .drive) 1).retirePending = some 3
    ∧ (inFlight .drive).psv.lineMode = .restart ∧ inActions (inFlight .drive) = false
    ∧ (inFlight .drive).storeFails = none ∧ (inFlight .drive).psv.jobMark = true := by decide
theorem hyp_resetInAWave_canonical : windowCanonical (inFlight .drive) := by unfold windowCanonical Memory.wf; decide
theorem hyp_resetWithARetireWaiting :
    let s := setRecord running 1 { active 40 with retirePending := some 3 }
    settlingWaits s = false ∧ inWave s = false ∧ (recordOf s 1).retirePending = some 3 ∧ s.psv.jobMark = true
    ∧ (recordOf { s with power := .held .line } 1).retirePending = some 3 := by decide
theorem test_a_reset_in_drive_settles_the_table :
    let t := after .lineResetRestart (inFlight .drive)
    recordOf t 0 = { active 41 with lastStroke := some 700 }
    ∧ recordOf t 1 = { active 40 with service := .retired, inDoubt := true, events := 0x040#9 }
    ∧ t.exc.orderImages[(3 : OrderSlot)] = .answered := by decide
theorem test_a_reset_in_settle_credits_a_late_stroke :
    let s := setItem (inFlight .settle) 0 { WaveItem.clear with participant := true, verdict := some .inDoubt }
    let t := after .lineResetRestart (setRecord s 0 { active 40 with inDoubt := true })
    recordOf t 0 = { active 41 with lastStroke := some 700 } := by decide
theorem test_the_release_carries_out_a_retire_that_waits :
    let s := setRecord running 1 { active 40 with retirePending := some 3 }
    let t := after (.resetRelease false) (after .lineResetRestart s)
    (recordOf t 1).service = .retired ∧ .orderOutcome 3 (.outcome .done 0) ∈ t.mail := by decide
theorem hyp_lineHold_inDrive :
    (inPhase .drive).wvc.climb = .drive ∧ (inPhase .drive).wvc.ending = none ∧ participants (inPhase .drive) ≠ []
    ∧ participants (climbing .drive) = [] ∧ (∀ d ∈ (climbing .drive).wvc.drains, d.purpose ≠ .driveEnd)
    ∧ (climbing .drive).wvc.countsDirty = false ∧ (climbing .drive).wvc.ending = none := by decide

/-! ### Joints, the restart check, the port registers -/

theorem hyp_jointBoundary :
    let at_ (t : Word) : State := { stacked [layer 0 100] with tmb := { running.tmb with siteSeconds := t } }
    jointDue (at_ 299) 0 = false ∧ jointDue (at_ 300) 0 = true ∧ ((at_ 300).ltr.events[(0 : Sector)]).getLsbD 0 = false
    ∧ (after (.siteSecondNotice .ltr) (at_ 300)).mail = [.attentionSetRequest .event] := by decide
theorem hyp_joint_again :
    let s := { stacked [layer 0 100] with tmb := { running.tmb with siteSeconds := 300 } }
    let u : State := { s with ltr := { s.ltr with events := put s.ltr.events 0 1#4 } }
    jointDue u 0 = true ∧ (u.ltr.events[(0 : Sector)]).getLsbD 0 = true ∧ (after (.siteSecondNotice .ltr) u).mail = []
    ∧ jointDue (after (.siteSecondNotice .ltr) s) 0 = false := by decide
theorem hyp_restartCheck_bars :
    4 ≤ (comparedStations deviating).length ∧ deviating.wvc.climb = .held ∧ deviating.wvc.ending.isNone = true
    ∧ ((stationsOf (sectorOf 4)).filter fun x => isActive deviating x && decide (x ≠ 4)).length
        = ((stationsOf (sectorOf 4)).filter fun x => isActive deviating x).length - 1 := by decide
theorem test_a_station_the_restart_check_bars_is_drained_closed_and_off :
    (restartCheck deviating).mail
      = [.attentionSetRequest .event, .drainQueue 4, .closeWindow 4, .offValve 4, .countsChanged] := by decide
theorem test_a_bar_of_the_restart_check_holds_a_sector_left_short :
    let s (n : Nat) : State := { deviating with psv := { deviating.psv with rig := { rig with minActive := n } } }
    let n := ((stationsOf (sectorOf 4)).filter fun x => isActive deviating x).length
    (restartCheck (s n)).wvc.holds = 0x10#6 ∧ (restartCheck (s (n - 1))).wvc.holds = 0 := by decide
theorem hyp_recoveryWindows :
    let s := { settling_ with wvc := { settling_.wvc with recoveryWindows := [0, 1] } }
    isSettling s = true ∧ s.wvc.recoveryWindows ≠ [] ∧ s.wvc.climb = .held := by decide
theorem hyp_readPort :
    dead.power = .off ∧ running.power ≠ .off ∧ (0x18 : Nat) ∉ [0x00, 0x04, 0x08, 0x0C, 0x10, 0x14] ∧ paceSound running
    ∧ (heldBy .line).power = .held .line := by unfold paceSound; decide
theorem test_the_port_registers_read_by_their_layouts :
    let p : Psv := { running.psv with control := ⟨1, .rigInvalid, 5, false, true⟩, lineMode := .hold }
    let s := { running with psv := p }
    s.readPort 0x04 = some 0x40050401 ∧ s.readPort 0x08 = some 0x30000003 ∧ s.readPort 0x10 = some 0x3F
    ∧ (heldBy .line).readPort 0x08 = some Config.stateInReset ∧ dead.readPort 0x00 = none ∧ s.readPort 0x18 = none := by
  refine ⟨by decide, by decide, by decide, rfl, by decide, by decide⟩

end Sys2Proof.Tests
end

section
/-! SUPPORT. Which operations and commands leave the whole Valve Drive Unit as it was: those of the other blocks, of the
supervisor, of the bench self-check and of RECOVERY. -/

namespace Sys2Proof.Machine

open Sys2Proof

/-! ## From the frames of the other blocks -/

theorem vdu_of_exchangeless {s t : State} (h : exchangeless t = exchangeless s) : t.vdu = s.vdu := by
  rw [exchangeless_eq h]

theorem vdu_of_layerless {s t : State} (h : layerless t = layerless s) : t.vdu = s.vdu := by rw [layerless_eq h]

theorem vdu_of_feedless {s t : State} (h : feedless t = feedless s) : t.vdu = s.vdu := by rw [feedless_eq h]

theorem vdu_of_levelless {s t : State} (h : levelless t = levelless s) : t.vdu = s.vdu := by rw [levelless_eq h]

theorem vdu_of_waveless {s t : State} (h : waveless t = waveless s) : t.vdu = s.vdu := by rw [waveless_eq h]

theorem vdu_of_strokeless {s t : State} (h : strokeless t = strokeless s) : t.vdu = s.vdu := by rw [strokeless_eq h]

/-! ## Operations of the other blocks that a reset, a warning or the supervisor uses -/

@[simp] theorem startTimers_vdu (s : State) : (startTimers s).vdu = s.vdu :=
  vdu_of_exchangeless (exchangeless_startTimers s)

@[simp] theorem beginPublication_vdu (s : State) : (beginPublication s).vdu = s.vdu :=
  vdu_of_exchangeless (exchangeless_beginPublication s)

@[simp] theorem handNext_vdu (s : State) : (handNext s).vdu = s.vdu := vdu_of_exchangeless (exchangeless_handNext s)

@[simp] theorem finishOrder_vdu (slot : OrderSlot) (result : OrderOutcome) (detail : Word) (s : State) :
    (finishOrder slot result detail s).vdu = s.vdu := vdu_of_exchangeless (exchangeless_finishOrder slot result detail s)

@[simp] theorem judgeBatch_vdu (slot : BatchSlot) (r : BatchRequest) (s : State) : (judgeBatch slot r s).vdu = s.vdu :=
  vdu_of_feedless (feedless_judgeBatch slot r s)

@[simp] theorem warmGate_vdu (s : State) : (warmGate s).vdu = s.vdu := vdu_of_feedless (feedless_warmGate s)

@[simp] theorem refitLevel_vdu (mask : BitVec 64) (s : State) : (refitLevel mask s).vdu = s.vdu :=
  vdu_of_levelless (levelless_refitLevel mask s)

@[simp] theorem warnLevel_vdu (s : State) : (warnLevel s).vdu = s.vdu := vdu_of_levelless (levelless_warnLevel s)

@[simp] theorem restoreLevel_vdu (s : State) : (restoreLevel s).vdu = s.vdu := vdu_of_levelless (levelless_restoreLevel s)

@[simp] theorem flushCounts_vdu (s : State) : (flushCounts s).vdu = s.vdu := vdu_of_waveless (waveless_flushCounts s)

@[simp] theorem carryOutAllDeferred_vdu (s : State) : (carryOutAllDeferred s).vdu = s.vdu :=
  vdu_of_waveless (waveless_carryOutAllDeferred s)

@[simp] theorem closeRecoveryWindows_vdu (s : State) : (closeRecoveryWindows s).vdu = s.vdu :=
  vdu_of_waveless (waveless_closeRecoveryWindows s)

@[simp] theorem resetSsu_vdu (s : State) : (resetSsu s).vdu = s.vdu := vdu_of_strokeless (strokeless_resetSsu s)

@[simp] theorem endScan_vdu (s : State) : (endScan s).vdu = s.vdu := vdu_of_strokeless (strokeless_endScan s)

@[simp] theorem readRow_vdu (row : Fin 8) (columns : Byte) (idle : Bool) (s : State) :
    (readRow row columns idle s).vdu = s.vdu := vdu_of_strokeless (strokeless_readRow row columns idle s)

@[simp] theorem setUpTable_vdu (mask : BitVec 64) (s : State) : (setUpTable mask s).vdu = s.vdu :=
  vdu_of_waveless (waveless_setUpTable mask s)

/-! ## The supervisor (09) -/

@[simp] theorem enterState_vdu (p : PartState) (s : State) : (enterState p s).vdu = s.vdu := rfl

@[simp] theorem answerCode_vdu (code : Byte) (o : CommandOutcome) (detail : Nat) (s : State) :
    (answerCode code o detail s).vdu = s.vdu := rfl

@[simp] theorem answerCommand_vdu (c : Command) (o : CommandOutcome) (detail : Nat) (s : State) :
    (answerCommand c o detail s).vdu = s.vdu := rfl

theorem command_vdu {f : State → State} (hf : ∀ u, (f u).vdu = u.vdu) (s : State) : (command f s).vdu = s.vdu := by
  unfold command
  split
  · rfl
  · exact hf s

theorem takenInConfig_vdu (c : Command) {f : State → State} (hf : ∀ u, (f u).vdu = u.vdu) (s : State) :
    (takenInConfig c f s).vdu = s.vdu := by
  unfold takenInConfig
  split
  · exact hf s
  · rfl
  · rfl

theorem takeRig_vdu (v : RigValues) (s : State) : (takeRig v s).vdu = s.vdu := by
  unfold takeRig
  dsimp only
  split <;> simp

theorem acceptStart_vdu (v : RigValues) (s : State) : (acceptStart v s).vdu = s.vdu := by
  unfold acceptStart beginJob
  dsimp only
  split <;> simp [takeRig_vdu]

theorem startInConfig_vdu (s : State) : (startInConfig s).vdu = s.vdu := by
  unfold startInConfig
  dsimp only
  split
  · rfl
  · split
    · rfl
    · exact acceptStart_vdu _ s

theorem takeStop_vdu (s : State) : (takeStop s).vdu = s.vdu := by
  unfold takeStop
  split <;> rfl

theorem clearInConfig_vdu (s : State) : (clearInConfig s).vdu = s.vdu := rfl

@[simp] theorem endStopping_vdu (s : State) : (endStopping s).vdu = s.vdu := by
  unfold endStopping
  split <;> rfl

theorem takeWaveEnded_vdu (s : State) : (takeWaveEnded s).vdu = s.vdu := by
  unfold takeWaveEnded
  split <;> simp

theorem takeClearDone_vdu (b : Block) (s : State) : (takeClearDone b s).vdu = s.vdu := by
  unfold takeClearDone
  dsimp only
  split <;> rfl

theorem blockSecond_vdu (b : Block) (s : State) : (blockSecond b s).vdu = s.vdu := by
  cases b with
  | wvc => exact vdu_of_waveless (waveless_waveSecond s)
  | ltr => exact vdu_of_layerless (layerless_layerSecond s)
  | fds => exact vdu_of_feedless (feedless_feedSecond s)
  | _ => rfl

theorem toggleLamp_vdu (name : LampName) (s : State) : (toggleLamp name s).vdu = s.vdu := by cases name <;> rfl

theorem takeSupplyGood_vdu (s : State) : (takeSupplyGood s).vdu = s.vdu := by
  unfold takeSupplyGood
  split <;> rfl

theorem noteRelease_vdu (strapHigh : Bool) (s : State) : (noteRelease strapHigh s).vdu = s.vdu := by
  unfold noteRelease
  split <;> rfl

/-! ## The bench self-check (09 R171) -/

@[simp] theorem endBench_vdu (r : BenchResult) (s : State) : (endBench r s).vdu = s.vdu := rfl

@[simp] theorem setPhase_vdu (p : BenchPhase) (s : State) : (setPhase p s).vdu = s.vdu := rfl

theorem endLampTest_vdu (s : State) : (endLampTest s).vdu = s.vdu := by
  unfold endLampTest
  split <;> rfl

@[simp] theorem benchSecond_vdu (s : State) : (benchSecond s).vdu = s.vdu := by
  unfold benchSecond
  split
  · rfl
  · split
    · rfl
    · split <;> rfl
  · rfl

@[simp] theorem scanEnded_vdu (row : Fin 8) (s : State) : (scanEnded row s).vdu = s.vdu := by
  unfold scanEnded
  split
  · split <;> rfl
  · rfl

@[simp] theorem idleRead_vdu (columns : Byte) (s : State) : (idleRead columns s).vdu = s.vdu := by
  unfold idleRead
  dsimp only
  split
  · split
    · rfl
    · split <;> rfl
  · rfl

theorem takeRowRead_vdu (columns : Byte) (s : State) : (takeRowRead columns s).vdu = s.vdu := by
  unfold takeRowRead
  split
  · rfl
  · split <;> simp

@[simp] theorem noticeSecond_vdu (s : State) : (noticeSecond s).vdu = s.vdu := by
  unfold noticeSecond
  simp

@[simp] theorem advanceSecond_vdu (s : State) : (advanceSecond s).vdu = s.vdu := rfl

/-! ## RECOVERY (10) -/

theorem waveless_resolveStation (before : State) (S : List Station) (st : Station) (s : State) :
    waveless (resolveStation before S st s) = waveless s := by
  unfold resolveStation
  simp

theorem waveless_restartCheck (s : State) : waveless (restartCheck s) = waveless s := by
  unfold restartCheck barOutOfTolerance resolveDoubts
  simp [waveless_forEach _ _ _ (waveless_resolveStation _ _), waveless_forEach _ _ _ (waveless_barOwing _)]

@[simp] theorem restartCheck_vdu (s : State) : (restartCheck s).vdu = s.vdu := vdu_of_waveless (waveless_restartCheck s)

@[simp] theorem runCheck_vdu (s : State) : (runCheck s).vdu = s.vdu := by
  unfold runCheck endRecovery
  simp

@[simp] theorem judgeReadiness_vdu (s : State) : (judgeReadiness s).vdu = s.vdu := by
  unfold judgeReadiness
  split <;> simp

theorem expireRecoveryWindow_vdu (s : State) : (expireRecoveryWindow s).vdu = s.vdu := by
  unfold expireRecoveryWindow
  split <;> simp

@[simp] theorem beginRecovery_vdu (s : State) : (beginRecovery s).vdu = s.vdu := by
  unfold beginRecovery
  simp

/-! ## A hand-over and a clear of rig events (08) -/

theorem takeHandover_vdu (slot : BatchSlot) (request : BatchRequest) (s : State) :
    (takeHandover slot request s).vdu = s.vdu := by
  unfold takeHandover unlessHaltedFeed
  split
  · rfl
  · dsimp only
    split
    · simp
    · split <;> simp

theorem takeClearRig_vdu (slot : OrderSlot) (events : Word) (s : State) : (takeClearRig slot events s).vdu = s.vdu := by
  unfold takeClearRig unlessHaltedExchange
  split
  · rfl
  · dsimp only
    split
    · simp [clearRigEvents]
    · simp

/-! ## Commands -/

section
variable {c : Instr} {f : State → State} {s t : State}

theorem vdu_of_whileActing (he : exec c s = whileActing f s) (hf : ∀ u, (f u).vdu = u.vdu) (h : exec c s = .next t) :
    t.vdu = s.vdu := by
  rw [he, whileActing] at h
  injection h with h
  rw [← h]
  split
  · exact hf s
  · rfl

theorem vdu_of_taking (he : exec c s = taking c f s) (hf : ∀ u, (f u).vdu = u.vdu) (h : exec c s = .next t) :
    t.vdu = s.vdu :=
  vdu_of_whileActing (f := fun u => f (took c u)) he (fun u => hf (took c u)) h

theorem exec_vdu_of_isStroke (hc : Instr.isStroke c = true) (h : exec c s = .next t) : t.vdu = s.vdu := by
  cases c with
  | openWindow => exact vdu_of_taking (exec_openWindow ..) (fun _ => vdu_of_strokeless (strokeless_takeOpenWindow ..)) h
  | closeWindow => exact vdu_of_taking (exec_closeWindow ..) (fun _ => vdu_of_strokeless (strokeless_takeCloseWindow ..)) h
  | drainQueue => exact vdu_of_taking (exec_drainQueue ..) (fun _ => vdu_of_strokeless (strokeless_takeDrainQueue ..)) h
  | strayReset => exact vdu_of_taking (exec_strayReset ..) (fun _ => vdu_of_strokeless (strokeless_takeStrayReset ..)) h
  | _ => cases hc

theorem exec_vdu_of_isWave (hc : Instr.isWave c = true) (h : exec c s = .next t) : t.vdu = s.vdu := by
  cases c with
  | firstOfKindNotice =>
    exact vdu_of_taking (exec_firstOfKindNotice ..) (fun _ => vdu_of_waveless (waveless_takeFirstOfKind ..)) h
  | drainAnswer => exact vdu_of_taking (exec_drainAnswer ..) (fun _ => vdu_of_waveless (waveless_takeDrainAnswer ..)) h
  | markRequest => exact vdu_of_taking (exec_markRequest ..) (fun _ => vdu_of_waveless (waveless_takeMarkRequest ..)) h
  | coilFaultNotice =>
    exact vdu_of_taking (exec_coilFaultNotice ..) (fun _ => vdu_of_waveless (waveless_takeCoilFault ..)) h
  | eventRequest => exact vdu_of_taking (exec_eventRequest ..) (fun _ => vdu_of_waveless (waveless_takeEventRequest ..)) h
  | dwellExpiry =>
    exact vdu_of_whileActing (exec_dwellExpiry ..) (fun _ => vdu_of_waveless (waveless_takeDwellExpiry ..)) h
  | risePermissionAnswer =>
    exact vdu_of_taking (exec_risePermissionAnswer ..) (fun _ => vdu_of_waveless (waveless_takePermission ..)) h
  | driveTimerExpiry =>
    exact vdu_of_whileActing (exec_driveTimerExpiry ..) (fun _ => vdu_of_waveless (waveless_takeDriveTimer ..)) h
  | settleTimerExpiry =>
    exact vdu_of_whileActing (exec_settleTimerExpiry ..) (fun _ => vdu_of_waveless (waveless_takeSettleTimer ..)) h
  | fallTimerExpiry =>
    exact vdu_of_whileActing (exec_fallTimerExpiry ..) (fun _ => vdu_of_waveless (waveless_takeFallTimer ..)) h
  | waveStop => exact vdu_of_taking (exec_waveStop ..) (fun _ => vdu_of_waveless (waveless_takeWaveStop ..)) h
  | wavePowerDown =>
    exact vdu_of_taking (exec_wavePowerDown ..) (fun _ => vdu_of_waveless (waveless_takeWavePowerDown ..)) h
  | climbDirective =>
    exact vdu_of_taking (exec_climbDirective ..) (fun _ => vdu_of_waveless (waveless_takeClimbDirective ..)) h
  | requalify => exact vdu_of_taking (exec_requalify ..) (fun _ => vdu_of_waveless (waveless_takeRequalify ..)) h
  | retire => exact vdu_of_taking (exec_retire ..) (fun _ => vdu_of_waveless (waveless_takeRetire ..)) h
  | clearEventsStation =>
    exact vdu_of_taking (exec_clearEventsStation ..) (fun _ => vdu_of_waveless (waveless_takeClearStation ..)) h
  | _ => cases hc

theorem exec_vdu_of_isLevel (hc : Instr.isLevel c = true) (h : exec c s = .next t) : t.vdu = s.vdu := by
  cases c with
  | motionOnNotice => exact vdu_of_taking (exec_motionOnNotice ..) (fun _ => vdu_of_levelless (levelless_takeMotionOn ..)) h
  | motionOffNotice =>
    exact vdu_of_taking (exec_motionOffNotice ..) (fun _ => vdu_of_levelless (levelless_takeMotionOff ..)) h
  | transactionBegin =>
    exact vdu_of_whileActing (exec_transactionBegin ..) (fun _ => vdu_of_levelless (levelless_takeTransactionBegin ..)) h
  | querySent => exact vdu_of_whileActing (exec_querySent ..) (fun _ => vdu_of_levelless (levelless_takeQuerySent ..)) h
  | replyFrame => exact vdu_of_whileActing (exec_replyFrame ..) (fun _ => vdu_of_levelless (levelless_takeReplyFrame ..)) h
  | replyTimeout =>
    exact vdu_of_whileActing (exec_replyTimeout ..) (fun _ => vdu_of_levelless (levelless_takeReplyTimeout ..)) h
  | readingMadeAbsent =>
    exact vdu_of_whileActing (exec_readingMadeAbsent ..) (fun _ => vdu_of_levelless (levelless_makeAbsent ..)) h
  | settleHoldEnd =>
    exact vdu_of_whileActing (exec_settleHoldEnd ..) (fun _ => vdu_of_levelless (levelless_endSettleHold ..)) h
  | _ => cases hc

theorem exec_vdu_of_isLayer (hc : Instr.isLayer c = true) (h : exec c s = .next t) : t.vdu = s.vdu := by
  cases c with
  | countsChanged => exact vdu_of_taking (exec_countsChanged ..) (fun _ => vdu_of_layerless (layerless_takeCountsChanged ..)) h
  | feedView => exact vdu_of_taking (exec_feedView ..) (fun _ => vdu_of_layerless (layerless_takeFeedView ..)) h
  | pourPlanRequest =>
    exact vdu_of_taking (exec_pourPlanRequest ..) (fun _ => vdu_of_layerless (layerless_takePlanRequest ..)) h
  | placement => exact vdu_of_taking (exec_placement ..) (fun _ => vdu_of_layerless (layerless_takePlacement ..)) h
  | dropPlan => exact vdu_of_taking (exec_dropPlan ..) (fun _ => vdu_of_layerless (layerless_takeDropPlan ..)) h
  | addOpening => exact vdu_of_taking (exec_addOpening ..) (fun _ => vdu_of_layerless (layerless_takeAddOpening ..)) h
  | dropOpening => exact vdu_of_taking (exec_dropOpening ..) (fun _ => vdu_of_layerless (layerless_takeDropOpening ..)) h
  | clearEventsSector =>
    exact vdu_of_taking (exec_clearEventsSector ..) (fun _ => vdu_of_layerless (layerless_takeClearSector ..)) h
  | risePermissionRequest =>
    exact vdu_of_taking (exec_risePermissionRequest ..) (fun _ => vdu_of_layerless (layerless_takePermissionRequest ..)) h
  | feedMaskDirective =>
    exact vdu_of_taking (exec_feedMaskDirective ..) (fun _ => vdu_of_layerless (layerless_takeFeedMask ..)) h
  | _ => cases hc

theorem exec_vdu_of_isFeed (hc : Instr.isFeed c = true) (h : exec c s = .next t) : t.vdu = s.vdu := by
  cases c with
  | pourPlanAnswer => exact vdu_of_taking (exec_pourPlanAnswer ..) (fun _ => vdu_of_feedless (feedless_takePlanAnswer ..)) h
  | placementAnswer =>
    exact vdu_of_taking (exec_placementAnswer ..) (fun _ => vdu_of_feedless (feedless_takePlacementAnswer ..)) h
  | gateClose => exact vdu_of_whileActing (exec_gateClose ..) (fun _ => vdu_of_feedless (feedless_takeGateClose ..)) h
  | wasteGateClose =>
    exact vdu_of_whileActing (exec_wasteGateClose ..) (fun _ => vdu_of_feedless (feedless_takeWasteGateClose ..)) h
  | feedStop => exact vdu_of_taking (exec_feedStop ..) (fun _ => vdu_of_feedless (feedless_takeFeedStop ..)) h
  | feedPowerDown => exact vdu_of_taking (exec_feedPowerDown ..) (fun _ => vdu_of_feedless (feedless_takeFeedPowerDown ..)) h
  | feedPauseRequest => exact vdu_of_taking (exec_feedPauseRequest ..) (fun _ => vdu_of_feedless (feedless_takeFeedPause ..)) h
  | flowDirective => exact vdu_of_taking (exec_flowDirective ..) (fun _ => vdu_of_feedless (feedless_takeFlow ..)) h
  | deficitNotice => exact vdu_of_taking (exec_deficitNotice ..) (fun _ => vdu_of_feedless (feedless_takeDeficit ..)) h
  | cancelBatch => exact vdu_of_taking (exec_cancelBatch ..) (fun _ => vdu_of_feedless (feedless_takeCancel ..)) h
  | exitNotice => exact vdu_of_taking (exec_exitNotice ..) (fun _ => vdu_of_feedless (feedless_takeExitNotice ..)) h
  | _ => cases hc

theorem exec_vdu_of_isExchange (hc : Instr.isExchange c = true) (h : exec c s = .next t) : t.vdu = s.vdu := by
  cases c with
  | attnWrite => exact vdu_of_whileActing (exec_attnWrite ..) (fun _ => vdu_of_exchangeless (exchangeless_writeAttn ..)) h
  | attnMaskWrite =>
    exact vdu_of_whileActing (exec_attnMaskWrite ..) (fun _ => vdu_of_exchangeless (exchangeless_writeAttnMask ..)) h
  | attnPaceWrite =>
    exact vdu_of_whileActing (exec_attnPaceWrite ..) (fun _ => vdu_of_exchangeless (exchangeless_writeAttnPace ..)) h
  | slotWriteRequest =>
    exact vdu_of_taking (exec_slotWriteRequest ..) (fun _ => vdu_of_exchangeless (exchangeless_takeSlotWrite ..)) h
  | orderOutcome =>
    exact vdu_of_taking (exec_orderOutcome ..) (fun _ => vdu_of_exchangeless (exchangeless_takeOrderOutcome ..)) h
  | exchangeScan => exact vdu_of_whileActing (exec_exchangeScan ..) (fun _ => vdu_of_exchangeless (exchangeless_takeScan ..)) h
  | attentionSetRequest =>
    exact vdu_of_taking (exec_attentionSetRequest ..) (fun _ => vdu_of_exchangeless (exchangeless_setAttn ..)) h
  | publishTimerExpiry =>
    exact vdu_of_taking (exec_publishTimerExpiry ..) (fun _ => vdu_of_exchangeless (exchangeless_takePublishExpiry ..)) h
  | publicationEnd =>
    exact vdu_of_taking (exec_publicationEnd ..) (fun _ => vdu_of_exchangeless (exchangeless_takePublicationEnd ..)) h
  | _ => cases hc

end

end Sys2Proof.Machine
end

section
/-! PROOF. The pump enable follows the channels (03 R43): every command either leaves the Valve Drive Unit as it was, or goes
through an operation after which the enable is exact. -/

namespace Sys2Proof.Machine

open Sys2Proof

/-! ## The commands, by what they do to the Valve Drive Unit -/

/-- The commands taken by the other blocks (02, 04 to 08). -/
def Instr.isOfAnotherBlock (c : Instr) : Bool :=
  Instr.isStroke c || Instr.isWave c || Instr.isLevel c || Instr.isLayer c || Instr.isFeed c || Instr.isExchange c

/-- The other commands that leave the unit as it was: those of the supervisor, of the Time Base and of the bench that neither
reset, warn nor halt the part, a hand-over, a clear of rig events, and the host's writes. -/
def Instr.sparesValves : Instr → Bool
  | .start | .stop | .clear | .lineModeRestart | .lineModeHold | .unknownCommand .. | .ignoredRegisterWrite ..
  | .hostWindowWrite .. | .supplyGood | .waveEnded | .siteSecondAdvance | .siteSecondNotice .. | .lampFlashToggle ..
  | .rowRead .. | .lampTestExpiry | .clearDone .. | .clearEventsRig .. | .batchHandover .. | .readingNotice ..
  | .recoveryWindowExpiry => true
  | _ => false

/-- The commands that reach the unit beside its own: the notices it takes among other blocks (03 R40, R42, R47), and those
that may reset, warn or halt the part (03 R40, R41, R47). -/
def Instr.reachesValves : Instr → Bool
  | .reset | .retentionStoreError .. | .powerOn .. | .lineResetRestart | .lineResetHold | .resetRelease .. | .supplyLow
  | .supplyDies | .returnOfGoodSupply | .powerDownActionsDone | .feedStopped | .partStateNotice .. | .lineHoldNotice ..
  | .clearNotice .. => true
  | _ => false

theorem valve_effect_cases (c : Instr) : Instr.isOfAnotherBlock c = true ∨ Instr.sparesValves c = true
    ∨ Instr.isValve c = true ∨ Instr.reachesValves c = true := by
  have h : (Instr.isOfAnotherBlock c || (Instr.sparesValves c || (Instr.isValve c || Instr.reachesValves c))) = true := by
    cases c <;> rfl
  simpa only [Bool.or_eq_true] using h

theorem exec_vdu_of_isOfAnotherBlock {c : Instr} {s t : State} (hc : Instr.isOfAnotherBlock c = true)
    (h : exec c s = .next t) : t.vdu = s.vdu := by
  simp only [Instr.isOfAnotherBlock, Bool.or_eq_true] at hc
  obtain ((((hstroke | hwave) | hlevel) | hlayer) | hfeed) | hexchange := hc
  · exact exec_vdu_of_isStroke hstroke h
  · exact exec_vdu_of_isWave hwave h
  · exact exec_vdu_of_isLevel hlevel h
  · exact exec_vdu_of_isLayer hlayer h
  · exact exec_vdu_of_isFeed hfeed h
  · exact exec_vdu_of_isExchange hexchange h

theorem exec_hostWindowWrite_vdu {offset : Nat} {value : Word} {s t : State}
    (h : exec (.hostWindowWrite offset value) s = .next t) : t.vdu = s.vdu := by
  rw [exec_hostWindowWrite] at h
  split at h
  · injection h with h
    rw [← h]
    split
    · exact vdu_of_exchangeless (exchangeless_hostWrite offset value s)
    · rfl
  · cases h

theorem exec_siteSecondAdvance_vdu {s t : State} (h : exec .siteSecondAdvance s = .next t) : t.vdu = s.vdu := by
  rw [exec_siteSecondAdvance] at h
  injection h with h
  rw [← h]
  split <;> simp

theorem exec_vdu_of_sparesValves {c : Instr} {s t : State} (hc : Instr.sparesValves c = true)
    (h : exec c s = .next t) : t.vdu = s.vdu := by
  cases c with
  | start => exact vdu_of_whileActing (exec_start s) (command_vdu (takenInConfig_vdu _ startInConfig_vdu)) h
  | stop => exact vdu_of_whileActing (exec_stop s) (command_vdu takeStop_vdu) h
  | clear => exact vdu_of_whileActing (exec_clear s) (command_vdu (takenInConfig_vdu _ clearInConfig_vdu)) h
  | lineModeRestart => exact vdu_of_whileActing (exec_lineModeRestart s) (command_vdu fun _ => rfl) h
  | lineModeHold => exact vdu_of_whileActing (exec_lineModeHold s) (command_vdu fun _ => rfl) h
  | unknownCommand code => exact vdu_of_whileActing (exec_unknownCommand code s) (command_vdu fun _ => rfl) h
  | ignoredRegisterWrite offset value => cases h; rfl
  | hostWindowWrite offset value => exact exec_hostWindowWrite_vdu h
  | supplyGood => exact vdu_of_whileActing (exec_supplyGood s) takeSupplyGood_vdu h
  | waveEnded => exact vdu_of_taking (exec_waveEnded s) takeWaveEnded_vdu h
  | siteSecondAdvance => exact exec_siteSecondAdvance_vdu h
  | siteSecondNotice b => exact vdu_of_taking (exec_siteSecondNotice b s) (blockSecond_vdu b) h
  | lampFlashToggle lamp => exact vdu_of_whileActing (exec_lampFlashToggle lamp s) (toggleLamp_vdu lamp) h
  | rowRead columns => exact vdu_of_whileActing (exec_rowRead columns s) (takeRowRead_vdu columns) h
  | lampTestExpiry => exact vdu_of_whileActing (exec_lampTestExpiry s) endLampTest_vdu h
  | clearDone b => exact vdu_of_taking (exec_clearDone b s) (takeClearDone_vdu b) h
  | clearEventsRig slot events => exact vdu_of_taking (exec_clearEventsRig ..) (takeClearRig_vdu slot events) h
  | batchHandover slot request => exact vdu_of_taking (exec_batchHandover ..) (takeHandover_vdu slot request) h
  | readingNotice st => exact vdu_of_taking (exec_readingNotice st s) judgeReadiness_vdu h
  | recoveryWindowExpiry => exact vdu_of_whileActing (exec_recoveryWindowExpiry s) expireRecoveryWindow_vdu h
  | _ => cases hc

/-! ## Operations of the unit -/

theorem pumpExact_of_vdu {s t : State} (h : t.vdu = s.vdu) (hs : pumpExact s) : pumpExact t := by
  unfold pumpExact
  rw [h]
  exact hs

theorem pumpExact_setChannel (s : State) (st : Station) (c : Channel) : pumpExact (setChannel s st c) := rfl

theorem pumpExact_mapChannels (f : Channel → Channel) (s : State) : pumpExact (mapChannels f s) := by
  rw [pumpExact, mapChannels_vdu, Vdu.withChannels_pumpEnable, Vdu.withChannels_channels]

theorem pumpExact_of_reset {s : State} {p : PartState} (h : s.vdu = Vdu.reset p) : pumpExact s := by
  have hidle : anyOf (Vector.replicate 64 Channel.reset) Channel.needsPump = false := by
    rw [anyOf_false_iff]
    intro i
    rw [replicate_get]
    rfl
  unfold pumpExact
  rw [h]
  exact hidle.symm

theorem pumpExact_setQuiet {s : State} (hs : pumpExact s) : pumpExact (setQuiet s) := hs

theorem pumpExact_takeOpen (st : Station) {s : State} (hs : pumpExact s) : pumpExact (takeOpen st s) := by
  unfold takeOpen
  split
  · exact pumpExact_setChannel _ _ _
  · exact hs

theorem pumpExact_takeClose (st : Station) {s : State} (hs : pumpExact s) : pumpExact (takeClose st s) := by
  unfold takeClose
  split
  · exact pumpExact_setChannel _ _ _
  · exact hs

theorem pumpExact_takeRest (st : Station) {s : State} (hs : pumpExact s) : pumpExact (takeRest st s) := by
  unfold takeRest
  split
  · exact pumpExact_setChannel _ _ _
  · exact hs

theorem pumpExact_takeWake {s : State} (hs : pumpExact s) : pumpExact (takeWake s) := by
  unfold takeWake
  split <;> exact hs

theorem pumpExact_testCoil (st : Station) (current : Nat) (s : State) : pumpExact (testCoil st current s) := by
  unfold testCoil judgeCoilOpen
  dsimp only
  split
  · exact pumpExact_setChannel _ _ _
  · split
    · split
      · exact pumpExact_setChannel _ _ _
      · exact pumpExact_of_vdu (send_vdu _ _) (pumpExact_setChannel _ _ _)
    · exact pumpExact_setChannel _ _ _

theorem pumpExact_vduEnters (p : PartState) {s : State} (hs : pumpExact s) : pumpExact (vduEnters p s) := by
  unfold vduEnters allChannelsOff
  dsimp only
  split
  · exact hs
  · exact pumpExact_mapChannels _ _

/-! ## Notices that the unit takes among other blocks -/

theorem blockEnters_vdu {b : Block} (hb : b ≠ .vdu) (p : PartState) (s : State) : (blockEnters b p s).vdu = s.vdu := by
  cases b with
  | exc => exact vdu_of_exchangeless (exchangeless_exchangeEnters p s)
  | ssu => exact vdu_of_strokeless (strokeless_ssuEnters p s)
  | wvc => exact vdu_of_waveless (waveless_waveEnters p s)
  | lbp => exact vdu_of_levelless (levelless_levelEnters p s)
  | ltr => exact vdu_of_layerless (layerless_layerEnters p s)
  | fds => exact vdu_of_feedless (feedless_feedEnters p s)
  | tmb | psv => rfl
  | vdu => exact absurd rfl hb

theorem pumpExact_blockEnters (b : Block) (p : PartState) {s : State} (hs : pumpExact s) :
    pumpExact (blockEnters b p s) := by
  by_cases hb : b = .vdu
  · rw [hb]
    exact pumpExact_vduEnters p hs
  · exact pumpExact_of_vdu (blockEnters_vdu hb p s) hs

theorem pumpExact_takePartState (b : Block) (p : PartState) {s : State} (hs : pumpExact s) :
    pumpExact (takePartState b p s) := by
  unfold takePartState
  split
  · exact hs
  · exact pumpExact_blockEnters b p hs

theorem blockHolds_vdu {b : Block} (hb : b ≠ .vdu) (s : State) : (blockHolds b s).vdu = s.vdu := by
  cases b with
  | ssu => exact vdu_of_strokeless (strokeless_strokeLineHold s)
  | wvc => exact vdu_of_waveless (waveless_waveLineHold s)
  | fds => exact vdu_of_feedless (feedless_feedLineHold s)
  | vdu => exact absurd rfl hb
  | _ => rfl

theorem pumpExact_blockHolds (b : Block) {s : State} (hs : pumpExact s) : pumpExact (blockHolds b s) := by
  by_cases hb : b = .vdu
  · rw [hb]
    exact pumpExact_mapChannels _ _
  · exact pumpExact_of_vdu (blockHolds_vdu hb s) hs

theorem clearBlock_vdu {b : Block} (hb : b ≠ .vdu) (s : State) : (clearBlock b s).vdu = s.vdu := by
  cases b with
  | wvc => exact vdu_of_waveless (waveless_clearWave s)
  | ltr => exact vdu_of_layerless (layerless_clearLayer s)
  | fds => exact vdu_of_feedless (feedless_clearFeed s)
  | lbp => exact vdu_of_levelless (levelless_clearLevel s)
  | ssu => exact vdu_of_strokeless (strokeless_clearStrays s)
  | exc => exact vdu_of_exchangeless (exchangeless_clearExchange s)
  | tmb | psv => rfl
  | vdu => exact absurd rfl hb

theorem pumpExact_clearBlock (b : Block) {s : State} (hs : pumpExact s) : pumpExact (clearBlock b s) := by
  by_cases hb : b = .vdu
  · rw [hb]
    exact pumpExact_mapChannels _ _
  · exact pumpExact_of_vdu (clearBlock_vdu hb s) hs

theorem pumpExact_takeClearNotice (b : Block) {s : State} (hs : pumpExact s) : pumpExact (takeClearNotice b s) := by
  unfold takeClearNotice
  split
  · exact hs
  · split
    · exact pumpExact_clearBlock .exc hs
    · exact pumpExact_of_vdu (send_vdu _ _) (pumpExact_clearBlock b hs)

theorem pumpExact_enterHalted (failure : StoreFailure) {s : State} (hs : pumpExact s) :
    pumpExact (enterHalted failure s) :=
  pumpExact_of_vdu (enterState_vdu _ _) (List.foldlRecOn noticed _ (motive := pumpExact) hs
    fun _ hu b _ => pumpExact_blockEnters b .halted hu)

/-! ## Resets and the loss of power: the unit is as R47 sets it -/

theorem pumpExact_assertReset (cause : ResetCause) (s : State) : pumpExact (assertReset cause s) :=
  pumpExact_of_reset (p := (settleAtAssertion s).vdu.view) rfl

theorem pumpExact_losePower (s : State) : pumpExact (losePower s) := pumpExact_of_reset (p := s.vdu.view) rfl

theorem backupReport_vdu (backupHeld : Bool) (s : State) : (backupReport backupHeld s).vdu = s.vdu := by
  unfold backupReport
  split
  · rfl
  · split
    · rfl
    · dsimp only
      split <;> rfl

theorem pumpExact_powerUp (backupHeld : Bool) (s : State) : pumpExact (powerUp backupHeld s) :=
  pumpExact_of_reset (p := s.vdu.view) (backupReport_vdu _ _)

theorem coldStart_vdu (s : State) : (coldStart s).vdu = s.vdu := by
  unfold coldStart emptyTables
  simp

theorem warmStart_vdu (s : State) : (warmStart s).vdu = s.vdu := by
  unfold warmStart
  simp

theorem start_vdu (cause : ResetCause) (s : State) :
    (start cause s).vdu = Vdu.reset (releasedState s.strap s.psv.jobMark) := by
  unfold start
  dsimp only
  split
  · rename_i hp; rw [hp]; rfl
  · rename_i hp; rw [hp, warmStart_vdu]; rfl
  · rw [coldStart_vdu]; rfl

theorem pumpExact_release (cause : ResetCause) (strapHigh : Bool) (s : State) : pumpExact (release cause strapHigh s) := by
  unfold release
  dsimp only
  split
  · exact pumpExact_of_vdu (refreshLamps_vdu _) (pumpExact_enterHalted _ (pumpExact_of_reset (p := .config) rfl))
  · exact pumpExact_of_vdu (refreshLamps_vdu _) (pumpExact_of_reset (start_vdu _ _))

theorem pumpExact_takeReset {s : State} (hs : pumpExact s) : pumpExact (takeReset s) := by
  unfold takeReset
  split
  · exact hs
  · exact pumpExact_release _ _ _

theorem pumpExact_assertLine {s : State} (hs : pumpExact s) : pumpExact (assertLine s) := by
  unfold assertLine lineRestart lineHold
  split
  · split
    · exact hs
    · exact pumpExact_assertReset _ _
  · split
    · exact pumpExact_assertReset _ _
    · exact pumpExact_assertReset _ _
    · exact hs
    · exact hs

/-! ## The supply and the store (10, 09 R172) -/

theorem pumpExact_takeStoreError (failure : StoreFailure) {s : State} (hs : pumpExact s) :
    pumpExact (takeStoreError failure s) := by
  unfold takeStoreError
  split
  · exact hs
  · split
    · exact pumpExact_losePower _
    · exact pumpExact_enterHalted failure hs

theorem noteRepeated_vdu (s : State) : (noteRepeated s).vdu = s.vdu := by
  unfold noteRepeated
  dsimp only
  rw [send_vdu]
  split <;> rfl

theorem warnBlocks_vdu (s : State) : (warnBlocks s).vdu = (setQuiet s).vdu := by
  unfold warnBlocks
  simp [setQuiet]

theorem takeWarning_vdu (s : State) : (takeWarning s).vdu = (setQuiet s).vdu := by
  unfold takeWarning
  simp only [enterState_vdu, onPsv_vdu, sendAll_vdu, warnBlocks_vdu]
  split
  · simp [setQuiet, noteRepeated_vdu]
  · rfl

theorem pumpExact_takeWarning {s : State} (hs : pumpExact s) : pumpExact (takeWarning s) :=
  pumpExact_of_vdu (takeWarning_vdu s) (pumpExact_setQuiet hs)

theorem pumpExact_takeSupplyLow {s : State} (hs : pumpExact s) : pumpExact (takeSupplyLow s) := by
  unfold takeSupplyLow
  split
  · split
    · exact hs
    · exact hs
    · exact pumpExact_takeWarning hs
  · exact hs
  · exact hs

theorem pumpExact_takeSupplyDies {s : State} (hs : pumpExact s) : pumpExact (takeSupplyDies s) := by
  unfold takeSupplyDies
  split
  · split
    · exact pumpExact_losePower s
    · exact pumpExact_losePower s
    · exact pumpExact_of_vdu (onPsv_vdu _ _) (pumpExact_takeWarning hs)
  · exact hs
  · exact pumpExact_losePower s

theorem pumpExact_takeDeferredReset {s : State} (hs : pumpExact s) : pumpExact (takeDeferredReset s) := by
  unfold takeDeferredReset
  split
  · exact hs
  · exact pumpExact_release _ _ _
  · exact pumpExact_assertReset _ _
  · exact pumpExact_release _ _ _

theorem pumpExact_judgeActions (report : Instr) {s : State} (hs : pumpExact s) : pumpExact (judgeActions report s) := by
  unfold judgeActions completeActions
  split
  · split
    · exact hs
    · split
      · exact pumpExact_losePower s
      · exact pumpExact_takeDeferredReset hs
  · exact hs

theorem pumpExact_takeWaveDone {s : State} (hs : pumpExact s) : pumpExact (takeWaveDone s) := by
  unfold takeWaveDone
  split
  · exact pumpExact_judgeActions _ hs
  · exact hs

theorem pumpExact_takeFeedStopped {s : State} (hs : pumpExact s) : pumpExact (takeFeedStopped s) := by
  unfold takeFeedStopped
  split
  · exact pumpExact_of_vdu (endStopping_vdu _) hs
  · split
    · exact pumpExact_judgeActions _ hs
    · exact hs

theorem restoreField_vdu (s : State) : (restoreField s).vdu = s.vdu := by
  unfold restoreField
  simp

theorem returnCold_vdu (s : State) : (returnCold s).vdu = Vdu.reset s.vdu.view := by
  unfold returnCold
  simp [restoreField_vdu, resetVdu, emptyTables]

theorem pumpExact_takeReturn {s : State} (hs : pumpExact s) : pumpExact (takeReturn s) := by
  unfold takeReturn returnOfSupply
  split
  · dsimp only
    split
    · exact pumpExact_of_vdu ((beginRecovery_vdu _).trans (restoreField_vdu _)) hs
    · exact pumpExact_of_reset (returnCold_vdu _)
  · exact hs

/-! ## Every step -/

section
variable {c : Instr} {f : State → State} {s t : State}

theorem pumpExact_of_whileActing (he : exec c s = whileActing f s) (hf : pumpExact s → pumpExact (f s))
    (hs : pumpExact s) (h : exec c s = .next t) : pumpExact t := by
  rw [he, whileActing] at h
  injection h with h
  rw [← h]
  split
  · exact pumpExact_of_vdu (refreshLamps_vdu _) (hf hs)
  · exact hs

theorem pumpExact_of_taking (he : exec c s = taking c f s) (hf : ∀ {u}, pumpExact u → pumpExact (f u))
    (hs : pumpExact s) (h : exec c s = .next t) : pumpExact t :=
  pumpExact_of_whileActing (f := fun u => f (took c u)) he (fun hs => hf (pumpExact_of_vdu (took_vdu c s) hs)) hs h

theorem pumpExact_command (hf : pumpExact s → pumpExact (f s)) (hs : pumpExact s) : pumpExact (command f s) := by
  unfold command
  split
  · exact hs
  · exact hf hs

theorem exec_retentionStoreError_pumpExact {failure : StoreFailure} (hs : pumpExact s)
    (h : exec (.retentionStoreError failure) s = .next t) : pumpExact t := by
  have he := exec_retentionStoreError failure s
  split at he
  · exact pumpExact_of_whileActing he (pumpExact_takeStoreError failure) hs h
  · cases he.symm.trans h
    exact hs
  · cases he.symm.trans h
    exact hs

theorem exec_supplyDies_pumpExact (hs : pumpExact s) (h : exec .supplyDies s = .next t) : pumpExact t := by
  have he := exec_supplyDies s
  split at he
  · exact pumpExact_of_whileActing he pumpExact_takeSupplyDies hs h
  · cases he.symm.trans h
    exact pumpExact_losePower s
  · cases he.symm.trans h
    exact hs

theorem exec_resetRelease (strapHigh : Bool) (s : State) :
    exec (.resetRelease strapHigh) s = execResetRelease strapHigh s := rfl

theorem exec_resetRelease_pumpExact {strapHigh : Bool} (hs : pumpExact s)
    (h : exec (.resetRelease strapHigh) s = .next t) : pumpExact t := by
  rw [exec_resetRelease, execResetRelease] at h
  split at h <;> injection h with h <;> rw [← h]
  · exact pumpExact_release _ _ _
  · exact pumpExact_of_vdu (noteRelease_vdu _ _) hs
  · exact hs

theorem exec_powerOn_pumpExact {backupHeld : Bool} (hs : pumpExact s)
    (h : exec (.powerOn backupHeld) s = .next t) : pumpExact t := by
  rw [exec_powerOn] at h
  injection h with h
  rw [← h]
  split
  · exact hs
  · exact pumpExact_of_vdu (refreshLamps_vdu _) (pumpExact_powerUp _ _)

theorem exec_isValve_pumpExact (hc : Instr.isValve c = true) (hs : pumpExact s) (h : exec c s = .next t) : pumpExact t := by
  cases c with
  | openValve st => exact pumpExact_of_taking (exec_openValve st s) (pumpExact_takeOpen st) hs h
  | closeValve st => exact pumpExact_of_taking (exec_closeValve st s) (pumpExact_takeClose st) hs h
  | restValve st => exact pumpExact_of_taking (exec_restValve st s) (pumpExact_takeRest st) hs h
  | offValve st => exact pumpExact_of_taking (exec_offValve st s) (fun _ => pumpExact_setChannel _ _ _) hs h
  | faultReset st => exact pumpExact_of_taking (exec_faultReset st s) (fun _ => pumpExact_setChannel _ _ _) hs h
  | wake => exact pumpExact_of_taking (exec_wake s) pumpExact_takeWake hs h
  | rampEnd st => exact pumpExact_of_whileActing (exec_rampEnd st s) (fun _ => pumpExact_setChannel _ _ _) hs h
  | coilTest st current =>
    exact pumpExact_of_whileActing (exec_coilTest st current s) (fun _ => pumpExact_testCoil st current s) hs h
  | _ => cases hc

theorem exec_reachesValves_pumpExact (hc : Instr.reachesValves c = true) (hs : pumpExact s) (h : exec c s = .next t) :
    pumpExact t := by
  cases c with
  | reset => exact pumpExact_of_whileActing (exec_reset s) (pumpExact_command pumpExact_takeReset) hs h
  | retentionStoreError failure => exact exec_retentionStoreError_pumpExact hs h
  | powerOn backupHeld => exact exec_powerOn_pumpExact hs h
  | lineResetRestart => exact pumpExact_of_whileActing (exec_lineResetRestart s) pumpExact_assertLine hs h
  | lineResetHold => exact pumpExact_of_whileActing (exec_lineResetHold s) pumpExact_assertLine hs h
  | resetRelease strapHigh => exact exec_resetRelease_pumpExact hs h
  | supplyLow => exact pumpExact_of_whileActing (exec_supplyLow s) pumpExact_takeSupplyLow hs h
  | supplyDies => exact exec_supplyDies_pumpExact hs h
  | returnOfGoodSupply => exact pumpExact_of_whileActing (exec_returnOfGoodSupply s) pumpExact_takeReturn hs h
  | powerDownActionsDone => exact pumpExact_of_taking (exec_powerDownActionsDone s) pumpExact_takeWaveDone hs h
  | feedStopped => exact pumpExact_of_taking (exec_feedStopped s) pumpExact_takeFeedStopped hs h
  | partStateNotice b p => exact pumpExact_of_taking (exec_partStateNotice b p s) (pumpExact_takePartState b p) hs h
  | lineHoldNotice b => exact pumpExact_of_taking (exec_lineHoldNotice b s) (pumpExact_blockHolds b) hs h
  | clearNotice b => exact pumpExact_of_taking (exec_clearNotice b s) (pumpExact_takeClearNotice b) hs h
  | _ => cases hc

theorem exec_pumpExact (hs : pumpExact s) (h : exec c s = .next t) : pumpExact t := by
  obtain hc | hc | hc | hc := valve_effect_cases c
  · exact pumpExact_of_vdu (exec_vdu_of_isOfAnotherBlock hc h) hs
  · exact pumpExact_of_vdu (exec_vdu_of_sparesValves hc h) hs
  · exact exec_isValve_pumpExact hc hs h
  · exact exec_reachesValves_pumpExact hc hs h

end

theorem idle_vdu (s : State) : (idle s).vdu = s.vdu := by
  unfold idle
  split <;> rfl

/-- What a step can do: carry out the front command on the queue's rest, carry out what the part does by itself, or let a
millisecond pass. -/
theorem step_cases {s t : State} (h : step s = .next t) :
    (∃ c rest, s.pending = c :: rest ∧ exec c { s with pending := rest } = .next t)
      ∨ (s.pending = [] ∧ ∃ c, nextOwn s = some c ∧ exec c s = .next t)
      ∨ (s.pending = [] ∧ nextOwn s = none ∧ t = idle s) := by
  unfold step at h
  cases hpending : s.pending with
  | cons c rest =>
    rw [hpending] at h
    exact .inl ⟨c, rest, rfl, h⟩
  | nil =>
    rw [hpending] at h
    cases hown : nextOwn s with
    | some c =>
      simp only [hown] at h
      exact .inr (.inl ⟨rfl, c, rfl, h⟩)
    | none =>
      simp only [hown] at h
      injection h with h
      exact .inr (.inr ⟨rfl, rfl, h.symm⟩)

/-- Settles O6: a step is a command carried out or a millisecond that passes, and neither parts the enable from the
channels. -/
theorem stepKeepsThePumpEnableExact : Obligations.StepKeepsThePumpEnableExact := by
  intro s t hs h
  obtain ⟨c, rest, -, hexec⟩ | ⟨-, c, -, hexec⟩ | ⟨-, -, rfl⟩ := step_cases h
  · exact exec_pumpExact (s := { s with pending := rest }) hs hexec
  · exact exec_pumpExact hs hexec
  · exact pumpExact_of_vdu (idle_vdu s) hs

end Sys2Proof.Machine
end

section
/-! PROOF. OPEN raises a channel (03 R37). -/

namespace Sys2Proof.Machine

open Sys2Proof

/-- Where the pump enable is exact, a channel put back as it is changes nothing. -/
theorem setChannel_channelOf {s : State} (hs : pumpExact s) (st : Station) : setChannel s st (channelOf s st) = s := by
  have hvdu : s.vdu.withChannels (put s.vdu.channels st (channelOf s st)) = s.vdu := by
    unfold Vdu.withChannels channelOf
    rw [put_get_self, ← show s.vdu.pumpEnable = anyOf s.vdu.channels Channel.needsPump from hs]
  unfold setChannel
  rw [hvdu]

theorem takesChannel_of_takesCommands {s : State} {st : Station} (h : takesCommands s st) : takesChannel s st = true := by
  obtain ⟨-, hview, hfitted, hfault⟩ := h
  have hdrives : drives s.vdu.view = true := by rcases hview with hv | hv <;> rw [hv] <;> rfl
  simp only [takesChannel, fitted, fittedIn, hdrives, hfitted, hfault, Bool.not_false, Bool.and_self]

/-- Where the unit takes commands for the channel, OPEN acts on that channel alone (R37, R40). -/
theorem openValve_leadsTo {s : State} {st : Station} (h : takesCommands s st) :
    leadsTo (.openValve st) s
      (setChannel (took (.openValve st) s) st ((channelOf s st).commandOpen s.psv.rig s.tmb.fineTime)) :=
  leadsTo_of_taking (exec_openValve st s) h.1 (if_pos (takesChannel_of_takesCommands h))

theorem commandOpen_of_opening_or_opened {c : Channel} (h : c.state = .opening ∨ c.state = .opened) (rig : RigValues)
    (at_ : Word) : c.commandOpen rig at_ = c := by
  unfold Channel.commandOpen
  rcases h with h | h <;> rw [h]

theorem commandOpen_of_idle_or_closing {c : Channel} (h : c.state = .idle ∨ c.state = .closing) (rig : RigValues)
    (at_ : Word) : c.commandOpen rig at_ = c.rise rig at_ := by
  unfold Channel.commandOpen
  rcases h with h | h <;> rw [h]

/-- A rise that takes time begins at the present level (R36). -/
theorem rise_of_duration_ne_zero {c : Channel} {rig : RigValues} {at_ : Word}
    (h : rampDuration rig.riseRamp (rig.onLevel - c.present at_) rig.onLevel ≠ 0) :
    c.rise rig at_ = { c with
      state := .opening, level := c.present at_, target := rig.onLevel
      ramp := some ⟨c.present at_, at_, rampDuration rig.riseRamp (rig.onLevel - c.present at_) rig.onLevel⟩ } := if_neg h

/-- A rise of duration 0 is over at once (R36). -/
theorem rise_of_duration_zero {c : Channel} {rig : RigValues} {at_ : Word}
    (h : rampDuration rig.riseRamp (rig.onLevel - c.present at_) rig.onLevel = 0) :
    c.rise rig at_ = c.stand .opened rig.onLevel := if_pos h

/-- Settles O23: OPEN is `commandOpen` at the one channel, which starts a rise from IDLE or CLOSING and nothing else. -/
theorem openRaisesTheChannel : Obligations.OpenRaisesTheChannel := by
  intro s st htakes
  have hopen := openValve_leadsTo htakes
  refine ⟨fun hpump hstate => ?_, fun hstate hd => ?_, fun hstate hd => ?_⟩
  · rw [commandOpen_of_opening_or_opened hstate] at hopen
    have hsame : setChannel (took (.openValve st) s) st (channelOf s st) = took (.openValve st) s :=
      setChannel_channelOf (s := took (.openValve st) s) (pumpExact_of_vdu (took_vdu _ _) hpump) st
    rwa [hsame] at hopen
  · rw [commandOpen_of_idle_or_closing hstate, rise_of_duration_ne_zero hd] at hopen
    exact hopen
  · rw [commandOpen_of_idle_or_closing hstate, rise_of_duration_zero hd] at hopen
    exact hopen

end Sys2Proof.Machine
end

section
/-! PROOF. A pour plan request is refused, merges or makes a layer (06 R103). -/

namespace Sys2Proof.Machine

open Sys2Proof

/-! ## What the tracker does with its decision -/

theorem unlessHaltedLayer_of_ne {s : State} (h : s.ltr.view ≠ .halted) (f : State → State) :
    unlessHaltedLayer f s = f s := if_neg h

/-- A request decided for no plan is answered REFUSED, and the tracker keeps what it held. -/
theorem pourPlanRequest_leadsTo_of_refused {s : State} {r : PlanRequest} (hacting : acting s = true)
    (hview : s.ltr.view ≠ .halted) (h : decidePlan s r = none) :
    leadsTo (.pourPlanRequest r) s (send (.pourPlanAnswer .refused) (took (.pourPlanRequest r) s)) := by
  have hd : decidePlan (took (.pourPlanRequest r) s) r = none := h
  refine leadsTo_of_taking (exec_pourPlanRequest r s) hacting ?_
  unfold takePlanRequest
  rw [unlessHaltedLayer_of_ne (show (took _ s).ltr.view ≠ _ from hview), hd]
  rfl

/-- A request decided for a plan is answered with its kind, and the tracker holds the plan. -/
theorem pourPlanRequest_leadsTo_of_planned {s : State} {r : PlanRequest} {kind : PlanKind} (hacting : acting s = true)
    (hview : s.ltr.view ≠ .halted) (h : decidePlan s r = some kind) :
    leadsTo (.pourPlanRequest r) s (send (.pourPlanAnswer (planAnswerOf (some kind)))
      (onLtr (fun l => { l with plan := some ⟨r.sector, r.slot, r.mix, r.origin, kind⟩ })
        (took (.pourPlanRequest r) s))) := by
  have hd : decidePlan (took (.pourPlanRequest r) s) r = some kind := h
  refine leadsTo_of_taking (exec_pourPlanRequest r s) hacting ?_
  unfold takePlanRequest
  rw [unlessHaltedLayer_of_ne (show (took _ s).ltr.view ≠ _ from hview), hd]

/-! ## The merge test -/

theorem mergesWith_eq_some {s : State} {k : Sector} {slot : BatchSlot} {l : Concrete} (htop : topConcrete s k = some l)
    (hslot : l.slot = slot) (hage : openAge s l ≤ s.psv.rig.mergeWindow) : mergesWith s k slot = some l.index := by
  simp only [mergesWith, htop]
  exact if_pos ⟨hslot, hage⟩

theorem mergesWith_eq_none {s : State} {k : Sector} {slot : BatchSlot}
    (h : ∀ l, topConcrete s k = some l → ¬(l.slot = slot ∧ openAge s l ≤ s.psv.rig.mergeWindow)) :
    mergesWith s k slot = none := by
  unfold mergesWith
  cases htop : topConcrete s k with
  | none => rfl
  | some l => exact if_neg (h l htop)

/-! ## The cases of the decision -/

/-- While a plan is held, and in case 1, there is no plan to make. -/
theorem decidePlan_of_held_or_unused {s : State} {r : PlanRequest} (h : s.ltr.plan ≠ none ∨ used s r.sector = false) :
    decidePlan s r = none := by
  unfold decidePlan
  rcases h with hheld | hunused
  · exact if_pos (Option.isSome_iff_ne_none.mpr hheld)
  · simp [hunused]

section

variable {s : State} {r : PlanRequest} (hfree : s.ltr.plan = none) (hused : used s r.sector = true)

include hfree hused

/-- Case 2: a remainder whose layer is the top one. -/
theorem decidePlan_of_remainder_on_top {i : PortionIndex} {l : Concrete} (hrem : r.remainder = some i)
    (htop : topConcrete s r.sector = some l) (hslot : l.slot = r.slot) (hindex : l.index = i) :
    decidePlan s r = some (.merge i) := by
  simp [decidePlan, hfree, hused, hrem, htop, hslot, hindex]

/-- Case 3: a remainder whose layer is not the top one. -/
theorem decidePlan_of_remainder_not_on_top {i : PortionIndex} (hrem : r.remainder = some i)
    (h : ∀ l, topConcrete s r.sector = some l → l.slot ≠ r.slot ∨ l.index ≠ i) : decidePlan s r = none := by
  simp only [decidePlan, hfree, hused, hrem]
  cases htop : topConcrete s r.sector with
  | none => rfl
  | some l => exact if_neg (not_and_or.mpr (h l htop))

/-- Case 4: a new portion that merges. -/
theorem decidePlan_of_merges {i : PortionIndex} (hrem : r.remainder = none)
    (hmerge : mergesWith s r.sector r.slot = some i) : decidePlan s r = some (.merge i) := by
  simp [decidePlan, hfree, hused, hrem, hmerge]

/-- Case 5: a new portion that does not merge, with room for its layer and an index for it. -/
theorem decidePlan_of_room {i : PortionIndex} (hrem : r.remainder = none)
    (hmerge : mergesWith s r.sector r.slot = none) (hroom : (stackOf s r.sector).length < Config.stackDepth)
    (hindex : r.newIndex = some i) : decidePlan s r = some (.new i) := by
  simp [decidePlan, hfree, hused, hrem, hmerge, hasRoom, hroom, hindex]

/-- Case 6: a new portion that does not merge, with no room for a layer or no index left. -/
theorem decidePlan_of_no_room_or_index (hrem : r.remainder = none) (hmerge : mergesWith s r.sector r.slot = none)
    (h : Config.stackDepth ≤ (stackOf s r.sector).length ∨ r.newIndex = none) : decidePlan s r = none := by
  rcases h with hfull | hnone
  · simp [decidePlan, hfree, hused, hrem, hmerge, hasRoom, hfull]
  · simp [decidePlan, hfree, hused, hrem, hmerge, hnone]

end

/-- Settles O48: each row of R103's table decides the plan, and the decision is what is answered and held. -/
theorem pourPlansMergeOrMakeALayer : Obligations.PourPlansMergeOrMakeALayer := by
  intro s r hacting hview
  have planned {kind : PlanKind} (h : decidePlan s r = some kind) :=
    pourPlanRequest_leadsTo_of_planned hacting hview h
  have refused (h : decidePlan s r = none) := pourPlanRequest_leadsTo_of_refused hacting hview h
  refine ⟨fun h => refused (decidePlan_of_held_or_unused h), fun hfree hused => ?_⟩
  have refusedFree (h : decidePlan s r = none) :
      leadsTo (.pourPlanRequest r) s { took (.pourPlanRequest r) s with
        ltr := { s.ltr with plan := none }, mail := s.mail.erase (.pourPlanRequest r) ++ [.pourPlanAnswer .refused] } := by
    rw [← hfree]
    exact refused h
  refine ⟨fun i hrem => ⟨fun l htop hslot hindex => ?_, fun h => ?_⟩,
    fun hrem => ⟨fun l htop hmerges => ?_, fun hno => ?_⟩⟩
  · exact planned (decidePlan_of_remainder_on_top hfree hused hrem htop hslot hindex)
  · exact refusedFree (decidePlan_of_remainder_not_on_top hfree hused hrem h)
  · obtain ⟨hslot, hage⟩ := hmerges
    exact planned (decidePlan_of_merges hfree hused hrem (mergesWith_eq_some htop hslot hage))
  · have hmerge : mergesWith s r.sector r.slot = none := mergesWith_eq_none hno
    exact ⟨fun i hroom hindex => planned (decidePlan_of_room hfree hused hrem hmerge hroom hindex),
      fun h => refusedFree (decidePlan_of_no_room_or_index hfree hused hrem hmerge h)⟩

end Sys2Proof.Machine
end

section
/-! PROOF. A block's own commands change what that block keeps, the messages and the lamps, and nothing else. -/

namespace Sys2Proof.Machine

open Sys2Proof

section
variable {c : Instr} {f : State → State} {s : State} {R : State → State → Prop}

/-- A command that acts as `f` leads to a state that stands to the present one as `f` has it. -/
theorem leadsTo_related_of_whileActing (he : exec c s = whileActing f s) (hacting : acting s = true) (hf : R s (f s)) :
    ∃ u, leadsTo c s u ∧ R s u := ⟨_, leadsTo_of_whileActing he hacting rfl, hf⟩

/-- A message that acts as `f` leads to a state that stands to the present one as `f` has it, once it is taken. -/
theorem leadsTo_related_of_taking (he : exec c s = taking c f s) (hacting : acting s = true)
    (hf : R s (f (took c s))) : ∃ u, leadsTo c s u ∧ R s u := ⟨_, leadsTo_of_taking he hacting rfl, hf⟩

end

/-! ## What the Feed Distributor leaves of the tracker -/

/-- What the Layer Tracker keeps, but for its last answer and the sector events, which a feed view sets (06 R102, log 13). -/
def Ltr.apartFromView (l : Ltr) : Ltr := { l with lastView := none, events := Vector.replicate 16 0 }

theorem apartFromView_eq {l m : Ltr} (h : m.apartFromView = l.apartFromView) :
    m = { l with lastView := m.lastView, events := m.events } := by
  simp only [Ltr.apartFromView, Ltr.mk.injEq] at h
  obtain ⟨hstack, hopenings, hbottoms, -, hage, hfill, hmask, hplan, -, hview⟩ := h
  cases l
  cases m
  simp_all

/-- The operation leaves the tracker alone but for its last answer and the sector events. -/
def sparesTracker (f : State → State) : Prop := ∀ s, (f s).ltr.apartFromView = s.ltr.apartFromView

theorem sparesTracker_unlessHaltedFeed {f : State → State} (hf : sparesTracker f) : sparesTracker (unlessHaltedFeed f) := by
  intro s
  unfold unlessHaltedFeed
  split
  · rfl
  · exact hf s

theorem sparesTracker_addSectorEvents (k : Sector) (events : BitVec 4) : sparesTracker (addSectorEvents k events) := by
  intro s
  unfold addSectorEvents
  dsimp only
  split <;> rfl

theorem sparesTracker_forSectors (ks : List Sector) {f : Sector → State → State} (hf : ∀ k, sparesTracker (f k)) :
    sparesTracker (forSectors ks f) := by
  induction ks with
  | nil => exact fun _ => rfl
  | cons k ks ih => exact fun s => (ih (f k s)).trans (hf k s)

theorem sparesTracker_takeFeedView (slot : BatchSlot) (destination : BitVec 16) :
    sparesTracker (takeFeedView slot destination) := by
  intro s
  unfold takeFeedView unlessHaltedLayer
  split
  · rfl
  · exact sparesTracker_forSectors _ (fun k => sparesTracker_addSectorEvents k _) _

theorem sparesTracker_planPortion (slot : BatchSlot) (r : BatchRecord) : sparesTracker (planPortion slot r) := by
  intro s
  unfold planPortion
  dsimp only
  split
  · exact sparesTracker_takeFeedView _ _ s
  · exact sparesTracker_takeFeedView _ _ s

theorem sparesTracker_decideHead (slot : BatchSlot) (r : BatchRecord) : sparesTracker (decideHead slot r) := by
  intro s
  unfold decideHead
  split
  · rfl
  · split
    · rfl
    · exact sparesTracker_planPortion slot r s

/-- A try of the arbiter reaches the tracker through a feed view alone (07 R129). -/
theorem sparesTracker_tryArbiter : sparesTracker tryArbiter := by
  intro s
  unfold tryArbiter
  split
  · split
    · rfl
    · split
      · exact sparesTracker_decideHead _ _ s
      · rfl
  · rfl

theorem reportStopped_ltr (s : State) : (reportStopped s).ltr = s.ltr := by
  unfold reportStopped
  split <;> rfl

theorem settleBatch_ltr (slot : BatchSlot) (r : BatchRecord) (s : State) : (settleBatch slot r s).ltr = s.ltr := by
  unfold settleBatch writeSlot
  rw [send_ltr]
  split <;> rfl

theorem openDrop_ltr (sector : Sector) (slot : BatchSlot) (volume : Nat) (s : State) :
    (openDrop sector slot volume s).ltr = s.ltr := by
  unfold openDrop
  dsimp only
  split <;> rfl

theorem wasteRemainder_ltr (slot : BatchSlot) (s : State) : (wasteRemainder slot s).ltr = s.ltr := by
  unfold wasteRemainder
  split <;> rfl

theorem closeWaste_ltr (g : GateRun) (cause : WasteCause) (volume : Nat) (s : State) :
    (closeWaste g cause volume s).ltr = s.ltr := by
  unfold closeWaste
  split
  · exact settleBatch_ltr _ _ _
  · rfl

theorem cutGate_ltr (s : State) : (cutGate s).ltr = s.ltr := by
  unfold cutGate
  split
  · split <;> rfl
  · exact closeWaste_ltr _ _ _ _
  · rfl

theorem sparesTracker_afterGate : sparesTracker afterGate := by
  intro s
  rw [afterGate, reportStopped_ltr]
  exact sparesTracker_tryArbiter s

theorem sparesTracker_takePlanAnswer (answer : PlanAnswer) : sparesTracker (takePlanAnswer answer) := by
  refine sparesTracker_unlessHaltedFeed fun s => ?_
  split
  · split
    · split
      · split
        · rw [wasteRemainder_ltr]; rfl
        · rw [reportStopped_ltr]
          exact sparesTracker_tryArbiter _
      · rw [reportStopped_ltr]; rfl
    · split
      · rw [openDrop_ltr]; rfl
      · rfl
    · split
      · rw [openDrop_ltr]; rfl
      · rfl
  · rfl

theorem sparesTracker_takePlacementAnswer (result : PlacementResult) : sparesTracker (takePlacementAnswer result) := by
  refine sparesTracker_unlessHaltedFeed fun s => ?_
  split
  · split
    · rw [sparesTracker_afterGate, settleBatch_ltr]; rfl
    · exact sparesTracker_afterGate _
    · rfl
  · split
    · exact sparesTracker_afterGate _
    · rfl
  · rfl

theorem sparesTracker_takeGateClose : sparesTracker takeGateClose := by
  refine sparesTracker_unlessHaltedFeed fun s => ?_
  split
  · split <;> rfl
  · rfl

theorem sparesTracker_takeWasteGateClose : sparesTracker takeWasteGateClose := by
  refine sparesTracker_unlessHaltedFeed fun s => ?_
  split
  · rw [sparesTracker_afterGate, closeWaste_ltr]
  · rfl

theorem sparesTracker_takeFeedStop : sparesTracker takeFeedStop :=
  sparesTracker_unlessHaltedFeed fun s => by rw [reportStopped_ltr, cutGate_ltr]; rfl

theorem sparesTracker_takeFeedPowerDown : sparesTracker takeFeedPowerDown :=
  sparesTracker_unlessHaltedFeed fun s => by rw [reportStopped_ltr, cutGate_ltr]; rfl

theorem sparesTracker_takeFeedPause : sparesTracker takeFeedPause := sparesTracker_unlessHaltedFeed fun _ => rfl

theorem sparesTracker_takeFlow (flow : Nat) : sparesTracker (takeFlow flow) :=
  sparesTracker_unlessHaltedFeed fun _ => sparesTracker_tryArbiter _

theorem sparesTracker_takeDeficit : sparesTracker takeDeficit := sparesTracker_unlessHaltedFeed sparesTracker_tryArbiter

theorem sparesTracker_cancelLive (order : OrderSlot) (slot : BatchSlot) (r : BatchRecord) :
    sparesTracker (cancelLive order slot r) := by
  intro s
  unfold cancelLive when
  split
  · split
    · exact sparesTracker_tryArbiter _
    · rfl
  · split
    · rw [send_ltr, cutGate_ltr]; rfl
    · rfl
  · rfl

theorem sparesTracker_takeCancel (order : OrderSlot) (batch : Word) (image : BatchState) :
    sparesTracker (takeCancel order batch image) := by
  refine sparesTracker_unlessHaltedFeed fun s => ?_
  split
  · rfl
  · split
    · exact sparesTracker_cancelLive _ _ _ s
    · split <;> rfl

theorem sparesTracker_takeExitNotice (slot : BatchSlot) (index : PortionIndex) (time : Word) :
    sparesTracker (takeExitNotice slot index time) := by
  refine sparesTracker_unlessHaltedFeed fun s => ?_
  unfold recordExit
  split
  · split
    · split <;> rfl
    · rfl
  · rfl

/-- Only the distributor's own state, the messages, and the tracker's last answer and sector events have changed. -/
theorem feedless_tracker_eq {s t : State} (hframe : feedless t = feedless s)
    (hltr : t.ltr.apartFromView = s.ltr.apartFromView) :
    t = { s with ltr := { s.ltr with lastView := t.ltr.lastView, events := t.ltr.events }, fds := t.fds, mail := t.mail } := by
  have hself := feedless_eq hframe
  rw [apartFromView_eq hltr] at hself
  exact hself

/-! ## What the commands of each block leave alone -/

section
variable {c : Instr} {s : State} (hacting : acting s = true)

include hacting

theorem strokeless_exec (hc : Instr.isStroke c = true) : ∃ u, leadsTo c s u ∧ strokeless u = strokeless s := by
  have of_taking {f : State → State} (he : exec c s = taking c f s) (hf : strokeless (f (took c s)) = strokeless s) :=
    leadsTo_related_of_taking (R := fun s u => strokeless u = strokeless s) he hacting hf
  cases c with
  | openWindow => exact of_taking (exec_openWindow ..) (strokeless_takeOpenWindow ..)
  | closeWindow => exact of_taking (exec_closeWindow ..) (strokeless_takeCloseWindow ..)
  | drainQueue => exact of_taking (exec_drainQueue ..) (strokeless_takeDrainQueue ..)
  | strayReset => exact of_taking (exec_strayReset ..) (strokeless_takeStrayReset ..)
  | _ => cases hc

theorem valveless_exec (hc : Instr.isValve c = true) : ∃ u, leadsTo c s u ∧ valveless u = valveless s := by
  have of_whileActing {f : State → State} (he : exec c s = whileActing f s) (hf : valveless (f s) = valveless s) :=
    leadsTo_related_of_whileActing (R := fun s u => valveless u = valveless s) he hacting hf
  have of_taking {f : State → State} (he : exec c s = taking c f s) (hf : valveless (f (took c s)) = valveless s) :=
    leadsTo_related_of_taking (R := fun s u => valveless u = valveless s) he hacting hf
  cases c with
  | openValve => exact of_taking (exec_openValve ..) (valveless_takeOpen ..)
  | closeValve => exact of_taking (exec_closeValve ..) (valveless_takeClose ..)
  | restValve => exact of_taking (exec_restValve ..) (valveless_takeRest ..)
  | offValve => exact of_taking (exec_offValve ..) (valveless_takeOff ..)
  | faultReset => exact of_taking (exec_faultReset ..) (valveless_takeFaultReset ..)
  | wake => exact of_taking (exec_wake ..) (valveless_takeWake _)
  | rampEnd => exact of_whileActing (exec_rampEnd ..) (valveless_endRamp ..)
  | coilTest => exact of_whileActing (exec_coilTest ..) (valveless_testCoil ..)
  | _ => cases hc

theorem waveless_exec (hc : Instr.isWave c = true) : ∃ u, leadsTo c s u ∧ waveless u = waveless s := by
  have of_whileActing {f : State → State} (he : exec c s = whileActing f s) (hf : waveless (f s) = waveless s) :=
    leadsTo_related_of_whileActing (R := fun s u => waveless u = waveless s) he hacting hf
  have of_taking {f : State → State} (he : exec c s = taking c f s) (hf : waveless (f (took c s)) = waveless s) :=
    leadsTo_related_of_taking (R := fun s u => waveless u = waveless s) he hacting hf
  cases c with
  | firstOfKindNotice => exact of_taking (exec_firstOfKindNotice ..) (waveless_takeFirstOfKind ..)
  | drainAnswer => exact of_taking (exec_drainAnswer ..) (waveless_takeDrainAnswer ..)
  | markRequest => exact of_taking (exec_markRequest ..) (waveless_takeMarkRequest ..)
  | coilFaultNotice => exact of_taking (exec_coilFaultNotice ..) (waveless_takeCoilFault ..)
  | eventRequest => exact of_taking (exec_eventRequest ..) (waveless_takeEventRequest ..)
  | dwellExpiry => exact of_whileActing (exec_dwellExpiry ..) (waveless_takeDwellExpiry _)
  | risePermissionAnswer => exact of_taking (exec_risePermissionAnswer ..) (waveless_takePermission ..)
  | driveTimerExpiry => exact of_whileActing (exec_driveTimerExpiry ..) (waveless_takeDriveTimer _)
  | settleTimerExpiry => exact of_whileActing (exec_settleTimerExpiry ..) (waveless_takeSettleTimer _)
  | fallTimerExpiry => exact of_whileActing (exec_fallTimerExpiry ..) (waveless_takeFallTimer _)
  | waveStop => exact of_taking (exec_waveStop ..) (waveless_takeWaveStop _)
  | wavePowerDown => exact of_taking (exec_wavePowerDown ..) (waveless_takeWavePowerDown _)
  | climbDirective => exact of_taking (exec_climbDirective ..) (waveless_takeClimbDirective ..)
  | requalify => exact of_taking (exec_requalify ..) (waveless_takeRequalify ..)
  | retire => exact of_taking (exec_retire ..) (waveless_takeRetire ..)
  | clearEventsStation => exact of_taking (exec_clearEventsStation ..) (waveless_takeClearStation ..)
  | _ => cases hc

theorem levelless_exec (hc : Instr.isLevel c = true) : ∃ u, leadsTo c s u ∧ levelless u = levelless s := by
  have of_whileActing {f : State → State} (he : exec c s = whileActing f s) (hf : levelless (f s) = levelless s) :=
    leadsTo_related_of_whileActing (R := fun s u => levelless u = levelless s) he hacting hf
  have of_taking {f : State → State} (he : exec c s = taking c f s) (hf : levelless (f (took c s)) = levelless s) :=
    leadsTo_related_of_taking (R := fun s u => levelless u = levelless s) he hacting hf
  cases c with
  | motionOnNotice => exact of_taking (exec_motionOnNotice ..) (levelless_takeMotionOn _)
  | motionOffNotice => exact of_taking (exec_motionOffNotice ..) (levelless_takeMotionOff _)
  | transactionBegin => exact of_whileActing (exec_transactionBegin ..) (levelless_takeTransactionBegin _)
  | querySent => exact of_whileActing (exec_querySent ..) (levelless_takeQuerySent _)
  | replyFrame => exact of_whileActing (exec_replyFrame ..) (levelless_takeReplyFrame ..)
  | replyTimeout => exact of_whileActing (exec_replyTimeout ..) (levelless_takeReplyTimeout _)
  | readingMadeAbsent => exact of_whileActing (exec_readingMadeAbsent ..) (levelless_makeAbsent ..)
  | settleHoldEnd => exact of_whileActing (exec_settleHoldEnd ..) (levelless_endSettleHold _)
  | _ => cases hc

theorem layerless_exec (hc : Instr.isLayer c = true) : ∃ u, leadsTo c s u ∧ layerless u = layerless s := by
  have of_taking {f : State → State} (he : exec c s = taking c f s) (hf : layerless (f (took c s)) = layerless s) :=
    leadsTo_related_of_taking (R := fun s u => layerless u = layerless s) he hacting hf
  cases c with
  | countsChanged => exact of_taking (exec_countsChanged ..) (layerless_takeCountsChanged _)
  | feedView => exact of_taking (exec_feedView ..) (layerless_takeFeedView ..)
  | pourPlanRequest => exact of_taking (exec_pourPlanRequest ..) (layerless_takePlanRequest ..)
  | placement => exact of_taking (exec_placement ..) (layerless_takePlacement ..)
  | dropPlan => exact of_taking (exec_dropPlan ..) (layerless_takeDropPlan _)
  | addOpening => exact of_taking (exec_addOpening ..) (layerless_takeAddOpening ..)
  | dropOpening => exact of_taking (exec_dropOpening ..) (layerless_takeDropOpening ..)
  | clearEventsSector => exact of_taking (exec_clearEventsSector ..) (layerless_takeClearSector ..)
  | risePermissionRequest => exact of_taking (exec_risePermissionRequest ..) (layerless_takePermissionRequest _)
  | feedMaskDirective => exact of_taking (exec_feedMaskDirective ..) (layerless_takeFeedMask ..)
  | _ => cases hc

theorem feedless_exec (hc : Instr.isFeed c = true) : ∃ u, leadsTo c s u ∧ feedless u = feedless s
    ∧ u.ltr.apartFromView = s.ltr.apartFromView := by
  let R (s u : State) : Prop := feedless u = feedless s ∧ u.ltr.apartFromView = s.ltr.apartFromView
  have of_whileActing {f : State → State} (he : exec c s = whileActing f s) (hf : feedless (f s) = feedless s)
      (hltr : sparesTracker f) := leadsTo_related_of_whileActing (R := R) he hacting ⟨hf, hltr s⟩
  have of_taking {f : State → State} (he : exec c s = taking c f s) (hf : feedless (f (took c s)) = feedless s)
      (hltr : sparesTracker f) := leadsTo_related_of_taking (R := R) he hacting ⟨hf, hltr (took c s)⟩
  cases c with
  | pourPlanAnswer =>
    exact of_taking (exec_pourPlanAnswer ..) (feedless_takePlanAnswer ..) (sparesTracker_takePlanAnswer _)
  | placementAnswer =>
    exact of_taking (exec_placementAnswer ..) (feedless_takePlacementAnswer ..) (sparesTracker_takePlacementAnswer _)
  | gateClose => exact of_whileActing (exec_gateClose ..) (feedless_takeGateClose _) sparesTracker_takeGateClose
  | wasteGateClose =>
    exact of_whileActing (exec_wasteGateClose ..) (feedless_takeWasteGateClose _) sparesTracker_takeWasteGateClose
  | feedStop => exact of_taking (exec_feedStop ..) (feedless_takeFeedStop _) sparesTracker_takeFeedStop
  | feedPowerDown =>
    exact of_taking (exec_feedPowerDown ..) (feedless_takeFeedPowerDown _) sparesTracker_takeFeedPowerDown
  | feedPauseRequest => exact of_taking (exec_feedPauseRequest ..) (feedless_takeFeedPause _) sparesTracker_takeFeedPause
  | flowDirective => exact of_taking (exec_flowDirective ..) (feedless_takeFlow ..) (sparesTracker_takeFlow _)
  | deficitNotice => exact of_taking (exec_deficitNotice ..) (feedless_takeDeficit _) sparesTracker_takeDeficit
  | cancelBatch => exact of_taking (exec_cancelBatch ..) (feedless_takeCancel ..) (sparesTracker_takeCancel _ _ _)
  | exitNotice => exact of_taking (exec_exitNotice ..) (feedless_takeExitNotice ..) (sparesTracker_takeExitNotice _ _ _)
  | _ => cases hc

theorem exchangeless_exec (hc : Instr.isExchange c = true) :
    ∃ u, leadsTo c s u ∧ exchangeless u = exchangeless s := by
  have of_whileActing {f : State → State} (he : exec c s = whileActing f s) (hf : exchangeless (f s) = exchangeless s) :=
    leadsTo_related_of_whileActing (R := fun s u => exchangeless u = exchangeless s) he hacting hf
  have of_taking {f : State → State} (he : exec c s = taking c f s) (hf : exchangeless (f (took c s)) = exchangeless s) :=
    leadsTo_related_of_taking (R := fun s u => exchangeless u = exchangeless s) he hacting hf
  cases c with
  | attnWrite => exact of_whileActing (exec_attnWrite ..) (exchangeless_writeAttn ..)
  | attnMaskWrite => exact of_whileActing (exec_attnMaskWrite ..) (exchangeless_writeAttnMask ..)
  | attnPaceWrite => exact of_whileActing (exec_attnPaceWrite ..) (exchangeless_writeAttnPace ..)
  | slotWriteRequest => exact of_taking (exec_slotWriteRequest ..) (exchangeless_takeSlotWrite ..)
  | orderOutcome => exact of_taking (exec_orderOutcome ..) (exchangeless_takeOrderOutcome ..)
  | exchangeScan => exact of_whileActing (exec_exchangeScan ..) (exchangeless_takeScan _)
  | attentionSetRequest => exact of_taking (exec_attentionSetRequest ..) (exchangeless_setAttn ..)
  | publishTimerExpiry => exact of_taking (exec_publishTimerExpiry ..) (exchangeless_takePublishExpiry _)
  | publicationEnd => exact of_taking (exec_publicationEnd ..) (exchangeless_takePublicationEnd _)
  | _ => cases hc

end

/-- Settles O11: the frame of each block, over the commands it takes. -/
theorem blocksChangeTheirOwnStateAlone : Obligations.BlocksChangeTheirOwnStateAlone := by
  intro s c hacting
  refine ⟨fun hc => ?_, fun hc => ?_, fun hc => ?_, fun hc => ?_, fun hc => ?_, fun hc => ?_, fun hc => ?_⟩
  · obtain ⟨u, hu, hframe⟩ := strokeless_exec hacting hc
    exact ⟨u, hu, strokeless_eq hframe⟩
  · obtain ⟨u, hu, hframe⟩ := valveless_exec hacting hc
    exact ⟨u, hu, valveless_eq hframe⟩
  · obtain ⟨u, hu, hframe⟩ := waveless_exec hacting hc
    exact ⟨u, hu, waveless_eq hframe⟩
  · obtain ⟨u, hu, hframe⟩ := levelless_exec hacting hc
    exact ⟨u, hu, levelless_eq hframe⟩
  · obtain ⟨u, hu, hframe⟩ := layerless_exec hacting hc
    exact ⟨u, hu, layerless_eq hframe⟩
  · obtain ⟨u, hu, hframe, hltr⟩ := feedless_exec hacting hc
    exact ⟨u, hu, feedless_tracker_eq hframe hltr⟩
  · obtain ⟨u, hu, hframe⟩ := exchangeless_exec hacting hc
    exact ⟨u, hu, exchangeless_eq hframe⟩

end Sys2Proof.Machine
end

section
/-! SUPPORT. What every step keeps, as one relation between two states, and how the frame of a block's operation reduces it
to that block's own part. -/

namespace Sys2Proof.Machine

open Sys2Proof

/-- From `s` to `t` each thing that is always true of the window, the attention line, the queues, the records, the stacks,
the feed line and the pace is kept, each one by itself. -/
structure Keeps (s t : State) : Prop where
  window : windowCanonical s → windowCanonical t
  attn : attnLineExact s → attnLineExact t
  pace : paceSound s → paceSound t
  queues : queuesSound s → queuesSound t
  records : recordsSound s → recordsSound t
  stack : stacksSound s → stacksSound t
  line : lineSound s → lineSound t

theorem Keeps.refl (s : State) : Keeps s s := ⟨id, id, id, id, id, id, id⟩

theorem Keeps.trans {s t u : State} (h : Keeps s t) (k : Keeps t u) : Keeps s u :=
  ⟨k.window ∘ h.window, k.attn ∘ h.attn, k.pace ∘ h.pace, k.queues ∘ h.queues, k.records ∘ h.records,
    k.stack ∘ h.stack, k.line ∘ h.line⟩

/-! ## Each thing rests on one block -/

theorem windowCanonical_congr {s t : State} (h : t.window = s.window) (hs : windowCanonical s) : windowCanonical t := by
  unfold windowCanonical
  rwa [h]

theorem attnLineExact_congr {s t : State} (h : t.exc = s.exc) (hs : attnLineExact s) : attnLineExact t := by
  unfold attnLineExact
  rwa [h]

theorem paceSound_congr {s t : State} (h : t.exc = s.exc) (hs : paceSound s) : paceSound t := by
  unfold paceSound
  rwa [h]

theorem queuesSound_congr {s t : State} (h : t.ssu = s.ssu) (hs : queuesSound s) : queuesSound t := by
  unfold queuesSound ssuOf
  rwa [h]

theorem recordsSound_congr {s t : State} (h : t.wvc.table = s.wvc.table) (hs : recordsSound s) : recordsSound t := by
  unfold recordsSound recordOf
  rwa [h]

/-- A tracker that keeps its stacks, openings and plan. -/
theorem stacksSound_congr {s t : State} (hstack : t.ltr.stack = s.ltr.stack) (hopenings : t.ltr.openings = s.ltr.openings)
    (hplan : t.ltr.plan = s.ltr.plan) (hs : stacksSound s) : stacksSound t := by
  unfold stacksSound stackOf plansNewLayer
  rwa [hstack, hopenings, hplan]

theorem lineSound_congr {s t : State} (h : t.fds.line = s.fds.line) (hs : lineSound s) : lineSound t := by
  unfold lineSound
  rwa [h]

/-- What rests on nothing that has changed is kept. -/
theorem Keeps.of_same {s t : State} (hwindow : t.window = s.window) (hexc : t.exc = s.exc) (hssu : t.ssu = s.ssu)
    (htable : t.wvc.table = s.wvc.table) (hltr : t.ltr = s.ltr) (hline : t.fds.line = s.fds.line) : Keeps s t where
  window := windowCanonical_congr hwindow
  attn := attnLineExact_congr hexc
  pace := paceSound_congr hexc
  queues := queuesSound_congr hssu
  records := recordsSound_congr htable
  stack := stacksSound_congr (by rw [hltr]) (by rw [hltr]) (by rw [hltr])
  line := lineSound_congr hline

/-! ## From the frames of the blocks -/

theorem Keeps.of_waveless {s t : State} (h : waveless t = waveless s) (hrecords : recordsSound s → recordsSound t) :
    Keeps s t := by
  have heq := waveless_eq h
  exact ⟨windowCanonical_congr (by rw [heq]), attnLineExact_congr (by rw [heq]), paceSound_congr (by rw [heq]),
    queuesSound_congr (by rw [heq]), hrecords, stacksSound_congr (by rw [heq]) (by rw [heq]) (by rw [heq]),
    lineSound_congr (by rw [heq])⟩

theorem Keeps.of_strokeless {s t : State} (h : strokeless t = strokeless s) (hqueues : queuesSound s → queuesSound t) :
    Keeps s t := by
  have heq := strokeless_eq h
  exact ⟨windowCanonical_congr (by rw [heq]), attnLineExact_congr (by rw [heq]), paceSound_congr (by rw [heq]),
    hqueues, recordsSound_congr (by rw [heq]), stacksSound_congr (by rw [heq]) (by rw [heq]) (by rw [heq]),
    lineSound_congr (by rw [heq])⟩

theorem Keeps.of_layerless {s t : State} (h : layerless t = layerless s) (hstacks : stacksSound s → stacksSound t) :
    Keeps s t := by
  have heq := layerless_eq h
  exact ⟨windowCanonical_congr (by rw [heq]), attnLineExact_congr (by rw [heq]), paceSound_congr (by rw [heq]),
    queuesSound_congr (by rw [heq]), recordsSound_congr (by rw [heq]), hstacks, lineSound_congr (by rw [heq])⟩

theorem Keeps.of_feedless {s t : State} (h : feedless t = feedless s)
    (hltr : t.ltr.apartFromView = s.ltr.apartFromView) (hline : lineSound s → lineSound t) : Keeps s t := by
  have heq := feedless_eq h
  have htracker := apartFromView_eq hltr
  exact ⟨windowCanonical_congr (by rw [heq]), attnLineExact_congr (by rw [heq]), paceSound_congr (by rw [heq]),
    queuesSound_congr (by rw [heq]), recordsSound_congr (by rw [heq]),
    stacksSound_congr (by rw [htracker]) (by rw [htracker]) (by rw [htracker]), hline⟩

theorem Keeps.of_exchangeless {s t : State} (h : exchangeless t = exchangeless s)
    (hwindow : windowCanonical s → windowCanonical t) (hattn : attnLineExact s → attnLineExact t)
    (hpace : paceSound s → paceSound t) : Keeps s t := by
  have heq := exchangeless_eq h
  exact ⟨hwindow, hattn, hpace, queuesSound_congr (by rw [heq]), recordsSound_congr (by rw [heq]),
    stacksSound_congr (by rw [heq]) (by rw [heq]) (by rw [heq]), lineSound_congr (by rw [heq])⟩

theorem Keeps.of_levelless {s t : State} (h : levelless t = levelless s) : Keeps s t := by
  have heq := levelless_eq h
  exact .of_same (by rw [heq]) (by rw [heq]) (by rw [heq]) (by rw [heq]) (by rw [heq]) (by rw [heq])

theorem Keeps.of_valveless {s t : State} (h : valveless t = valveless s) : Keeps s t := by
  have heq := valveless_eq h
  exact .of_same (by rw [heq]) (by rw [heq]) (by rw [heq]) (by rw [heq]) (by rw [heq]) (by rw [heq])

/-! ## Steps of an operation that keep everything -/

theorem keeps_took (c : Instr) (s : State) : Keeps s (took c s) := .of_same rfl rfl rfl rfl rfl rfl

theorem keeps_send (c : Instr) (s : State) : Keeps s (send c s) := .of_same rfl rfl rfl rfl rfl rfl

theorem keeps_sendAll (cs : List Instr) (s : State) : Keeps s (sendAll cs s) := .of_same rfl rfl rfl rfl rfl rfl

theorem keeps_onPsv (f : Psv → Psv) (s : State) : Keeps s (onPsv f s) := .of_same rfl rfl rfl rfl rfl rfl

theorem keeps_refreshLamps (s : State) : Keeps s (refreshLamps s) := .of_same rfl rfl rfl rfl rfl rfl

theorem Keeps.fold {α : Type} (f : State → α → State) (h : ∀ t a, Keeps t (f t a)) (l : List α) (s : State) :
    Keeps s (l.foldl f s) := by
  induction l generalizing s with
  | nil => exact .refl s
  | cons a l ih => exact (h s a).trans (ih (f s a))

section
variable {c : Instr} {f : State → State} {s t : State}

theorem Keeps.of_whileActing (he : exec c s = whileActing f s) (hf : Keeps s (f s)) (h : exec c s = .next t) :
    Keeps s t := by
  rw [he, whileActing] at h
  injection h with h
  rw [← h]
  split
  · exact hf.trans (keeps_refreshLamps _)
  · exact .refl s

theorem Keeps.of_taking (he : exec c s = taking c f s) (hf : ∀ u, Keeps u (f u)) (h : exec c s = .next t) : Keeps s t :=
  .of_whileActing (f := fun u => f (took c u)) he ((keeps_took c s).trans (hf _)) h

end

end Sys2Proof.Machine
end

section
/-! SUPPORT. The station records stay sound through every operation of the Wave Controller (04 R48, R71). -/

namespace Sys2Proof.Machine

open Sys2Proof

/-! ## Operations that leave the Jack Table as it is -/

@[simp] theorem setClimb_table (c : Climb) (s : State) : (setClimb c s).wvc.table = s.wvc.table := by
  unfold setClimb
  dsimp only
  split <;> rfl

@[simp] theorem addHold_table (position : Nat) (s : State) : (addHold position s).wvc.table = s.wvc.table := by
  unfold addHold
  dsimp only
  split
  · rw [setClimb_table]
  · rfl

@[simp] theorem evaluateShort_table (st : Station) (s : State) : (evaluateShort st s).wvc.table = s.wvc.table := by
  unfold evaluateShort when
  split
  · exact addHold_table _ s
  · rfl

@[simp] theorem flushCounts_table (s : State) : (flushCounts s).wvc.table = s.wvc.table := by
  unfold flushCounts
  split <;> rfl

@[simp] theorem sendDrain_table (purpose : DrainPurpose) (st : Station) (s : State) :
    (sendDrain purpose st s).wvc.table = s.wvc.table := rfl

@[simp] theorem sendDrainClose_table (purpose : DrainPurpose) (st : Station) (s : State) :
    (sendDrainClose purpose st s).wvc.table = s.wvc.table := rfl

theorem forEach_table {f : Station → State → State} (hf : ∀ st s, (f st s).wvc.table = s.wvc.table) (sts : List Station)
    (s : State) : (forEach sts f s).wvc.table = s.wvc.table := by
  induction sts generalizing s with
  | nil => rfl
  | cons st sts ih => exact (ih (f st s)).trans (hf st s)

@[simp] theorem finishDriveEnd_table (s : State) : (finishDriveEnd s).wvc.table = s.wvc.table := by
  unfold finishDriveEnd
  simp

@[simp] theorem beginDriveEnd_table (woundDown : Bool) (s : State) : (beginDriveEnd woundDown s).wvc.table = s.wvc.table := by
  unfold beginDriveEnd
  dsimp only
  split <;> simp [forEach_table (sendDrain_table _)]

@[simp] theorem climbAfterWave_table (s : State) : (climbAfterWave s).wvc.table = s.wvc.table := by
  unfold climbAfterWave
  split <;> simp

@[simp] theorem barStops_table (st : Station) (s : State) : (barStops st s).wvc.table = s.wvc.table := by
  unfold barStops
  split <;> rfl

@[simp] theorem beginEvaluation_table (s : State) : (beginEvaluation s).wvc.table = s.wvc.table := by
  unfold beginEvaluation
  split <;> rfl

@[simp] theorem startDrive_table (s : State) : (startDrive s).wvc.table = s.wvc.table := by
  unfold startDrive
  simp

@[simp] theorem windDown_table (s : State) : (windDown s).wvc.table = s.wvc.table := by
  unfold windDown
  split <;> simp

@[simp] theorem closeRecoveryWindows_table (s : State) : (closeRecoveryWindows s).wvc.table = s.wvc.table := by
  unfold closeRecoveryWindows
  simp [forEach_table (sendDrainClose_table _)]

@[simp] theorem waveEnters_table (p : PartState) (s : State) : (waveEnters p s).wvc.table = s.wvc.table := by
  unfold waveEnters
  split
  · rfl
  · rfl
  · simp [Wvc.halt]
  · rfl

@[simp] theorem waveSecond_table (s : State) : (waveSecond s).wvc.table = s.wvc.table := by
  unfold waveSecond
  split <;> simp

/-- An operation that is skipped in HALTED leaves the table alone where the operation does. -/
theorem unlessHaltedWave_table {f : State → State} {s : State} (hf : (f s).wvc.table = s.wvc.table) :
    (unlessHaltedWave f s).wvc.table = s.wvc.table := by
  unfold unlessHaltedWave
  split
  · rfl
  · exact hf

@[simp] theorem waveLineHold_table (s : State) : (waveLineHold s).wvc.table = s.wvc.table := by
  refine unlessHaltedWave_table ?_
  dsimp only
  split <;> simp

/-! ## One record changed -/

/-- A record that is sound whether or not its station is BARRED: it may have 3 marks. -/
def StationRecord.nearlySound (r : StationRecord) : Prop := r.marks ≤ 3 ∧ r.count ≤ 65535

theorem sound_of_no_marks {r : StationRecord} (hm : r.marks = 0) (hc : r.count ≤ 65535) : r.sound :=
  ⟨hm ▸ Nat.zero_le 3, fun h => absurd (hm.symm.trans h) (by decide), hc⟩

theorem recordsSound_setRecord {s : State} {st : Station} {r : StationRecord}
    (hothers : ∀ x, x ≠ st → (recordOf s x).sound) (hr : r.sound) : recordsSound (setRecord s st r) := by
  intro x
  rw [recordOf_setRecord_ite]
  split
  · exact hr
  · rename_i hx; exact hothers x hx

section
variable {s : State} (hs : recordsSound s)

include hs

theorem recordsSound_setRecord_of_sound (st : Station) {r : StationRecord} (hr : r.sound) :
    recordsSound (setRecord s st r) := recordsSound_setRecord (fun x _ => hs x) hr

/-- A record whose service, marks and count are as they were is as sound as it was. -/
theorem sound_of_same (st : Station) {r : StationRecord} (hservice : r.service = (recordOf s st).service)
    (hmarks : r.marks = (recordOf s st).marks) (hcount : r.count = (recordOf s st).count) : r.sound := by
  obtain ⟨hm, hb, hc⟩ := hs st
  exact ⟨hmarks ▸ hm, fun h => hservice ▸ hb (hmarks ▸ h), hcount ▸ hc⟩

theorem recordsSound_addEvents (st : Station) (events : BitVec 9) : recordsSound (addEvents st events s) := by
  rw [addEvents_eq]
  exact recordsSound_setRecord_of_sound hs st (sound_of_same hs _ rfl rfl rfl)

theorem recordsSound_creditStroke (st : Station) (edgeTime : Word) : recordsSound (creditStroke st edgeTime s) := by
  obtain ⟨hm, hb, -⟩ := hs st
  have hset := recordsSound_setRecord_of_sound hs st (r := { recordOf s st with
    count := min Config.countLimit ((recordOf s st).count + 1)
    lastStroke := some (min Config.countLimit (since edgeTime s.wvc.driveStart)) }) ⟨hm, hb, Nat.min_le_left _ _⟩
  unfold creditStroke
  dsimp only
  split
  · exact hset
  · exact hset

theorem recordsSound_creditFirst (st : Station) (records : List EdgeRecord) : recordsSound (creditFirst st records s) := by
  unfold creditFirst
  split
  · exact recordsSound_creditStroke hs st _
  · exact hs

theorem recordsSound_creditLate (st : Station) (records : List EdgeRecord) : recordsSound (creditLate st records s) := by
  have hcredited := recordsSound_creditFirst hs st records
  unfold creditLate
  dsimp only
  split
  · exact recordsSound_setRecord_of_sound hcredited st (sound_of_same hcredited _ rfl rfl rfl)
  · exact hcredited

theorem recordsSound_setDoubt (st : Station) : recordsSound (setDoubt st s) := by
  have hset : recordsSound (setRecord s st { recordOf s st with inDoubt := true }) :=
    recordsSound_setRecord_of_sound hs st (sound_of_same hs st rfl rfl rfl)
  exact recordsSound_addEvents hset st evDoubt

theorem recordsSound_carryOutRetire (st : Station) : recordsSound (carryOutRetire st s) := by
  obtain ⟨-, -, hc⟩ := hs st
  have hretired : recordsSound (setRecord s st { recordOf s st with service := .retired, marks := 0, cleanRun := 0 }) :=
    recordsSound_setRecord_of_sound hs st (sound_of_no_marks rfl hc)
  unfold carryOutRetire
  dsimp only
  split
  · exact recordsSound_congr (by simp) hretired
  · exact recordsSound_congr (by simp) hretired

theorem recordsSound_carryOutDeferred (st : Station) : recordsSound (carryOutDeferred st s) := by
  unfold carryOutDeferred
  split
  · exact hs
  · have hset : recordsSound (setRecord s st { recordOf s st with retirePending := none }) :=
      recordsSound_setRecord_of_sound hs st (sound_of_same hs st rfl rfl rfl)
    exact recordsSound_congr (by rw [send_wvc]) (recordsSound_carryOutRetire hset st)

theorem recordsSound_updateClean (st : Station) : recordsSound (updateClean st s) := by
  obtain ⟨hm, hb, hc⟩ := hs st
  unfold updateClean
  split
  · refine recordsSound_setRecord_of_sound hs st ?_
    unfold StationRecord.cleanWave
    split
    · exact ⟨by dsimp only; omega, fun h => by dsimp only at h; omega, hc⟩
    · exact ⟨hm, hb, hc⟩
  · exact hs

end

theorem recordsSound_forEach {f : Station → State → State} (hf : ∀ st t, recordsSound t → recordsSound (f st t))
    (sts : List Station) {s : State} (hs : recordsSound s) : recordsSound (forEach sts f s) :=
  List.foldlRecOn sts _ (motive := recordsSound) hs fun t ht st _ => hf st t ht

/-! ## Phase ends, bars and marks -/

section
variable {s : State} (hs : recordsSound s)

include hs

theorem recordsSound_carryOutAllDeferred : recordsSound (carryOutAllDeferred s) :=
  recordsSound_forEach (fun st _ ht => recordsSound_carryOutDeferred ht st) _ hs

theorem recordsSound_finishSettleEnd : recordsSound (finishSettleEnd s) := by
  have hclean (cs : List Instr) : recordsSound (forEach (participants s) updateClean
      (sendAll cs { s with wvc := { s.wvc with ending := none } })) :=
    recordsSound_forEach (fun st _ ht => recordsSound_updateClean ht st) _ (by exact hs)
  unfold finishSettleEnd
  exact recordsSound_congr (by rw [climbAfterWave_table, flushCounts_table]) (recordsSound_carryOutAllDeferred (hclean _))

theorem recordsSound_beginSettleEnd : recordsSound (beginSettleEnd s) := by
  have hdrained (L : List Station) : recordsSound (forEach L (sendDrain .settleEnd) (send .motionOffNotice { s with
      wvc := { s.wvc with settleTimer := none, fallTimer := none, ending := some .settleEnd } })) :=
    recordsSound_congr (forEach_table (sendDrain_table _) _ _) hs
  unfold beginSettleEnd
  dsimp only
  split
  · exact recordsSound_finishSettleEnd (hdrained _)
  · exact hdrained _

theorem recordsSound_checkPhase : recordsSound (checkPhase s) := by
  unfold checkPhase
  split
  · exact hs
  · split
    · split
      · exact recordsSound_congr (beginDriveEnd_table _ _) hs
      · exact hs
    · split
      · exact recordsSound_beginSettleEnd hs
      · exact hs
    · exact hs

end

/-- A bar makes the one record sound that a third mark has left unsound. -/
theorem recordsSound_barOwing {s : State} {st : Station} (hothers : ∀ x, x ≠ st → (recordOf s x).sound)
    (hst : (recordOf s st).nearlySound) (events : BitVec 9) : recordsSound (barOwing events st s) := by
  obtain ⟨hm, hc⟩ := hst
  have hbarred : recordsSound (setRecord s st { recordOf s st with service := .barred }) :=
    recordsSound_setRecord hothers ⟨hm, fun _ => rfl, hc⟩
  exact recordsSound_congr (by simp [barOwing]) (recordsSound_addEvents hbarred st (events ||| evBarred))

theorem nearlySound_of_sound {r : StationRecord} (h : r.sound) : r.nearlySound := by
  obtain ⟨hm, -, hc⟩ := h
  exact ⟨hm, hc⟩

theorem recordsSound_bar {s : State} {st : Station} (hothers : ∀ x, x ≠ st → (recordOf s x).sound)
    (hst : (recordOf s st).nearlySound) (events : BitVec 9) : recordsSound (bar events st s) :=
  recordsSound_congr (flushCounts_table _) (recordsSound_checkPhase (recordsSound_barOwing hothers hst events))

/-- A record set at one station, the events of a mark added and the wave item changed: the other records stay. -/
theorem recordOf_addEvents_other {s : State} {st x : Station} (hx : x ≠ st) (events : BitVec 9) :
    recordOf (addEvents st events s) x = recordOf s x := by
  rw [addEvents_eq]
  exact recordOf_setRecord_other s _ (Ne.symm hx)

theorem recordOf_addEvents_same (s : State) (st : Station) (events : BitVec 9) :
    recordOf (addEvents st events s) st = { recordOf s st with events := (recordOf s st).events ||| events } := by
  rw [addEvents_eq]
  exact recordOf_setRecord s st _

section
variable {s : State} (hs : recordsSound s)

include hs

/-- A mark: the third one bars the station, so that no station is left with 3 marks in service (R71). -/
theorem recordsSound_giveMark (events : BitVec 9) (st : Station) : recordsSound (giveMark events st s) := by
  obtain ⟨hm, hb, hc⟩ := hs st
  unfold giveMark
  dsimp only
  split
  · rename_i hactive
    have hfew : (recordOf s st).marks < 3 := by
      refine lt_of_le_of_ne hm fun h => ?_
      rw [hb h] at hactive
      cases hactive
    generalize hr : { recordOf s st with
      marks := min Config.markLimit ((recordOf s st).marks + 1), cleanRun := 0 } = r
    have hrecord : r.nearlySound := by rw [← hr]; exact ⟨Nat.min_le_left _ _, hc⟩
    generalize hu : (if isParticipant (setRecord s st r) st then
      setItem (setRecord s st r) st { itemOf (setRecord s st r) st with marked := true } else setRecord s st r) = u
    have htable : u.wvc.table = (setRecord s st r).wvc.table := by rw [← hu]; split <;> rfl
    have hother (x : Station) (hx : x ≠ st) : (recordOf u x).sound := by
      have hrecord : recordOf u x = recordOf s x := by
        rw [recordOf, htable]
        exact recordOf_setRecord_other s r (Ne.symm hx)
      exact hrecord ▸ hs x
    have hself : recordOf u st = r := by rw [recordOf, htable]; exact recordOf_setRecord s st r
    split
    · refine recordsSound_bar (fun x hx => ?_) ?_ events
      · rw [recordOf_addEvents_other hx]; exact hother x hx
      · rw [recordOf_addEvents_same, hself]; exact hrecord
    · rename_i hlimit
      have husound : recordsSound u := by
        intro x
        by_cases hx : x = st
        · rw [hx, hself, ← hr]
          have hlt : (recordOf s st).marks + 1 < 3 := Nat.lt_of_not_le hlimit
          exact ⟨Nat.min_le_left _ _, fun h => by simp only [Config.markLimit] at h; omega, hc⟩
        · exact hother x hx
      exact recordsSound_addEvents husound st events
  · exact recordsSound_addEvents hs st events

theorem recordsSound_markIf (events : BitVec 9) (st : Station) : recordsSound (markIf events st s) := by
  unfold markIf
  split
  · exact hs
  · exact recordsSound_giveMark hs events st

/-! ## Judgements and answers -/

theorem recordsSound_setItem (st : Station) (i : WaveItem) : recordsSound (setItem s st i) := hs

theorem recordsSound_judgeDrive (st : Station) (records : List EdgeRecord) (overflow : Bool) :
    recordsSound (judgeDrive st records overflow s) := by
  unfold judgeDrive
  dsimp only
  split
  · split
    · exact recordsSound_creditFirst (recordsSound_setItem hs _ _) st records
    · exact recordsSound_giveMark (recordsSound_creditFirst (recordsSound_setItem hs _ _) st records) _ st
  · split
    · exact recordsSound_setDoubt (recordsSound_setItem hs _ _) st
    · exact recordsSound_giveMark (recordsSound_setItem hs _ _) _ st

theorem recordsSound_judgeSettle (st : Station) (records : List EdgeRecord) (overflow : Bool) :
    recordsSound (judgeSettle st records overflow s) := by
  unfold judgeSettle
  dsimp only
  split
  · split
    · exact recordsSound_markIf hs _ st
    · exact recordsSound_markIf (recordsSound_setItem hs _ _) _ st
  · split
    · exact recordsSound_markIf (recordsSound_creditLate hs st records) _ st
    · exact recordsSound_markIf hs _ st
  · exact hs

theorem recordsSound_settlePowerDown (st : Station) (records : List EdgeRecord) :
    recordsSound (settlePowerDown st records s) := by
  unfold settlePowerDown
  split
  · split
    · exact recordsSound_creditFirst hs st records
    · exact recordsSound_setDoubt hs st
  · exact hs
  · split
    · exact recordsSound_creditLate hs st records
    · exact hs

theorem recordsSound_settleBar (st : Station) (records : List EdgeRecord) : recordsSound (settleBar st records s) := by
  unfold settleBar
  split
  · exact hs
  · split
    · exact recordsSound_creditLate hs st records
    · exact hs
  · exact hs

theorem recordsSound_actOnAnswer (purpose : DrainPurpose) (st : Station) (records : List EdgeRecord) (overflow : Bool) :
    recordsSound (actOnAnswer purpose st records overflow s) := by
  cases purpose with
  | driveEnd => exact recordsSound_judgeDrive hs st records overflow
  | settleEnd => exact recordsSound_judgeSettle hs st records overflow
  | barDrive => exact recordsSound_creditFirst hs st records
  | barSettle => exact recordsSound_settleBar hs st records
  | powerDown => exact recordsSound_settlePowerDown hs st records
  | discard => exact hs

theorem recordsSound_finishPowerDown : recordsSound (finishPowerDown s) := by
  have hcarried := recordsSound_carryOutAllDeferred (s := { s with wvc := { s.wvc with ending := none } }) hs
  exact recordsSound_congr (by simp [finishPowerDown]) hcarried

theorem recordsSound_checkEnding : recordsSound (checkEnding s) := by
  unfold checkEnding
  split
  · split
    · exact recordsSound_congr (finishDriveEnd_table s) hs
    · exact hs
  · split
    · exact recordsSound_finishSettleEnd hs
    · exact hs
  · split
    · exact recordsSound_finishPowerDown hs
    · exact hs
  · exact recordsSound_congr (flushCounts_table s) hs

end

/-! ## What the Wave Controller takes -/

theorem recordsSound_unlessHaltedWave {f : State → State} {s : State} (hf : recordsSound s → recordsSound (f s))
    (hs : recordsSound s) : recordsSound (unlessHaltedWave f s) := by
  unfold unlessHaltedWave
  split
  · exact hs
  · exact hf hs

section
variable {s : State} (hs : recordsSound s)

include hs

theorem recordsSound_takeDrainAnswer (st : Station) (records : List EdgeRecord) (overflow : Bool) :
    recordsSound (takeDrainAnswer st records overflow s) := by
  refine recordsSound_unlessHaltedWave (fun hs => ?_) hs
  dsimp only
  split
  · exact hs
  · rename_i d _
    have hacted : recordsSound (actOnAnswer d.purpose st records overflow
        { s with wvc := { s.wvc with drains := s.wvc.drains.erase d } }) := recordsSound_actOnAnswer (by exact hs) _ _ _ _
    unfold when
    split
    · exact recordsSound_checkEnding (recordsSound_congr (by rfl) hacted)
    · exact recordsSound_checkEnding hacted

theorem recordsSound_takeFirstOfKind (st : Station) (kind : EdgeKind) : recordsSound (takeFirstOfKind st kind s) := by
  refine recordsSound_unlessHaltedWave (fun hs => ?_) hs
  dsimp only
  split
  · split
    · split
      · exact recordsSound_checkPhase (recordsSound_setItem hs _ _)
      · exact hs
    · split
      · exact recordsSound_checkPhase (recordsSound_setItem hs _ _)
      · exact hs
    · split
      · exact recordsSound_setItem hs _ _
      · exact hs
    · exact hs
  · exact hs

theorem recordsSound_takeMarkRequest (st : Station) (cause : MarkCause) : recordsSound (takeMarkRequest st cause s) :=
  recordsSound_unlessHaltedWave (fun hs => recordsSound_giveMark hs _ st) hs

theorem recordsSound_takeCoilFault (st : Station) : recordsSound (takeCoilFault st s) := by
  refine recordsSound_unlessHaltedWave (fun hs => ?_) hs
  split
  · exact recordsSound_bar (fun x _ => hs x) (nearlySound_of_sound (hs st)) _
  · exact recordsSound_addEvents hs st _

theorem recordsSound_takeEventRequest (st : Station) : recordsSound (takeEventRequest st s) :=
  recordsSound_unlessHaltedWave (fun hs => recordsSound_addEvents hs st _) hs

theorem recordsSound_takeDwellExpiry : recordsSound (takeDwellExpiry s) := by
  refine recordsSound_congr (unlessHaltedWave_table ?_) hs
  split <;> simp

theorem recordsSound_takePermission (age fill : BitVec 16) : recordsSound (takePermission age fill s) := by
  refine recordsSound_congr (unlessHaltedWave_table ?_) hs
  dsimp only
  split
  · rfl
  · split
    · split <;> simp
    · simp

theorem recordsSound_takeDriveTimer : recordsSound (takeDriveTimer s) := by
  refine recordsSound_congr (unlessHaltedWave_table ?_) hs
  split <;> simp

theorem recordsSound_takeSettleTimer : recordsSound (takeSettleTimer s) := by
  refine recordsSound_unlessHaltedWave (fun hs => ?_) hs
  split
  · exact recordsSound_beginSettleEnd hs
  · exact hs

theorem recordsSound_takeFallTimer : recordsSound (takeFallTimer s) := by
  refine recordsSound_unlessHaltedWave (fun hs => ?_) hs
  dsimp only
  split
  · exact recordsSound_checkPhase (s := { s with wvc := { s.wvc with fallTimer := none } }) hs
  · exact hs

theorem recordsSound_takeClimbDirective (values : ClimbValues) : recordsSound (takeClimbDirective values s) := by
  refine recordsSound_congr (unlessHaltedWave_table ?_) hs
  dsimp only
  split <;> rfl

theorem recordsSound_takeWaveStop : recordsSound (takeWaveStop s) := by
  refine recordsSound_congr (unlessHaltedWave_table ?_) hs
  have htable : (if s.wvc.view = .run then { s with wvc := { s.wvc with view := .stopping } } else s).wvc.table
      = s.wvc.table := by split <;> rfl
  dsimp only
  split <;> simp [htable]

theorem recordsSound_takeWavePowerDown : recordsSound (takeWavePowerDown s) := by
  refine recordsSound_unlessHaltedWave (fun hs => ?_) hs
  generalize ht : closeRecoveryWindows { s with wvc := { s.wvc with
    view := .powerDown, driveTimer := none, settleTimer := none, fallTimer := none } } = t
  have htsound : recordsSound t := recordsSound_congr (by rw [← ht]; simp) hs
  have hdrained (L : List Station) :
      recordsSound (forEach L (sendDrainClose .powerDown) { t with wvc := { t.wvc with ending := some .powerDown } }) :=
    recordsSound_congr (forEach_table (sendDrainClose_table _) _ _) htsound
  dsimp only
  split
  · split
    · exact recordsSound_finishPowerDown (hdrained _)
    · exact hdrained _
  · exact recordsSound_finishPowerDown htsound

/-- A REQUALIFY answered DONE has a count that a record may hold (R79). -/
theorem recordsSound_takeRequalify (slot : OrderSlot) (station count : Word) :
    recordsSound (takeRequalify slot station count s) := by
  refine recordsSound_unlessHaltedWave (fun hs => ?_) hs
  split
  · rename_i st hst hdone
    have hcount : count.toNat ≤ 65535 := by
      by_contra hlarge
      simp only [requalifyOutcome, hst, if_pos (show Config.countLimit < count.toNat from Nat.lt_of_not_le hlarge)] at hdone
      cases hdone
    have hset := recordsSound_setRecord_of_sound hs st (r := { recordOf s st with
      service := .active, count := count.toNat, marks := 0, cleanRun := 0, inDoubt := false, retirePending := none })
      (sound_of_no_marks rfl hcount)
    exact recordsSound_congr (by simp [answerOrder, carryOutRequalify]) hset
  · exact hs

theorem recordsSound_takeRetire (slot : OrderSlot) (station : Word) : recordsSound (takeRetire slot station s) := by
  refine recordsSound_unlessHaltedWave (fun hs => ?_) hs
  dsimp only
  split
  · exact hs
  · rename_i st _
    have hcases : recordsSound (if isParticipant s st then
        if (recordOf s st).retirePending.isSome then answerOrder slot .busy s
        else send (.orderOutcome slot .taken) (setRecord s st { recordOf s st with retirePending := some slot })
      else answerOrder slot .done (flushCounts (carryOutRetire st s))) := by
      split
      · split
        · exact hs
        · exact recordsSound_setRecord_of_sound hs st (sound_of_same hs _ rfl rfl rfl)
      · exact recordsSound_congr (by simp [answerOrder]) (recordsSound_carryOutRetire hs st)
    split
    · exact hs
    · exact hs
    · exact hcases
    · exact hcases

theorem recordsSound_takeClearStation (slot : OrderSlot) (index events : Word) :
    recordsSound (takeClearStation slot index events s) := by
  refine recordsSound_unlessHaltedWave (fun hs => ?_) hs
  dsimp only
  split
  · exact hs
  · split
    · exact recordsSound_setRecord_of_sound hs _ (sound_of_same hs _ rfl rfl rfl)
    · exact hs

end

/-! ## Tables set up and emptied -/

theorem sound_setUp (isFitted : Bool) : (StationRecord.setUp isFitted).sound :=
  sound_of_no_marks rfl (Nat.zero_le 65535)

theorem recordsSound_setUpTable (mask : BitVec 64) (s : State) : recordsSound (setUpTable mask s) := by
  intro st
  have hrecord : recordOf (setUpTable mask s) st = StationRecord.setUp (fittedIn mask st) := tabulate_get _ st
  rw [hrecord]
  exact sound_setUp _

theorem recordsSound_of_cold {s : State} {p : PartState} (h : s.wvc = Wvc.cold p) : recordsSound s := by
  intro st
  have hrecord : recordOf s st = StationRecord.blank := by rw [recordOf, h]; exact replicate_get _ st
  rw [hrecord]
  exact sound_of_no_marks rfl (Nat.zero_le 65535)

end Sys2Proof.Machine
end

section
/-! SUPPORT. The edge queues stay sound through every operation of the Stroke Sensing Unit (02 R24, R26). -/

namespace Sys2Proof.Machine

open Sys2Proof

/-! ## One station -/

theorem SsuStation.sound_of_same {u v : SsuStation} (hqueue : v.queue = u.queue) (hwindow : v.window = u.window)
    (hoverflow : v.overflow = u.overflow) (hu : u.sound) : v.sound := by
  unfold SsuStation.sound
  rwa [hqueue, hwindow, hoverflow]

/-- An empty queue with a clear overflow flag is sound, whatever the window. -/
theorem SsuStation.sound_of_empty {u : SsuStation} (hqueue : u.queue = []) (hoverflow : u.overflow = false) : u.sound :=
  ⟨by rw [hqueue]; exact Nat.zero_le 4, fun _ => ⟨hqueue, hoverflow⟩⟩

theorem SsuStation.sound_openWindow (kinds : WindowKinds) (notices : Bool) {u : SsuStation} (hu : u.sound) :
    (u.openWindow kinds notices).sound := by
  unfold SsuStation.openWindow
  split
  · exact sound_of_empty rfl rfl
  · exact ⟨hu.1, fun h => nomatch h⟩

theorem SsuStation.sound_closeWindow {u : SsuStation} (hu : u.sound) : u.closeWindow.sound := by
  unfold SsuStation.closeWindow
  split
  · exact hu
  · exact sound_of_empty rfl rfl

theorem SsuStation.sound_read (scans : Nat) (raw : SwitchLevel) (at_ : Word) {u : SsuStation} (hu : u.sound) :
    (u.read scans raw at_).1.sound := by
  unfold SsuStation.read
  split
  · exact hu
  · dsimp only
    split
    · exact hu
    · exact hu

theorem SsuStation.sound_stray (limit : Nat) {u : SsuStation} (hu : u.sound) : (u.stray limit).1.sound := by
  unfold SsuStation.stray
  split
  · exact hu
  · exact hu

/-- A record joins a queue of fewer than 4 only, and the overflow flag is set at an open window only (R26). -/
theorem SsuStation.sound_offer (e : EdgeRecord) {u : SsuStation} (hopen : u.window ≠ none) (hu : u.sound) :
    (u.offer e).1.sound := by
  unfold SsuStation.offer
  split
  · exact hu
  · split
    · rename_i hroom
      have hlength : (u.queue ++ [e]).length ≤ 4 := by rw [List.length_append]; exact hroom
      exact ⟨hlength, fun h => absurd h hopen⟩
    · exact ⟨hu.1, fun h => absurd h hopen⟩

theorem SsuStation.sound_spend (kind : EdgeKind) {u : SsuStation} (hu : u.sound) : (u.spend kind).sound := by
  cases kind
  · exact hu
  · exact hu

/-! ## The unit -/

theorem queuesSound_setSsu {s : State} (hs : queuesSound s) (st : Station) {u : SsuStation} (hu : u.sound) :
    queuesSound (setSsu s st u) := by
  intro x
  by_cases hx : st = x
  · rw [← hx, ssuOf_setSsu]; exact hu
  · rw [ssuOf_setSsu_other s u hx]; exact hs x

theorem queuesSound_mapSsu {f : SsuStation → SsuStation} {s : State} (hf : ∀ st, (f (ssuOf s st)).sound) :
    queuesSound (mapSsu f s) := by
  intro st
  rw [ssuOf_mapSsu]
  exact hf st

section
variable {s : State} (hs : queuesSound s)

include hs

theorem queuesSound_strayEdge (st : Station) : queuesSound (strayEdge st s) := by
  unfold strayEdge
  split
  · unfold when
    dsimp only
    split
    · exact queuesSound_congr (send_ssu _ _) (queuesSound_setSsu hs st (SsuStation.sound_stray _ (hs st)))
    · exact queuesSound_setSsu hs st (SsuStation.sound_stray _ (hs st))
  · exact hs

theorem queuesSound_queueEdge (st : Station) (e : EdgeRecord) (w : Window) (hw : (ssuOf s st).window = some w) :
    queuesSound (queueEdge st e w s) := by
  have hoffer : ((ssuOf s st).offer e).1.sound := SsuStation.sound_offer e (by rw [hw]; exact nofun) (hs st)
  unfold queueEdge
  dsimp only
  split
  · exact queuesSound_congr (send_ssu _ _) (queuesSound_setSsu hs st (SsuStation.sound_spend _ hoffer))
  · exact queuesSound_setSsu hs st hoffer

theorem queuesSound_disposeEdge (st : Station) (e : EdgeRecord) : queuesSound (disposeEdge st e s) := by
  unfold disposeEdge
  split
  · split
    · rename_i w hw
      split
      · exact queuesSound_queueEdge hs st e w hw
      · exact queuesSound_strayEdge hs st
    · exact queuesSound_strayEdge hs st
  · exact hs

theorem queuesSound_readStation (row : Fin 8) (columns : Byte) (column : Fin 8) :
    queuesSound (readStation row columns column s) := by
  unfold readStation
  dsimp only
  split
  · exact queuesSound_setSsu hs _ (SsuStation.sound_of_same (u := ssuOf s (crossing row column)) rfl rfl rfl (hs _))
  · have hread := queuesSound_setSsu hs (crossing row column)
      (SsuStation.sound_read s.psv.rig.debounceScans (rawLevel columns column) (now s) (hs (crossing row column)))
    split
    · exact hread
    · exact queuesSound_disposeEdge hread _ _

theorem queuesSound_readColumns (row : Fin 8) (columns : Byte) : queuesSound (readColumns row columns s) :=
  List.foldlRecOn _ _ (motive := queuesSound) hs fun _ ht column _ => queuesSound_readStation ht row columns column

theorem queuesSound_stopScan : queuesSound (stopScan s) :=
  queuesSound_mapSsu fun st => SsuStation.sound_of_same (u := ssuOf s st) rfl rfl rfl (hs st)

theorem queuesSound_readRow (row : Fin 8) (columns : Byte) (idle : Bool) : queuesSound (readRow row columns idle s) := by
  have hnext : queuesSound (nextRow row idle (readColumns row columns s)) := by
    unfold nextRow
    split
    · exact queuesSound_readColumns hs row columns
    · exact queuesSound_readColumns hs row columns
  unfold readRow
  dsimp only
  split
  · exact queuesSound_stopScan hnext
  · exact hnext

theorem queuesSound_takeOpenWindow (st : Station) (kinds : WindowKinds) (notices : Bool) :
    queuesSound (takeOpenWindow st kinds notices s) := by
  unfold takeOpenWindow
  split
  · exact hs
  · exact queuesSound_setSsu hs st (SsuStation.sound_openWindow kinds notices (hs st))

theorem queuesSound_takeCloseWindow (st : Station) : queuesSound (takeCloseWindow st s) :=
  queuesSound_setSsu hs st (SsuStation.sound_closeWindow (hs st))

theorem queuesSound_takeDrainQueue (st : Station) : queuesSound (takeDrainQueue st s) :=
  queuesSound_congr (send_ssu _ _) (queuesSound_setSsu hs st (SsuStation.sound_of_empty rfl rfl))

theorem queuesSound_takeStrayReset (st : Station) : queuesSound (takeStrayReset st s) :=
  queuesSound_setSsu hs st (SsuStation.sound_of_same (u := ssuOf s st) rfl rfl rfl (hs st))

theorem queuesSound_clearStrays : queuesSound (clearStrays s) :=
  queuesSound_mapSsu fun st => SsuStation.sound_of_same (u := ssuOf s st) rfl rfl rfl (hs st)

theorem queuesSound_ssuEnters (p : PartState) : queuesSound (ssuEnters p s) := by
  unfold ssuEnters
  dsimp only
  split
  · split
    · exact hs
    · exact queuesSound_stopScan (by exact hs)
  · exact queuesSound_mapSsu fun st => SsuStation.sound_of_empty rfl rfl
  · exact hs

theorem queuesSound_strokeLineHold : queuesSound (strokeLineHold s) := by
  unfold strokeLineHold
  split
  · exact hs
  · exact queuesSound_clearStrays hs

theorem queuesSound_endScan : queuesSound (endScan s) := by
  unfold endScan
  split
  · exact hs
  · exact hs

end

theorem queuesSound_of_reset {s : State} {rowTime : Nat} {p : PartState} (h : s.ssu = Ssu.reset rowTime p) :
    queuesSound s := by
  intro st
  have hstation : ssuOf s st = SsuStation.reset := by rw [ssuOf, h]; exact replicate_get _ st
  rw [hstation]
  exact SsuStation.sound_of_empty rfl rfl

end Sys2Proof.Machine
end

section
/-! SUPPORT. The stacks, the openings and the plan stay sound through every operation of the Layer Tracker (06 R98, R103,
R106). -/

namespace Sys2Proof.Machine

open Sys2Proof

/-- No plan for a new layer names the sector while no plan does. -/
theorem not_plansNewLayer_of_none {l : Ltr} (h : l.plan = none) (k : Sector) : ¬plansNewLayer l k := by
  rintro ⟨p, i, hplan, -⟩
  rw [h] at hplan
  cases hplan

theorem not_plansNewLayer_of_not_planned {s : State} {k : Sector} (h : planned s k = false) : ¬plansNewLayer s.ltr k := by
  rintro ⟨p, i, hplan, hsector, -⟩
  simp [planned, hplan, hsector] at h

/-- A sector whose stack and openings are replaced by sound ones. -/
theorem stacksSound_onLtr_put {s : State} (hs : stacksSound s) {k : Sector} {stack : List Layer} {openings : List Opening}
    (hstack : stack.length ≤ 10) (hopenings : openings.length ≤ 2) (hplan : plansNewLayer s.ltr k → stack.length < 10) :
    stacksSound (onLtr (fun l => { l with stack := put l.stack k stack, openings := put l.openings k openings }) s) := by
  intro x
  have hstackOf : stackOf (onLtr (fun l => { l with
      stack := put l.stack k stack, openings := put l.openings k openings }) s) x = if k = x then stack else stackOf s x :=
    put_get _ _ _ _
  have hopeningsOf : (onLtr (fun l => { l with stack := put l.stack k stack, openings := put l.openings k openings })
      s).ltr.openings[x] = if k = x then openings else s.ltr.openings[x] := put_get _ _ _ _
  rw [hstackOf, hopeningsOf]
  by_cases hx : k = x
  · rw [if_pos hx, if_pos hx]
    exact ⟨hstack, hopenings, fun h => hplan (hx ▸ h)⟩
  · rw [if_neg hx, if_neg hx]
    exact hs x

theorem stacksSound_putStack {s : State} (hs : stacksSound s) {k : Sector} {stack : List Layer}
    (hstack : stack.length ≤ 10) (hplan : plansNewLayer s.ltr k → stack.length < 10) :
    stacksSound (onLtr (fun l => { l with stack := put l.stack k stack }) s) := by
  have h := stacksSound_onLtr_put hs hstack (hs k).2.1 hplan
  simp only [onLtr, put_get_self] at h
  exact h

theorem stacksSound_putOpenings {s : State} (hs : stacksSound s) {k : Sector} {openings : List Opening}
    (hopenings : openings.length ≤ 2) :
    stacksSound (onLtr (fun l => { l with openings := put l.openings k openings }) s) := by
  have h := stacksSound_onLtr_put hs (hs k).1 hopenings (hs k).2.2
  simp only [onLtr, stackOf, put_get_self] at h
  exact h

/-- The end of a plan takes no room. -/
theorem stacksSound_endPlan {s : State} (hs : stacksSound s) : stacksSound (onLtr (fun l => { l with plan := none }) s) :=
  fun k => ⟨(hs k).1, (hs k).2.1, fun h => absurd h (not_plansNewLayer_of_none rfl k)⟩

/-- A try of conversion adds a layer to a stack with room only, and lengthens no opening list (R109). -/
theorem convertOpenings_lengths (bottom : Int) (openings : List Opening) (stack : List Layer) (h : stack.length ≤ 10) :
    (convertOpenings bottom stack openings).1.length ≤ 10
      ∧ (convertOpenings bottom stack openings).2.1.length ≤ openings.length := by
  induction openings generalizing stack with
  | nil => exact ⟨h, Nat.le_refl 0⟩
  | cons o os ih =>
    unfold convertOpenings
    dsimp only
    split
    · split
      · obtain ⟨hstack, hopenings⟩ := ih stack h
        exact ⟨hstack, Nat.le_succ_of_le hopenings⟩
      · split
        · rename_i hroom
          obtain ⟨hstack, hopenings⟩ :=
            ih (stack ++ [⟨fillTopOf bottom stack, (o.upper - fillTopOf bottom stack).toNat, .gap⟩])
              (by rw [List.length_append]; exact hroom)
          exact ⟨hstack, Nat.le_succ_of_le hopenings⟩
        · exact ⟨h, Nat.le_refl _⟩
    · exact ⟨h, Nat.le_refl _⟩

theorem length_insertOpening (o : Opening) (os : List Opening) : (insertOpening o os).length = os.length + 1 := by
  induction os with
  | nil => rfl
  | cons p ps ih =>
    unfold insertOpening
    split
    · rfl
    · rw [List.length_cons, ih, List.length_cons]

theorem length_mapLast (f : Layer → Layer) (ls : List Layer) : (mapLast f ls).length = ls.length := by
  induction ls with
  | nil => rfl
  | cons l ls ih =>
    cases ls with
    | nil => rfl
    | cons m ms => rw [mapLast, List.length_cons, ih]; rfl

theorem length_placedStack_le (s : State) (p : Plan) (volume : Nat) :
    (placedStack s p volume).length ≤ (stackOf s p.sector).length + 1 := by
  unfold placedStack
  split
  · rw [List.length_append]; rfl
  · rw [List.length_map]; exact Nat.le_succ _

/-- An opening is added to a list that is not full only (R107). -/
theorem length_openings_of_done {s : State} {k : Sector} {o : Opening} (h : addOpeningOutcome s k o = .done) :
    (s.ltr.openings[k]).length < 2 := by
  unfold addOpeningOutcome at h
  split_ifs at h with _ _ _ hfull
  exact Nat.lt_of_not_le hfull

/-- A placed stack is longer only under a plan for a new layer. -/
theorem length_placedStack_of_merge {s : State} {p : Plan} {i : PortionIndex} (h : p.kind = .merge i) (volume : Nat) :
    (placedStack s p volume).length = (stackOf s p.sector).length := by
  unfold placedStack
  rw [h]
  exact List.length_map _

section
variable {s : State} (hs : stacksSound s)

include hs

theorem stacksSound_addSectorEvents (k : Sector) (events : BitVec 4) : stacksSound (addSectorEvents k events s) := by
  unfold addSectorEvents
  dsimp only
  split
  · exact hs
  · exact hs

theorem stacksSound_removeLeaving (k : Sector) : stacksSound (removeLeaving k s) := by
  have hle : ((stackOf s k).drop (leavingLayers s k).length).length ≤ (stackOf s k).length := by
    rw [List.length_drop]; exact Nat.sub_le _ _
  exact stacksSound_putStack hs (hle.trans (hs k).1) fun h => hle.trans_lt ((hs k).2.2 h)

theorem stacksSound_tryConversion (k : Sector) : stacksSound (tryConversion k s) := by
  unfold tryConversion
  split
  · exact hs
  · rename_i hplanned
    obtain ⟨hstack, hopenings, -⟩ := hs k
    obtain ⟨hconverted, hleft⟩ := convertOpenings_lengths (formBottom s k) s.ltr.openings[k] (stackOf s k) hstack
    refine stacksSound_addSectorEvents (stacksSound_onLtr_put hs hconverted (hleft.trans hopenings) fun h => ?_) k _
    exact absurd h (not_plansNewLayer_of_not_planned (by simpa using hplanned))

theorem stacksSound_exitTest (k : Sector) : stacksSound (exitTest k s) := by
  unfold exitTest
  split
  · exact hs
  · exact stacksSound_tryConversion (stacksSound_removeLeaving hs k) k

end

theorem stacksSound_forSectors {f : Sector → State → State} (hf : ∀ k t, stacksSound t → stacksSound (f k t))
    (ks : List Sector) {s : State} (hs : stacksSound s) : stacksSound (forSectors ks f s) :=
  List.foldlRecOn ks _ (motive := stacksSound) hs fun t ht k _ => hf k t ht

theorem stacksSound_unlessHaltedLayer {f : State → State} {s : State} (hf : stacksSound s → stacksSound (f s))
    (hs : stacksSound s) : stacksSound (unlessHaltedLayer f s) := by
  unfold unlessHaltedLayer
  split
  · exact hs
  · exact hf hs

section
variable {s : State} (hs : stacksSound s)

include hs

theorem stacksSound_takeCountsChanged : stacksSound (takeCountsChanged s) := by
  refine stacksSound_unlessHaltedLayer (fun hs => ?_) hs
  have hexits (ks : List Sector) : stacksSound (forSectors ks exitTest (recomputeBottoms s)) :=
    stacksSound_forSectors (fun k _ ht => stacksSound_exitTest ht k) ks (by exact hs)
  dsimp only
  split
  · exact hexits _
  · exact hexits _

theorem stacksSound_takeFeedView (slot : BatchSlot) (destination : BitVec 16) :
    stacksSound (takeFeedView slot destination s) := by
  refine stacksSound_unlessHaltedLayer (fun hs => ?_) hs
  exact stacksSound_forSectors (fun k _ ht => stacksSound_addSectorEvents ht k _) _ (by exact hs)

/-- A plan for a new layer is made for a stack with room only (R103). -/
theorem stacksSound_takePlanRequest (r : PlanRequest) : stacksSound (takePlanRequest r s) := by
  refine stacksSound_unlessHaltedLayer (fun hs => ?_) hs
  dsimp only
  split
  · exact hs
  · rename_i kind hkind
    intro k
    refine ⟨(hs k).1, (hs k).2.1, ?_⟩
    rintro ⟨p, i, hp, rfl, hnew⟩
    cases hp
    dsimp only at hnew
    subst hnew
    have hroom : hasRoom s r.sector = true := by
      unfold decidePlan at hkind
      split at hkind
      · cases hkind
      · split at hkind
        · cases hkind
        · split at hkind
          · split at hkind
            · split at hkind <;> cases hkind
            · cases hkind
          · split at hkind
            · cases hkind
            · split at hkind
              · assumption
              · cases hkind
    exact of_decide_eq_true hroom

theorem stacksSound_afterPlan (k : Sector) : stacksSound (afterPlan k s) :=
  stacksSound_exitTest (stacksSound_tryConversion hs k) k

theorem stacksSound_placeUnder {p : Plan} (hplan : s.ltr.plan = some p) (volume : Nat) :
    stacksSound (placeUnder p volume s) := by
  obtain ⟨hstack, -, hnew⟩ := hs p.sector
  have hplaced : (placedStack s p volume).length ≤ 10 := by
    cases hkind : p.kind with
    | new i => exact (length_placedStack_le s p volume).trans (hnew ⟨p, i, hplan, rfl, hkind⟩)
    | merge i => exact (length_placedStack_of_merge hkind volume).le.trans hstack
  unfold placeUnder
  dsimp only
  split
  · exact stacksSound_afterPlan (by exact stacksSound_endPlan hs) _
  · have hput := stacksSound_putStack (stacksSound_endPlan hs) (k := p.sector) hplaced
      (fun h => absurd h (not_plansNewLayer_of_none rfl _))
    exact stacksSound_afterPlan (by exact hput) _

theorem stacksSound_takePlacement (sector : Sector) (slot : BatchSlot) (volume : Nat) :
    stacksSound (takePlacement sector slot volume s) := by
  refine stacksSound_unlessHaltedLayer (fun hs => ?_) hs
  split
  · rename_i p hplan
    split
    · exact stacksSound_placeUnder hs hplan volume
    · exact hs
  · exact hs

theorem stacksSound_takeDropPlan : stacksSound (takeDropPlan s) := by
  refine stacksSound_unlessHaltedLayer (fun hs => ?_) hs
  split
  · exact stacksSound_afterPlan (stacksSound_endPlan hs) _
  · exact hs

/-- An opening joins a list of fewer than 2 only (R106, R107). -/
theorem stacksSound_takeAddOpening (slot : OrderSlot) (sector lower upper : Word) :
    stacksSound (takeAddOpening slot sector lower upper s) := by
  refine stacksSound_unlessHaltedLayer (fun hs => ?_) hs
  dsimp only
  split
  · exact hs
  · rename_i k _
    split
    · rename_i hdone
      have hroom := length_openings_of_done hdone
      have hanswered := stacksSound_tryConversion (s := answerOrder slot .done (onLtr (fun l => { l with
        openings := put l.openings k (insertOpening ⟨lower.toInt, upper.toInt⟩ l.openings[k]) }) s))
        (by exact stacksSound_putOpenings hs (by rw [length_insertOpening]; exact hroom)) k
      unfold when
      split
      · exact hanswered
      · exact hanswered
    · exact hs

theorem stacksSound_takeDropOpening (slot : OrderSlot) (sector position : Word) :
    stacksSound (takeDropOpening slot sector position s) := by
  refine stacksSound_unlessHaltedLayer (fun hs => ?_) hs
  split
  · exact hs
  · rename_i k _
    split
    · exact stacksSound_putOpenings hs ((List.length_eraseIdx_le _ _).trans (hs k).2.1)
    · exact hs

theorem stacksSound_takeClearSector (slot : OrderSlot) (index events : Word) :
    stacksSound (takeClearSector slot index events s) := by
  refine stacksSound_unlessHaltedLayer (fun hs => ?_) hs
  split
  · exact hs
  · split
    · exact hs
    · exact hs

theorem stacksSound_takePermissionRequest : stacksSound (takePermissionRequest s) :=
  stacksSound_unlessHaltedLayer (fun hs => hs) hs

theorem stacksSound_takeFeedMask (mask : BitVec 16) : stacksSound (takeFeedMask mask s) :=
  stacksSound_unlessHaltedLayer (fun hs => hs) hs

theorem stacksSound_layerEnters (p : PartState) : stacksSound (layerEnters p s) := hs

theorem stacksSound_reportJoint (k : Sector) : stacksSound (reportJoint k s) := by
  refine stacksSound_addSectorEvents (stacksSound_putStack hs ?_ fun h => ?_) k _
  · rw [length_mapLast]; exact (hs k).1
  · rw [length_mapLast]; exact (hs k).2.2 h

theorem stacksSound_layerSecond : stacksSound (layerSecond s) := by
  unfold layerSecond
  split
  · exact stacksSound_forSectors (fun k _ ht => stacksSound_reportJoint ht k) _ hs
  · exact hs

end

theorem stacksSound_of_cold {s : State} {p : PartState} (h : s.ltr = Ltr.cold p) : stacksSound s := by
  intro k
  have hstack : stackOf s k = [] := by rw [stackOf, h]; exact replicate_get _ k
  have hopenings : s.ltr.openings[k] = [] := by rw [h]; exact replicate_get _ k
  rw [hstack, hopenings]
  exact ⟨Nat.zero_le 10, Nat.zero_le 2, fun _ => Nat.zero_lt_succ 9⟩

end Sys2Proof.Machine
end

section
/-! SUPPORT. The feed line grows at a take alone, and the line stays sound (07 R122). -/

namespace Sys2Proof.Machine

open Sys2Proof

/-! ## Operations that lengthen no line -/

theorem takeFeedView_line (slot : BatchSlot) (destination : BitVec 16) (s : State) :
    (takeFeedView slot destination s).fds = s.fds := by
  rw [layerless_eq (layerless_takeFeedView slot destination s)]

theorem planPortion_line (slot : BatchSlot) (r : BatchRecord) (s : State) :
    (planPortion slot r s).fds.line = s.fds.line := by
  unfold planPortion
  dsimp only
  split
  · rw [takeFeedView_line]
  · simp [askPlan, takeFeedView_line]

theorem decideHead_line (slot : BatchSlot) (r : BatchRecord) (s : State) :
    (decideHead slot r s).fds.line = s.fds.line := by
  unfold decideHead
  split
  · rfl
  · split
    · rfl
    · exact planPortion_line slot r s

theorem tryArbiter_line (s : State) : (tryArbiter s).fds.line = s.fds.line := by
  unfold tryArbiter
  split
  · split
    · rfl
    · split
      · exact decideHead_line _ _ s
      · rfl
  · rfl

theorem reportStopped_line (s : State) : (reportStopped s).fds.line = s.fds.line := by
  unfold reportStopped
  split <;> rfl

theorem afterGate_line (s : State) : (afterGate s).fds.line = s.fds.line := by
  rw [afterGate, reportStopped_line, tryArbiter_line]

theorem openDrop_line (sector : Sector) (slot : BatchSlot) (volume : Nat) (s : State) :
    (openDrop sector slot volume s).fds.line = s.fds.line := by
  unfold openDrop
  dsimp only
  split <;> rfl

theorem wasteRemainder_line (slot : BatchSlot) (s : State) : (wasteRemainder slot s).fds.line = s.fds.line := by
  unfold wasteRemainder
  split <;> rfl

theorem recordExit_line (slot : BatchSlot) (r : BatchRecord) (s : State) :
    (recordExit slot r s).fds.line = s.fds.line := by
  unfold recordExit
  split <;> rfl

section
variable {s : State} (hs : lineSound s)

include hs

theorem lineSound_tryArbiter : lineSound (tryArbiter s) := lineSound_congr (tryArbiter_line s) hs

theorem lineSound_reportStopped : lineSound (reportStopped s) := lineSound_congr (reportStopped_line s) hs

theorem lineSound_afterGate : lineSound (afterGate s) := lineSound_congr (afterGate_line s) hs

theorem lineSound_settleBatch (slot : BatchSlot) (r : BatchRecord) : lineSound (settleBatch slot r s) := by
  unfold lineSound settleBatch writeSlot
  rw [send_fds]
  split
  · exact (List.erase_sublist.length_le).trans hs
  · exact hs

theorem lineSound_closeWaste (g : GateRun) (cause : WasteCause) (volume : Nat) :
    lineSound (closeWaste g cause volume s) := by
  unfold closeWaste
  split
  · exact lineSound_settleBatch (by exact hs) _ _
  · exact hs

theorem lineSound_cutGate : lineSound (cutGate s) := by
  unfold cutGate
  split
  · split
    · exact hs
    · exact hs
  · exact lineSound_closeWaste hs _ _ _
  · exact hs

end

theorem lineSound_unlessHaltedFeed {f : State → State} {s : State} (hf : lineSound s → lineSound (f s))
    (hs : lineSound s) : lineSound (unlessHaltedFeed f s) := by
  unfold unlessHaltedFeed
  split
  · exact hs
  · exact hf hs

section
variable {s : State} (hs : lineSound s)

include hs

theorem lineSound_takePlanAnswer (answer : PlanAnswer) : lineSound (takePlanAnswer answer s) := by
  refine lineSound_unlessHaltedFeed (fun hs => ?_) hs
  have hopen (sector : Sector) (slot : BatchSlot) (volume : Nat) : lineSound (openDrop sector slot volume (planOver s)) :=
    lineSound_congr (openDrop_line _ _ _ _) hs
  split
  · split
    · split
      · split
        · exact lineSound_congr (wasteRemainder_line _ _) hs
        · exact lineSound_reportStopped (lineSound_tryArbiter hs)
      · exact lineSound_reportStopped hs
    · split
      · exact hopen _ _ _
      · exact hs
    · split
      · exact hopen _ _ _
      · exact hs
  · exact hs

theorem lineSound_takePlacementAnswer (result : PlacementResult) : lineSound (takePlacementAnswer result s) := by
  refine lineSound_unlessHaltedFeed (fun hs => ?_) hs
  split
  · split
    · exact lineSound_afterGate (lineSound_settleBatch (by exact hs) _ _)
    · exact lineSound_afterGate hs
    · exact hs
  · split
    · exact lineSound_afterGate hs
    · exact hs
  · exact hs

theorem lineSound_takeGateClose : lineSound (takeGateClose s) := by
  refine lineSound_unlessHaltedFeed (fun hs => ?_) hs
  split
  · split
    · exact hs
    · exact hs
  · exact hs

theorem lineSound_takeWasteGateClose : lineSound (takeWasteGateClose s) := by
  refine lineSound_unlessHaltedFeed (fun hs => ?_) hs
  split
  · exact lineSound_afterGate (lineSound_closeWaste hs _ _ _)
  · exact hs

theorem lineSound_takeFeedStop : lineSound (takeFeedStop s) :=
  lineSound_unlessHaltedFeed (fun hs => lineSound_reportStopped (lineSound_cutGate (by exact hs))) hs

theorem lineSound_takeFeedPowerDown : lineSound (takeFeedPowerDown s) :=
  lineSound_unlessHaltedFeed (fun hs => lineSound_reportStopped (lineSound_cutGate (by exact hs))) hs

theorem lineSound_feedLineHold : lineSound (feedLineHold s) :=
  lineSound_unlessHaltedFeed (fun hs => lineSound_cutGate (by exact hs)) hs

theorem lineSound_takeFeedPause : lineSound (takeFeedPause s) := lineSound_unlessHaltedFeed (fun hs => hs) hs

theorem lineSound_takeFlow (flow : Nat) : lineSound (takeFlow flow s) :=
  lineSound_unlessHaltedFeed (fun hs => lineSound_tryArbiter (by exact hs)) hs

theorem lineSound_takeDeficit : lineSound (takeDeficit s) := lineSound_unlessHaltedFeed lineSound_tryArbiter hs

theorem lineSound_cancelLive (order : OrderSlot) (slot : BatchSlot) (r : BatchRecord) :
    lineSound (cancelLive order slot r s) := by
  unfold cancelLive when
  split
  · split
    · exact lineSound_tryArbiter (by exact hs)
    · exact hs
  · split
    · exact lineSound_congr (by rw [send_fds]) (lineSound_cutGate (s := markToWaste slot r s) hs)
    · exact hs
  · exact hs

theorem lineSound_takeCancel (order : OrderSlot) (batch : Word) (image : BatchState) :
    lineSound (takeCancel order batch image s) := by
  refine lineSound_unlessHaltedFeed (fun hs => ?_) hs
  split
  · exact hs
  · split
    · exact lineSound_cancelLive hs _ _ _
    · split
      · exact hs
      · exact hs

theorem lineSound_takeExitNotice (slot : BatchSlot) (index : PortionIndex) (time : Word) :
    lineSound (takeExitNotice slot index time s) := by
  refine lineSound_unlessHaltedFeed (fun hs => ?_) hs
  split
  · split
    · exact lineSound_congr (recordExit_line _ _ _) hs
    · exact hs
  · exact hs

theorem lineSound_feedEnters (p : PartState) : lineSound (feedEnters p s) := by
  unfold feedEnters
  dsimp only
  split
  · exact lineSound_tryArbiter (by exact hs)
  · exact hs

theorem lineSound_warmGate : lineSound (warmGate s) := by
  unfold warmGate
  split
  · exact hs
  · split
    · exact lineSound_closeWaste hs _ _ _
    · exact hs
  · exact hs

end

/-- A batch is taken into a line that is not full only (R122, 08 R149). -/
theorem lineSound_judgeBatch (slot : BatchSlot) (r : BatchRequest) {s : State} (hroom : lineFull s = false)
    (hs : lineSound s) : lineSound (judgeBatch slot r s) := by
  unfold judgeBatch
  split
  · have hlength : (s.fds.line ++ [slot]).length ≤ 4 := by
      have hlt : s.fds.line.length < 4 := Nat.lt_of_not_le (of_decide_eq_false hroom)
      rw [List.length_append]
      exact hlt
    exact lineSound_tryArbiter (by exact hlength)
  · exact hs

end Sys2Proof.Machine
end

section
/-! SUPPORT. The window stays canonical, the attention line exact and the pace in its range through every operation of the
Exchange Controller (08 R157, R159; log 2). -/

namespace Sys2Proof.Machine

open Sys2Proof

/-! ## Changes of the controller and of the window -/

/-- The attention registers, the pace and the publish count are the same. -/
def Exc.sameRegisters (e d : Exc) : Prop :=
  d.attn = e.attn ∧ d.attnMask = e.attnMask ∧ d.attnLine = e.attnLine ∧ d.attnPace = e.attnPace
    ∧ d.postscaler = e.postscaler

/-- An operation on the controller keeps everything where the line stays exact and the pace sound. -/
theorem keeps_onExc_of {f : Exc → Exc} {s : State} (hattn : attnLineExact s → attnLineExact (onExc f s))
    (hpace : paceSound s → paceSound (onExc f s)) : Keeps s (onExc f s) :=
  .of_exchangeless (exchangeless_onExc f s) (windowCanonical_congr rfl) hattn hpace

theorem keeps_onExc {f : Exc → Exc} (s : State) (h : s.exc.sameRegisters (f s.exc)) : Keeps s (onExc f s) := by
  obtain ⟨hattn, hmask, hline, hpace, hcount⟩ := h
  refine keeps_onExc_of (fun hs => ?_) fun hs => ?_
  · unfold attnLineExact
    rw [onExc_exc, hattn, hmask, hline]
    exact hs
  · unfold paceSound
    rw [onExc_exc, hpace, hcount]
    exact hs

theorem keeps_withAttn (f : Exc → BitVec 6) (g : Exc → BitVec 6) (s : State) :
    Keeps s (onExc (fun e => e.withAttn (f e) (g e)) s) := keeps_onExc_of (fun _ => rfl) id

theorem keeps_onWindow {f : Memory → Memory} (hf : ∀ m, Memory.wf m → Memory.wf (f m)) (s : State) :
    Keeps s (onWindow f s) :=
  .of_exchangeless (exchangeless_onWindow f s) (hf s.window) (attnLineExact_congr rfl) (paceSound_congr rfl)

theorem keeps_setAttn (source : AttnSource) (s : State) : Keeps s (setAttn source s) := keeps_withAttn _ _ s

theorem keeps_writeAttnPace (value : Word) (s : State) : Keeps s (writeAttnPace value s) :=
  keeps_onExc_of id fun hs => ⟨Nat.min_le_left _ _, hs.2⟩

theorem keeps_hostWrite (offset : Nat) (value : Word) (s : State) : Keeps s (hostWrite offset value s) := by
  unfold hostWrite
  split
  · exact .refl s
  · exact keeps_onWindow (fun _ => wf_writeWord offset value) s

/-! ## Slots -/

theorem keeps_setBatchImage (slot : BatchSlot) (state : BatchState) (s : State) : Keeps s (setBatchImage slot state s) :=
  keeps_onExc s ⟨rfl, rfl, rfl, rfl, rfl⟩

theorem keeps_setOrderImage (slot : OrderSlot) (state : OrderState) (s : State) : Keeps s (setOrderImage slot state s) :=
  keeps_onExc s ⟨rfl, rfl, rfl, rfl, rfl⟩

theorem keeps_when {b : Bool} {f : State → State} (hf : ∀ s, Keeps s (f s)) (s : State) : Keeps s (when b f s) := by
  unfold when
  split
  · exact hf s
  · exact .refl s

theorem keeps_writeBatchSlot (slot : BatchSlot) (state : Option BatchState) (report : BatchReport) (s : State) :
    Keeps s (writeBatchSlot slot state report s) := by
  have hreport := keeps_onWindow (fun _ => wf_writeWords (batchBase slot + 0x20) (reportWords report)) s
  unfold writeBatchSlot
  split
  · exact hreport
  · exact ((hreport.trans (keeps_onWindow (fun _ => wf_writeWord _ _) _)).trans (keeps_setBatchImage _ _ _)).trans
      (keeps_when (keeps_setAttn _) _)

theorem keeps_writeOrderSlot (slot : OrderSlot) (state : Option OrderState) (result : Option OrderOutcome)
    (detail : Word) (s : State) : Keeps s (writeOrderSlot slot state result detail s) := by
  have hresult := keeps_onWindow (fun _ h => wf_writeWord (orderBase slot + 0x18) detail
    (wf_writeWord (orderBase slot + 0x14) (orderOutcomeCode result) h)) s
  unfold writeOrderSlot
  split
  · exact hresult
  · exact ((hresult.trans (keeps_onWindow (fun _ => wf_writeWord _ _) _)).trans (keeps_setOrderImage _ _ _)).trans
      (keeps_when (keeps_setAttn _) _)

theorem keeps_unlessHaltedExchange {f : State → State} (hf : ∀ s, Keeps s (f s)) (s : State) :
    Keeps s (unlessHaltedExchange f s) := by
  unfold unlessHaltedExchange
  split
  · exact .refl s
  · exact hf s

theorem keeps_takeSlotWrite (w : SlotWrite) (s : State) : Keeps s (takeSlotWrite w s) := by
  cases w with
  | batch slot state report => exact keeps_unlessHaltedExchange (keeps_writeBatchSlot slot state report) s
  | order slot state result detail =>
    exact keeps_unlessHaltedExchange (keeps_writeOrderSlot slot state result detail) s

theorem keeps_finishOrder (slot : OrderSlot) (result : OrderOutcome) (detail : Word) (s : State) :
    Keeps s (finishOrder slot result detail s) := keeps_writeOrderSlot _ _ _ _ s

theorem keeps_takeOrderOutcome (slot : OrderSlot) (answer : OrderAnswer) (s : State) :
    Keeps s (takeOrderOutcome slot answer s) := by
  cases answer with
  | outcome result detail => exact keeps_unlessHaltedExchange (keeps_finishOrder slot result detail) s
  | taken => exact keeps_unlessHaltedExchange (keeps_writeOrderSlot slot _ _ _) s

/-! ## The scan -/

theorem keeps_recordMisuse (board : Board) (index : Nat) (s : State) : Keeps s (recordMisuse board index s) := by
  have hrecord := keeps_onExc (f := fun e => { e with misuse := some (board, index), misuseEvent := true }) s
    ⟨rfl, rfl, rfl, rfl, rfl⟩
  unfold recordMisuse
  dsimp only
  split
  · exact hrecord
  · exact hrecord.trans (keeps_setAttn _ _)

theorem keeps_compareBatch (slot : BatchSlot) (s : State) : Keeps s (compareBatch slot s) := by
  unfold compareBatch
  dsimp only
  split
  · exact .refl s
  · exact keeps_setBatchImage _ _ s
  · exact keeps_setBatchImage _ _ s
  · exact (keeps_onWindow (fun _ => wf_writeWord _ _) s).trans (keeps_recordMisuse _ _ _)

theorem keeps_compareOrder (slot : OrderSlot) (s : State) : Keeps s (compareOrder slot s) := by
  unfold compareOrder
  dsimp only
  split
  · exact .refl s
  · exact keeps_setOrderImage _ _ s
  · exact keeps_setOrderImage _ _ s
  · exact (keeps_onWindow (fun _ => wf_writeWord _ _) s).trans (keeps_recordMisuse _ _ _)

theorem keeps_compareBoards (s : State) : Keeps s (compareBoards s) :=
  (Keeps.fold _ (fun t slot => keeps_compareOrder slot t) _ s).trans
    (Keeps.fold _ (fun t slot => keeps_compareBatch slot t) _ _)

theorem keeps_handOrder (slot : OrderSlot) (s : State) : Keeps s (handOrder slot s) := by
  unfold handOrder
  dsimp only
  split
  · split
    · exact (keeps_onExc s ⟨rfl, rfl, rfl, rfl, rfl⟩).trans (keeps_send _ _)
    · exact keeps_finishOrder _ _ _ s
  · exact .refl s

theorem keeps_handOrders (s : State) : Keeps s (handOrders s) := Keeps.fold _ (fun t slot => keeps_handOrder slot t) _ s

theorem keeps_handNext (s : State) : Keeps s (handNext s) := by
  unfold handNext
  split
  · exact keeps_onExc s ⟨rfl, rfl, rfl, rfl, rfl⟩
  · exact (keeps_onExc s ⟨rfl, rfl, rfl, rfl, rfl⟩).trans (keeps_send _ _)

theorem keeps_handBatches (s : State) : Keeps s (handBatches s) := by
  have hsorted := keeps_onExc (f := fun e => { e with candidates := sortedCandidates s }) s ⟨rfl, rfl, rfl, rfl, rfl⟩
  unfold handBatches
  dsimp only
  split
  · exact hsorted
  · exact hsorted.trans (keeps_handNext _)

theorem keeps_rejectEdition (edition : Word) (field : Nat) (s : State) : Keeps s (rejectEdition edition field s) := by
  have hreject := keeps_onExc (f := fun e => { e with lastRejected := edition, badField := field, directiveBad := true }) s
    ⟨rfl, rfl, rfl, rfl, rfl⟩
  unfold rejectEdition
  dsimp only
  split
  · exact hreject
  · exact hreject.trans (keeps_setAttn _ _)

theorem keeps_acceptEdition (edition : Word) (s : State) : Keeps s (acceptEdition edition s) :=
  (keeps_onExc (f := fun e => { e with edition := edition }) s ⟨rfl, rfl, rfl, rfl, rfl⟩).trans (keeps_sendAll _ _)

theorem keeps_readDirective (s : State) : Keeps s (readDirective s) := by
  unfold readDirective
  dsimp only
  split
  · exact .refl s
  · split
    · exact keeps_rejectEdition _ _ s
    · exact keeps_acceptEdition _ s

theorem keeps_scanTakes (s : State) : Keeps s (scanTakes s) := by
  unfold scanTakes
  split
  · exact (keeps_handOrders s).trans (keeps_readDirective _)
  · exact ((keeps_handOrders s).trans (keeps_handBatches _)).trans (keeps_readDirective _)
  · exact keeps_readDirective s
  · exact .refl s

theorem keeps_takeScan (s : State) : Keeps s (takeScan s) := by
  have htimer := keeps_onExc (f := fun e => { e with scanTimer := some (now s) }) s ⟨rfl, rfl, rfl, rfl, rfl⟩
  unfold takeScan
  dsimp only
  split
  · split
    · exact (htimer.trans (keeps_compareBoards _)).trans (keeps_scanTakes _)
    · exact htimer
  · exact .refl s

/-! ## Publication -/

theorem wf_publishedWindow {s : State} (edition : Word) (h : windowCanonical s) : Memory.wf (publishedWindow s edition) :=
  wf_clearBytes _ _ (wf_writeWords _ _ (wf_writeWord _ _ h))

theorem keeps_beginPublication (s : State) : Keeps s (beginPublication s) :=
  .of_exchangeless (exchangeless_beginPublication s) (fun h => wf_publishedWindow _ h) (fun h => h) fun h => h

theorem keeps_startPublishTimer (s : State) : Keeps s (startPublishTimer s) := keeps_onExc s ⟨rfl, rfl, rfl, rfl, rfl⟩

theorem keeps_takePublishExpiry (s : State) : Keeps s (takePublishExpiry s) := by
  unfold takePublishExpiry
  dsimp only
  split
  · split
    · exact (keeps_startPublishTimer s).trans (keeps_onExc _ ⟨rfl, rfl, rfl, rfl, rfl⟩)
    · exact (keeps_startPublishTimer s).trans (keeps_beginPublication _)
  · exact .refl s

theorem keeps_countPublication (s : State) : Keeps s (countPublication s) := by
  unfold countPublication
  dsimp only
  split
  · exact (keeps_onExc_of (f := fun e => { e with postscaler := 0 }) id fun hs => ⟨hs.1, Nat.zero_le 16⟩).trans
      (keeps_setAttn _ _)
  · exact keeps_onExc_of id fun hs => ⟨hs.1, Nat.min_le_left _ _⟩

theorem keeps_beginDeferred (s : State) : Keeps s (beginPublication (onExc (fun e => { e with deferred := false }) s)) :=
  (keeps_onExc s ⟨rfl, rfl, rfl, rfl, rfl⟩).trans (keeps_beginPublication _)

theorem keeps_afterPublication (s : State) : Keeps s (afterPublication s) := by
  unfold afterPublication
  split
  · exact (keeps_onExc s ⟨rfl, rfl, rfl, rfl, rfl⟩).trans (keeps_beginPublication _)
  · have hdone := (keeps_onExc (f := fun e => { e with clearStage := .none }) s ⟨rfl, rfl, rfl, rfl, rfl⟩).trans
      (keeps_send (.clearDone .exc) _)
    dsimp only
    split
    · exact hdone.trans (keeps_beginDeferred _)
    · exact hdone
  · exact .refl s
  · split
    · exact keeps_beginDeferred s
    · exact .refl s

theorem keeps_takePublicationEnd (s : State) : Keeps s (takePublicationEnd s) := by
  unfold takePublicationEnd
  split
  · exact .refl s
  · exact (((keeps_onWindow (fun _ => wf_writeWord _ _) s).trans (keeps_onExc _ ⟨rfl, rfl, rfl, rfl, rfl⟩)).trans
      (keeps_countPublication _)).trans (keeps_afterPublication _)

/-! ## Rig events, part states and resets -/

theorem keeps_clearRigEvents (events : Word) (s : State) : Keeps s (clearRigEvents events s) :=
  ⟨id, id, id, id, id, id, id⟩

theorem keeps_takeClearRig (slot : OrderSlot) (events : Word) (s : State) : Keeps s (takeClearRig slot events s) := by
  refine keeps_unlessHaltedExchange (fun t => ?_) s
  split
  · exact (keeps_clearRigEvents events t).trans (keeps_finishOrder _ _ _ _)
  · exact keeps_finishOrder _ _ _ t

theorem keeps_clearExchange (s : State) : Keeps s (clearExchange s) := by
  have hforget := (keeps_onExc (f := Exc.forget) s ⟨rfl, rfl, rfl, rfl, rfl⟩).trans
    (keeps_onWindow (f := freeSlots) (fun _ => wf_filter _) _)
  unfold clearExchange
  dsimp only
  split
  · exact hforget.trans (keeps_onExc _ ⟨rfl, rfl, rfl, rfl, rfl⟩)
  · exact (hforget.trans (keeps_onExc _ ⟨rfl, rfl, rfl, rfl, rfl⟩)).trans (keeps_beginPublication _)

theorem keeps_startTimers (s : State) : Keeps s (startTimers s) := by
  have hscan := keeps_onExc (f := fun e => { e with scanTimer := some (now s) }) s ⟨rfl, rfl, rfl, rfl, rfl⟩
  unfold startTimers
  dsimp only
  split
  · split
    · exact hscan.trans (keeps_startPublishTimer _)
    · exact keeps_startPublishTimer _
  · split
    · exact hscan
    · exact .refl s

theorem keeps_exchangeEnters (p : PartState) (s : State) : Keeps s (exchangeEnters p s) := by
  have hview := keeps_onExc (f := fun e => { e with view := p }) s ⟨rfl, rfl, rfl, rfl, rfl⟩
  have hstopped := hview.trans (keeps_onExc (f := Exc.stopped) _ ⟨rfl, rfl, rfl, rfl, rfl⟩)
  unfold exchangeEnters
  dsimp only
  split
  · exact hview.trans (keeps_startTimers _)
  · split
    · exact hstopped.trans (keeps_setAttn _ _)
    · exact hstopped

end Sys2Proof.Machine
end

section
/-! SUPPORT. Every operation of the supervisor, of the bench and of RECOVERY, every reset, warning and halt keeps what is
always true. -/

namespace Sys2Proof.Machine

open Sys2Proof

/-! ## Operations of the blocks that others use -/

theorem keeps_takeCountsChanged (s : State) : Keeps s (takeCountsChanged s) :=
  .of_layerless (layerless_takeCountsChanged s) stacksSound_takeCountsChanged

theorem keeps_takePlacement (k : Sector) (slot : BatchSlot) (volume : Nat) (s : State) :
    Keeps s (takePlacement k slot volume s) :=
  .of_layerless (layerless_takePlacement k slot volume s) fun hs => stacksSound_takePlacement hs k slot volume

theorem keeps_takeFeedMask (mask : BitVec 16) (s : State) : Keeps s (takeFeedMask mask s) :=
  .of_layerless (layerless_takeFeedMask mask s) fun hs => stacksSound_takeFeedMask hs mask

theorem keeps_takePlacementAnswer (result : PlacementResult) (s : State) : Keeps s (takePlacementAnswer result s) :=
  .of_feedless (feedless_takePlacementAnswer result s) (sparesTracker_takePlacementAnswer result s)
    fun hs => lineSound_takePlacementAnswer hs result

theorem keeps_takeExitNotice (slot : BatchSlot) (index : PortionIndex) (time : Word) (s : State) :
    Keeps s (takeExitNotice slot index time s) :=
  .of_feedless (feedless_takeExitNotice slot index time s) (sparesTracker_takeExitNotice slot index time s)
    fun hs => lineSound_takeExitNotice hs slot index time

theorem keeps_takeFlow (flow : Nat) (s : State) : Keeps s (takeFlow flow s) :=
  .of_feedless (feedless_takeFlow flow s) (sparesTracker_takeFlow flow s) fun hs => lineSound_takeFlow hs flow

theorem keeps_takeDrainQueue (st : Station) (s : State) : Keeps s (takeDrainQueue st s) :=
  .of_strokeless (strokeless_takeDrainQueue st s) fun hs => queuesSound_takeDrainQueue hs st

theorem keeps_takeDrainAnswer (st : Station) (records : List EdgeRecord) (overflow : Bool) (s : State) :
    Keeps s (takeDrainAnswer st records overflow s) :=
  .of_waveless (waveless_takeDrainAnswer st records overflow s) fun hs => recordsSound_takeDrainAnswer hs st records overflow

theorem keeps_takeClimbDirective (values : ClimbValues) (s : State) : Keeps s (takeClimbDirective values s) :=
  .of_waveless (waveless_takeClimbDirective values s) fun hs => recordsSound_takeClimbDirective hs values

theorem keeps_takeWavePowerDown (s : State) : Keeps s (takeWavePowerDown s) :=
  .of_waveless (waveless_takeWavePowerDown s) recordsSound_takeWavePowerDown

theorem keeps_flushCounts (s : State) : Keeps s (flushCounts s) :=
  .of_waveless (waveless_flushCounts s) (recordsSound_congr (flushCounts_table s))

theorem keeps_carryOutAllDeferred (s : State) : Keeps s (carryOutAllDeferred s) :=
  .of_waveless (waveless_carryOutAllDeferred s) recordsSound_carryOutAllDeferred

theorem keeps_closeRecoveryWindows (s : State) : Keeps s (closeRecoveryWindows s) :=
  .of_waveless (waveless_closeRecoveryWindows s) (recordsSound_congr (closeRecoveryWindows_table s))

theorem keeps_warmGate (s : State) : Keeps s (warmGate s) := by
  have hltr : (warmGate s).ltr = s.ltr := by
    unfold warmGate
    split
    · rfl
    · split
      · exact closeWaste_ltr _ _ _ _
      · rfl
    · rfl
  exact .of_feedless (feedless_warmGate s) (by rw [hltr]) lineSound_warmGate

theorem keeps_cutAtReset (s : State) : Keeps s (cutAtReset s) := by
  unfold cutAtReset
  split
  · exact .of_same rfl rfl rfl rfl rfl rfl
  · exact .of_same rfl rfl rfl rfl rfl rfl
  · exact .refl s

theorem keeps_endScan (s : State) : Keeps s (endScan s) := .of_strokeless (strokeless_endScan s) queuesSound_endScan

theorem keeps_resetSsu (s : State) : Keeps s (resetSsu s) :=
  .of_strokeless (strokeless_resetSsu s) fun _ => queuesSound_of_reset rfl

/-! ## Part states (R162) -/

theorem keeps_enterState (p : PartState) (s : State) : Keeps s (enterState p s) := .of_same rfl rfl rfl rfl rfl rfl

theorem keeps_blockEnters (b : Block) (p : PartState) (s : State) : Keeps s (blockEnters b p s) := by
  cases b with
  | exc => exact keeps_exchangeEnters p s
  | ssu => exact .of_strokeless (strokeless_ssuEnters p s) fun hs => queuesSound_ssuEnters hs p
  | vdu => exact .of_valveless (valveless_vduEnters p s)
  | wvc => exact .of_waveless (waveless_waveEnters p s) (recordsSound_congr (waveEnters_table p s))
  | lbp => exact .of_levelless (levelless_levelEnters p s)
  | ltr => exact .of_layerless (layerless_layerEnters p s) fun hs => stacksSound_layerEnters hs p
  | fds =>
    have hltr : (feedEnters p s).ltr.apartFromView = s.ltr.apartFromView := by
      unfold feedEnters
      dsimp only
      split
      · exact sparesTracker_tryArbiter _
      · rfl
    exact .of_feedless (feedless_feedEnters p s) hltr fun hs => lineSound_feedEnters hs p
  | tmb | psv => exact .refl s

theorem keeps_takePartState (b : Block) (p : PartState) (s : State) : Keeps s (takePartState b p s) := by
  unfold takePartState
  split
  · exact .refl s
  · exact keeps_blockEnters b p s

theorem keeps_enterHalted (failure : StoreFailure) (s : State) : Keeps s (enterHalted failure s) :=
  ((keeps_onPsv _ s).trans (Keeps.fold _ (fun t b => keeps_blockEnters b .halted t) _ _)).trans (keeps_enterState _ _)

/-! ## Commands of CONTROL (R163 to R167) -/

theorem keeps_answerCode (code : Byte) (o : CommandOutcome) (detail : Nat) (s : State) :
    Keeps s (answerCode code o detail s) := keeps_onPsv _ s

theorem keeps_command {f : State → State} (hf : ∀ s, Keeps s (f s)) (s : State) : Keeps s (command f s) := by
  unfold command
  split
  · exact keeps_onPsv _ s
  · exact hf s

theorem keeps_takenInConfig (c : Command) {f : State → State} (hf : ∀ s, Keeps s (f s)) (s : State) :
    Keeps s (takenInConfig c f s) := by
  unfold takenInConfig
  split
  · exact hf s
  · exact keeps_answerCode _ _ _ s
  · exact keeps_answerCode _ _ _ s

theorem keeps_setLineMode (c : Command) (m : LineMode) (s : State) : Keeps s (setLineMode c m s) :=
  .of_same rfl rfl rfl rfl rfl rfl

theorem keeps_takeRig (v : RigValues) (s : State) : Keeps s (takeRig v s) := by
  unfold takeRig
  dsimp only
  split
  · exact (Keeps.of_levelless (levelless_refitLevel v.fitted s)).trans (keeps_onPsv _ _)
  · exact keeps_onPsv _ s

theorem keeps_beginJob (v : RigValues) (s : State) : Keeps s (beginJob v s) := by
  have hsetUp (t : State) : Keeps t (setUpTable v.fitted t) :=
    .of_waveless (waveless_setUpTable v.fitted t) fun _ => recordsSound_setUpTable v.fitted t
  exact ((keeps_onPsv _ s).trans (hsetUp _)).trans (keeps_onPsv _ _)

theorem keeps_acceptStart (v : RigValues) (s : State) : Keeps s (acceptStart v s) := by
  have hfinish (t : State) : Keeps t (answerCommand .start .done 0 (enterState .run
      (onPsv (fun q => { q with rigCheck := none }) t))) := .of_same rfl rfl rfl rfl rfl rfl
  unfold acceptStart
  dsimp only
  split
  · exact (keeps_takeRig v s).trans (hfinish _)
  · exact ((keeps_takeRig v s).trans (keeps_beginJob v _)).trans (hfinish _)

theorem keeps_startInConfig (s : State) : Keeps s (startInConfig s) := by
  unfold startInConfig
  dsimp only
  split
  · exact .of_same rfl rfl rfl rfl rfl rfl
  · split
    · exact .of_same rfl rfl rfl rfl rfl rfl
    · exact keeps_acceptStart _ s

theorem keeps_takeStop (s : State) : Keeps s (takeStop s) := by
  unfold takeStop
  split
  · exact (((keeps_onPsv _ s).trans (keeps_answerCode _ _ _ _)).trans (keeps_enterState _ _)).trans (keeps_sendAll _ _)
  · exact keeps_answerCode _ _ _ s
  · exact keeps_answerCode _ _ _ s

theorem keeps_endStopping (s : State) : Keeps s (endStopping s) := by
  unfold endStopping
  split
  · exact keeps_enterState _ s
  · exact .refl s

theorem keeps_takeWaveEnded (s : State) : Keeps s (takeWaveEnded s) := by
  unfold takeWaveEnded
  split
  · exact (keeps_onPsv _ s).trans (keeps_endStopping _)
  · exact .refl s

theorem keeps_clearInConfig (s : State) : Keeps s (clearInConfig s) :=
  ((keeps_onPsv (fun q => { q with control := ⟨commandCode .clear, .waiting, 0, true, false⟩, jobMark := false, clearing := clearOrder }) s).trans
    (keeps_onExc (f := fun e => { e with clearStage := .begun }) _ ⟨rfl, rfl, rfl, rfl, rfl⟩)).trans (keeps_sendAll _ _)

theorem keeps_clearBlock (b : Block) (s : State) : Keeps s (clearBlock b s) := by
  cases b with
  | wvc => exact .of_waveless (waveless_clearWave s) fun _ => recordsSound_of_cold rfl
  | ltr => exact .of_layerless (layerless_clearLayer s) fun _ => stacksSound_of_cold rfl
  | fds => exact .of_feedless (feedless_clearFeed s) rfl fun _ => Nat.zero_le 4
  | lbp => exact .of_levelless (levelless_clearLevel s)
  | ssu => exact .of_strokeless (strokeless_clearStrays s) queuesSound_clearStrays
  | vdu => exact .of_valveless (valveless_clearCoilFaults s)
  | tmb => exact .of_same rfl rfl rfl rfl rfl rfl
  | psv => exact .of_same rfl rfl rfl rfl rfl rfl
  | exc => exact keeps_clearExchange s

theorem keeps_takeClearNotice (b : Block) (s : State) : Keeps s (takeClearNotice b s) := by
  unfold takeClearNotice
  split
  · exact .refl s
  · split
    · exact keeps_clearExchange s
    · exact (keeps_clearBlock b s).trans (keeps_send _ _)

theorem keeps_takeClearDone (b : Block) (s : State) : Keeps s (takeClearDone b s) := by
  unfold takeClearDone
  dsimp only
  split
  · exact (keeps_onPsv _ s).trans (keeps_onPsv _ _)
  · exact keeps_onPsv _ s

/-! ## Notices that go to several blocks -/

theorem keeps_blockSecond (b : Block) (s : State) : Keeps s (blockSecond b s) := by
  cases b with
  | wvc => exact .of_waveless (waveless_waveSecond s) (recordsSound_congr (waveSecond_table s))
  | ltr => exact .of_layerless (layerless_layerSecond s) stacksSound_layerSecond
  | fds => exact .of_feedless (feedless_feedSecond s) (sparesTracker_takeDeficit s) lineSound_takeDeficit
  | _ => exact .refl s

theorem keeps_blockHolds (b : Block) (s : State) : Keeps s (blockHolds b s) := by
  cases b with
  | ssu => exact .of_strokeless (strokeless_strokeLineHold s) queuesSound_strokeLineHold
  | vdu => exact .of_valveless (valveless_holdChannels _ s)
  | wvc => exact .of_waveless (waveless_waveLineHold s) (recordsSound_congr (waveLineHold_table s))
  | fds =>
    have hltr : (feedLineHold s).ltr.apartFromView = s.ltr.apartFromView :=
      sparesTracker_unlessHaltedFeed (fun t => by rw [cutGate_ltr]; rfl) s
    exact .of_feedless (feedless_feedLineHold s) hltr lineSound_feedLineHold
  | _ => exact .refl s

theorem keeps_toggleLamp (name : LampName) (s : State) : Keeps s (toggleLamp name s) := by
  cases name <;> exact .of_same rfl rfl rfl rfl rfl rfl

/-! ## The bench and the site seconds (R171) -/

theorem keeps_setPhase (p : BenchPhase) (s : State) : Keeps s (setPhase p s) := keeps_onPsv _ s

theorem keeps_endBench (r : BenchResult) (s : State) : Keeps s (endBench r s) := keeps_onPsv _ s

theorem keeps_endLampTest (s : State) : Keeps s (endLampTest s) := by
  unfold endLampTest
  split
  · exact keeps_setPhase _ s
  · exact .refl s

theorem keeps_benchSecond (s : State) : Keeps s (benchSecond s) := by
  unfold benchSecond
  split
  · exact keeps_setPhase _ s
  · split
    · exact keeps_setPhase _ s
    · split
      · exact keeps_setPhase _ s
      · exact keeps_endBench _ s
  · exact .refl s

theorem keeps_scanEnded (row : Fin 8) (s : State) : Keeps s (scanEnded row s) := by
  unfold scanEnded
  split
  · split
    · exact keeps_setPhase _ s
    · exact .refl s
  · exact .refl s

theorem keeps_idleRead (columns : Byte) (s : State) : Keeps s (idleRead columns s) := by
  have hposition : Keeps s { s with ssu := { s.ssu with position := .row 0 } } := ⟨id, id, id, id, id, id, id⟩
  unfold idleRead
  dsimp only
  split
  · split
    · exact hposition.trans (keeps_endBench _ _)
    · split
      · exact hposition.trans (keeps_setPhase _ _)
      · exact hposition.trans (keeps_endBench _ _)
  · exact hposition

theorem keeps_takeRowRead (columns : Byte) (s : State) : Keeps s (takeRowRead columns s) := by
  unfold takeRowRead
  split
  · exact .refl s
  · split
    · exact keeps_idleRead columns s
    · exact (Keeps.of_strokeless (strokeless_readRow _ columns _ s)
        fun hs => queuesSound_readRow hs _ columns _).trans (keeps_scanEnded _ _)

theorem keeps_advanceSecond (s : State) : Keeps s (advanceSecond s) := .of_same rfl rfl rfl rfl rfl rfl

theorem keeps_noticeSecond (s : State) : Keeps s (noticeSecond s) :=
  (Keeps.of_same (s := s) (t := sendAll ([Block.wvc, Block.ltr, Block.fds].map Instr.siteSecondNotice)
    { s with tmb := { s.tmb with savedWord := some s.tmb.siteSeconds } }) rfl rfl rfl rfl rfl rfl).trans
    (keeps_benchSecond _)

/-! ## RECOVERY (10 R183 to R187) -/

theorem recordsSound_resolveStation (before : State) (S : List Station) (st : Station) {s : State}
    (hs : recordsSound s) : recordsSound (resolveStation before S st s) := by
  obtain ⟨hm, hb, -⟩ := hs st
  have hset := recordsSound_setRecord_of_sound hs st (r := { recordOf s st with
    count := min Config.countLimit ((recordOf s st).count + 1), inDoubt := false }) ⟨hm, hb, Nat.min_le_left _ _⟩
  unfold resolveStation
  dsimp only
  split
  · split
    · exact hset
    · exact hset
  · exact recordsSound_setRecord_of_sound hs st (sound_of_same hs st rfl rfl rfl)

theorem recordsSound_restartCheck {s : State} (hs : recordsSound s) : recordsSound (restartCheck s) := by
  unfold restartCheck
  dsimp only
  split
  · exact hs
  · have hresolved (S : List Station) : recordsSound (resolveDoubts S s) :=
      recordsSound_forEach (fun st _ ht => recordsSound_resolveStation s S st ht) _ hs
    have hbarred (S : List Station) : recordsSound (barOutOfTolerance S (resolveDoubts S s)) :=
      recordsSound_forEach (fun st _ ht => recordsSound_barOwing (fun x _ => ht x) (nearlySound_of_sound (ht st)) _) _
        (hresolved S)
    exact recordsSound_congr (flushCounts_table _) (hbarred _)

theorem keeps_restartCheck (s : State) : Keeps s (restartCheck s) :=
  .of_waveless (waveless_restartCheck s) recordsSound_restartCheck

theorem keeps_runCheck (s : State) : Keeps s (runCheck s) :=
  ((((keeps_onPsv _ s).trans (keeps_restartCheck _)).trans (keeps_closeRecoveryWindows _)).trans (keeps_onPsv _ _)).trans
    (keeps_enterState _ _)

theorem keeps_judgeReadiness (s : State) : Keeps s (judgeReadiness s) := by
  unfold judgeReadiness
  split
  · exact keeps_runCheck s
  · exact .refl s

theorem keeps_expireRecoveryWindow (s : State) : Keeps s (expireRecoveryWindow s) := by
  unfold expireRecoveryWindow
  split
  · exact keeps_runCheck s
  · exact .refl s

theorem keeps_beginRecovery (s : State) : Keeps s (beginRecovery s) :=
  (((keeps_onPsv _ s).trans (keeps_send _ _)).trans (keeps_enterState _ _)).trans (keeps_judgeReadiness _)

/-! ## The assertion of a reset (R168) -/

theorem keeps_settling {c : Instr} {f : State → State} (h : settling c = some f) (s : State) : Keeps s (f s) := by
  cases c with
  | countsChanged => cases h; exact keeps_takeCountsChanged s
  | placement => cases h; exact keeps_takePlacement _ _ _ s
  | placementAnswer => cases h; exact keeps_takePlacementAnswer _ s
  | exitNotice => cases h; exact keeps_takeExitNotice _ _ _ s
  | slotWriteRequest => cases h; exact keeps_takeSlotWrite _ s
  | orderOutcome => cases h; exact keeps_takeOrderOutcome _ _ s
  | drainQueue => cases h; exact keeps_takeDrainQueue _ s
  | drainAnswer => cases h; exact keeps_takeDrainAnswer _ _ _ s
  | climbDirective => cases h; exact keeps_takeClimbDirective _ s
  | flowDirective => cases h; exact keeps_takeFlow _ s
  | feedMaskDirective => cases h; exact keeps_takeFeedMask _ s
  | _ => cases h

theorem keeps_settleMail (n : Nat) (s : State) : Keeps s (settleMail n s) := by
  induction n generalizing s with
  | zero => exact .refl s
  | succ n ih =>
    unfold settleMail
    split
    · exact .refl s
    · split
      · exact .refl s
      · rename_i f hf
        exact ((keeps_took _ s).trans (keeps_settling hf _)).trans (ih _)

theorem keeps_settleWave (s : State) : Keeps s (settleWave s) := by
  unfold settleWave
  split
  · exact (keeps_takeWavePowerDown s).trans (keeps_settleMail _ _)
  · exact .refl s

theorem keeps_settleAtAssertion (s : State) : Keeps s (settleAtAssertion s) := by
  have hview : Keeps s (onFds (fun f => { f with view := if f.view = .halted then .halted else .powerDown }) s) :=
    .of_same rfl rfl rfl rfl rfl rfl
  have hsettled := (hview.trans (keeps_settleMail settleLimit _)).trans (keeps_settleWave _)
  unfold settleAtAssertion
  dsimp only
  split
  · exact hsettled.trans (keeps_cutAtReset _)
  · exact hsettled

theorem keeps_loseVolatile (s : State) : Keeps s (loseVolatile s) where
  window := id
  attn := fun _ => by simp [attnLineExact, loseVolatile, Exc.resetRegisters]
  pace := fun _ => by simp [paceSound, loseVolatile, Exc.resetRegisters]
  queues := fun _ => queuesSound_of_reset rfl
  records := id
  stack := id
  line := id

theorem keeps_withPower (p : Power) (s : State) : Keeps s { s with power := p } := .of_same rfl rfl rfl rfl rfl rfl

theorem keeps_assertReset (cause : ResetCause) (s : State) : Keeps s (assertReset cause s) :=
  ((keeps_settleAtAssertion s).trans (keeps_loseVolatile _)).trans
    ((keeps_withPower (.held cause) _).trans (keeps_refreshLamps _))

theorem keeps_losePower (s : State) : Keeps s (losePower s) :=
  (keeps_loseVolatile s).trans
    ((keeps_withPower .off _).trans (keeps_refreshLamps _))

theorem keeps_backupReport (backupHeld : Bool) (s : State) : Keeps s (backupReport backupHeld s) := by
  unfold backupReport
  split
  · exact .of_same rfl rfl rfl rfl rfl rfl
  · split
    · exact .refl s
    · dsimp only
      split
      · exact .of_same rfl rfl rfl rfl rfl rfl
      · exact .of_same rfl rfl rfl rfl rfl rfl

theorem keeps_powerUp (backupHeld : Bool) (s : State) : Keeps s (powerUp backupHeld s) :=
  ((keeps_loseVolatile s).trans (Keeps.of_same (s := loseVolatile s) (t := { loseVolatile s with
    power := .held .powerOn, psv := { s.psv.volatile with lineMode := .restart } }) rfl rfl rfl rfl rfl rfl)).trans
    (keeps_backupReport backupHeld _)

/-! ## Reset release (R162) -/

theorem keeps_released (cause : ResetCause) (p : PartState) (s : State) : Keeps s (released cause p s) where
  window := id
  attn := id
  pace := id
  queues := fun _ => queuesSound_of_reset rfl
  records := id
  stack := id
  line := id

theorem keeps_emptyTables (s : State) : Keeps s (emptyTables s) where
  window := wf_filter _
  attn := id
  pace := id
  queues := id
  records := fun _ => recordsSound_of_cold rfl
  stack := fun _ => stacksSound_of_cold rfl
  line := fun _ => Nat.zero_le 4

theorem keeps_coldStart (s : State) : Keeps s (coldStart s) :=
  ((((keeps_emptyTables s).trans (Keeps.of_strokeless (strokeless_with_ssu _ _) fun _ => queuesSound_of_reset rfl)).trans
    (keeps_startTimers _)).trans (keeps_beginPublication _)).trans (keeps_enterState _ _)

theorem keeps_warmStart (s : State) : Keeps s (warmStart s) := by
  have hresume (t : State) : Keeps t { t with wvc := { t.wvc with holds := setBit t.wvc.holds holdResume } } :=
    .of_same rfl rfl rfl rfl rfl rfl
  exact (((((keeps_warmGate s).trans (hresume _)).trans (keeps_carryOutAllDeferred _)).trans (keeps_flushCounts _)).trans
    (keeps_startTimers _)).trans (keeps_beginRecovery _)

theorem keeps_benchStart (s : State) : Keeps s (benchStart s) := (keeps_onPsv _ s).trans (keeps_enterState _ _)

theorem keeps_start (cause : ResetCause) (s : State) : Keeps s (start cause s) := by
  unfold start
  dsimp only
  split
  · exact (keeps_released cause _ s).trans (keeps_benchStart _)
  · exact (keeps_released cause _ s).trans (keeps_warmStart _)
  · exact (keeps_released cause _ s).trans (keeps_coldStart _)

theorem keeps_release (cause : ResetCause) (strapHigh : Bool) (s : State) : Keeps s (release cause strapHigh s) := by
  have hstrap : Keeps s { s with strap := strapHigh, storeFails := none } := .of_same rfl rfl rfl rfl rfl rfl
  unfold release
  dsimp only
  split
  · exact ((hstrap.trans (keeps_released cause _ _)).trans (keeps_enterHalted _ _)).trans (keeps_refreshLamps _)
  · exact (hstrap.trans (keeps_start cause _)).trans (keeps_refreshLamps _)

theorem keeps_resetNow (s : State) : Keeps s (resetNow s) :=
  ((Keeps.of_same (s := s) (t := rereadStore s) rfl rfl rfl rfl rfl rfl).trans (keeps_assertReset _ _)).trans (keeps_release _ _ _)

theorem keeps_takeReset (s : State) : Keeps s (takeReset s) := by
  unfold takeReset
  split
  · exact .of_same rfl rfl rfl rfl rfl rfl
  · exact keeps_resetNow s

theorem keeps_assertLine (s : State) : Keeps s (assertLine s) := by
  unfold assertLine lineRestart lineHold
  split
  · split
    · exact keeps_onPsv _ s
    · exact keeps_assertReset _ s
  · split
    · exact keeps_assertReset _ s
    · exact keeps_assertReset _ s
    · exact .refl s
    · exact (keeps_sendAll _ s).trans (keeps_send _ _)

theorem keeps_noteRelease (strapHigh : Bool) (s : State) : Keeps s (noteRelease strapHigh s) := by
  unfold noteRelease
  split
  · exact keeps_onPsv _ s
  · exact .refl s

/-! ## The supply and the store (10, 09 R172) -/

theorem keeps_noteRepeated (s : State) : Keeps s (noteRepeated s) := by
  unfold noteRepeated
  dsimp only
  split
  · exact (keeps_onPsv _ s).trans (keeps_send _ _)
  · exact ((keeps_onPsv _ s).trans (keeps_send _ _)).trans (keeps_send _ _)

theorem keeps_warnBlocks (s : State) : Keeps s (warnBlocks s) := by
  have hquiet (t : State) : Keeps t (setQuiet t) := .of_valveless (valveless_setQuiet t)
  have hlevel (t : State) : Keeps t (warnLevel t) := .of_levelless (levelless_warnLevel t)
  exact ((((keeps_onExc (f := Exc.stopped) s ⟨rfl, rfl, rfl, rfl, rfl⟩).trans (hquiet _)).trans (keeps_endScan _)).trans
    (hlevel _)).trans (.of_same rfl rfl rfl rfl rfl rfl)

theorem keeps_takeWarning (s : State) : Keeps s (takeWarning s) := by
  have hmail : Keeps s { s with mail := s.mail.filter fun c => !cutOff c } := .of_same rfl rfl rfl rfl rfl rfl
  have hwarned (t : State) : Keeps t (enterState .powerDown (onPsv Psv.warned
      (sendAll (allStations.map Instr.offValve ++ [.feedPowerDown, .wavePowerDown]) (warnBlocks t)))) :=
    (((keeps_warnBlocks t).trans (keeps_sendAll _ _)).trans (keeps_onPsv _ _)).trans (keeps_enterState _ _)
  unfold takeWarning
  dsimp only
  split
  · exact (hmail.trans (keeps_noteRepeated _)).trans (hwarned _)
  · exact hmail.trans (hwarned _)

theorem keeps_takeSupplyLow (s : State) : Keeps s (takeSupplyLow s) := by
  unfold takeSupplyLow
  split
  · split
    · exact .refl s
    · exact .refl s
    · exact keeps_takeWarning s
  · exact keeps_onPsv _ s
  · exact keeps_onPsv _ s

theorem keeps_takeSupplyGood (s : State) : Keeps s (takeSupplyGood s) := by
  unfold takeSupplyGood
  split
  · exact .refl s
  · exact keeps_onPsv _ s
  · exact keeps_onPsv _ s

theorem keeps_takeSupplyDies (s : State) : Keeps s (takeSupplyDies s) := by
  unfold takeSupplyDies
  split
  · split
    · exact keeps_losePower s
    · exact keeps_losePower s
    · exact (keeps_takeWarning s).trans (keeps_onPsv _ _)
  · exact keeps_onPsv _ s
  · exact keeps_losePower s

theorem keeps_takeDeferredReset (s : State) : Keeps s (takeDeferredReset s) := by
  unfold takeDeferredReset
  split
  · exact .refl s
  · exact keeps_resetNow s
  · exact keeps_assertReset _ s
  · exact (keeps_assertReset _ s).trans (keeps_release _ _ _)

theorem keeps_judgeActions (report : Instr) (s : State) : Keeps s (judgeActions report s) := by
  unfold judgeActions completeActions
  split
  · split
    · exact keeps_send _ s
    · split
      · exact keeps_losePower s
      · exact (keeps_onPsv _ s).trans (keeps_takeDeferredReset _)
  · exact .refl s

theorem keeps_takeWaveDone (s : State) : Keeps s (takeWaveDone s) := by
  unfold takeWaveDone
  split
  · exact (keeps_onPsv _ s).trans (keeps_judgeActions _ _)
  · exact .refl s

theorem keeps_takeFeedStopped (s : State) : Keeps s (takeFeedStopped s) := by
  unfold takeFeedStopped
  split
  · exact (keeps_onPsv _ s).trans (keeps_endStopping _)
  · split
    · exact (keeps_onPsv _ s).trans (keeps_judgeActions _ _)
    · exact .refl s

theorem keeps_restoreField (s : State) : Keeps s (restoreField s) :=
  (keeps_resetSsu s).trans (.of_levelless (levelless_restoreLevel _))

theorem keeps_returnCold (s : State) : Keeps s (returnCold s) := by
  have hcount : Keeps s (onExc (fun e => { e with postscaler := 0 }) s) :=
    keeps_onExc_of id fun hs => ⟨hs.1, Nat.zero_le 16⟩
  have hvalves (t : State) : Keeps t (resetVdu t) := .of_valveless (valveless_resetVdu t)
  exact (((((((hcount.trans (keeps_emptyTables _)).trans (hvalves _)).trans (keeps_restoreField _)).trans
    (keeps_enterState _ _)).trans (keeps_startTimers _)).trans (keeps_send _ _))).trans (keeps_beginPublication _)

theorem keeps_takeReturn (s : State) : Keeps s (takeReturn s) := by
  unfold takeReturn returnOfSupply
  dsimp only
  split
  · split
    · exact ((keeps_onPsv _ s).trans (keeps_restoreField _)).trans (keeps_beginRecovery _)
    · exact (keeps_onPsv _ s).trans (keeps_returnCold _)
  · exact .refl s

theorem keeps_takeStoreError (failure : StoreFailure) (s : State) : Keeps s (takeStoreError failure s) := by
  unfold takeStoreError
  split
  · exact .refl s
  · split
    · exact (keeps_enterHalted failure s).trans (keeps_losePower _)
    · exact keeps_enterHalted failure s

/-! ## A hand-over (07 R120, 08 R149) -/

theorem judgeBatch_apartFromView (slot : BatchSlot) (r : BatchRequest) (s : State) :
    (judgeBatch slot r s).ltr.apartFromView = s.ltr.apartFromView := by
  unfold judgeBatch
  split
  · exact sparesTracker_tryArbiter _
  · rfl

theorem keeps_takeHandover (slot : BatchSlot) (request : BatchRequest) (s : State) :
    Keeps s (takeHandover slot request s) := by
  unfold takeHandover unlessHaltedFeed
  split
  · exact .refl s
  · dsimp only
    split
    · exact (keeps_onExc s ⟨rfl, rfl, rfl, rfl, rfl⟩).trans (keeps_handNext _)
    · split
      · exact keeps_onExc s ⟨rfl, rfl, rfl, rfl, rfl⟩
      · rename_i hroom
        exact (Keeps.of_feedless (feedless_judgeBatch slot request s) (judgeBatch_apartFromView slot request s)
          (lineSound_judgeBatch slot request (by simpa using hroom))).trans (keeps_handNext _)

end Sys2Proof.Machine
end

section
/-! PROOF. Every step keeps what is always true of the window, the attention line, the queues, the records, the stacks, the
feed line and the pace. -/

namespace Sys2Proof.Machine

open Sys2Proof

/-! ## The commands each block takes -/

section
variable {c : Instr} {s t : State} (h : exec c s = .next t)

include h

theorem keeps_exec_of_isStroke (hc : Instr.isStroke c = true) : Keeps s t := by
  cases c with
  | openWindow =>
    exact .of_taking (exec_openWindow ..) (fun u => .of_strokeless (strokeless_takeOpenWindow _ _ _ u)
      fun hs => queuesSound_takeOpenWindow hs _ _ _) h
  | closeWindow =>
    exact .of_taking (exec_closeWindow ..) (fun u => .of_strokeless (strokeless_takeCloseWindow _ u)
      fun hs => queuesSound_takeCloseWindow hs _) h
  | drainQueue => exact .of_taking (exec_drainQueue ..) (keeps_takeDrainQueue _) h
  | strayReset =>
    exact .of_taking (exec_strayReset ..) (fun u => .of_strokeless (strokeless_takeStrayReset _ u)
      fun hs => queuesSound_takeStrayReset hs _) h
  | _ => cases hc

theorem keeps_exec_of_isValve (hc : Instr.isValve c = true) : Keeps s t := by
  by_cases hacting : acting s = true
  · obtain ⟨u, hu, hframe⟩ := valveless_exec hacting hc
    cases hu.symm.trans h
    exact (Keeps.of_valveless hframe).trans (keeps_refreshLamps u)
  · have hneeds : Instr.needsActing c = true := by cases c <;> first | rfl | cases hc
    cases (exec_off hneeds (by simpa using hacting)).symm.trans h
    exact .refl s

theorem keeps_exec_of_isLevel (hc : Instr.isLevel c = true) : Keeps s t := by
  by_cases hacting : acting s = true
  · obtain ⟨u, hu, hframe⟩ := levelless_exec hacting hc
    cases hu.symm.trans h
    exact (Keeps.of_levelless hframe).trans (keeps_refreshLamps u)
  · have hneeds : Instr.needsActing c = true := by cases c <;> first | rfl | cases hc
    cases (exec_off hneeds (by simpa using hacting)).symm.trans h
    exact .refl s

theorem keeps_exec_of_isWave (hc : Instr.isWave c = true) : Keeps s t := by
  cases c with
  | firstOfKindNotice =>
    exact .of_taking (exec_firstOfKindNotice ..) (fun u => .of_waveless (waveless_takeFirstOfKind _ _ u)
      fun hs => recordsSound_takeFirstOfKind hs _ _) h
  | drainAnswer => exact .of_taking (exec_drainAnswer ..) (keeps_takeDrainAnswer _ _ _) h
  | markRequest =>
    exact .of_taking (exec_markRequest ..) (fun u => .of_waveless (waveless_takeMarkRequest _ _ u)
      fun hs => recordsSound_takeMarkRequest hs _ _) h
  | coilFaultNotice =>
    exact .of_taking (exec_coilFaultNotice ..) (fun u => .of_waveless (waveless_takeCoilFault _ u)
      fun hs => recordsSound_takeCoilFault hs _) h
  | eventRequest =>
    exact .of_taking (exec_eventRequest ..) (fun u => .of_waveless (waveless_takeEventRequest _ u)
      fun hs => recordsSound_takeEventRequest hs _) h
  | dwellExpiry =>
    exact .of_whileActing (exec_dwellExpiry s) (.of_waveless (waveless_takeDwellExpiry s) recordsSound_takeDwellExpiry) h
  | risePermissionAnswer =>
    exact .of_taking (exec_risePermissionAnswer ..) (fun u => .of_waveless (waveless_takePermission _ _ u)
      fun hs => recordsSound_takePermission hs _ _) h
  | driveTimerExpiry =>
    exact .of_whileActing (exec_driveTimerExpiry s) (.of_waveless (waveless_takeDriveTimer s) recordsSound_takeDriveTimer) h
  | settleTimerExpiry =>
    exact .of_whileActing (exec_settleTimerExpiry s)
      (.of_waveless (waveless_takeSettleTimer s) recordsSound_takeSettleTimer) h
  | fallTimerExpiry =>
    exact .of_whileActing (exec_fallTimerExpiry s) (.of_waveless (waveless_takeFallTimer s) recordsSound_takeFallTimer) h
  | waveStop =>
    exact .of_taking (exec_waveStop s) (fun u => .of_waveless (waveless_takeWaveStop u) recordsSound_takeWaveStop) h
  | wavePowerDown => exact .of_taking (exec_wavePowerDown s) keeps_takeWavePowerDown h
  | climbDirective => exact .of_taking (exec_climbDirective ..) (keeps_takeClimbDirective _) h
  | requalify =>
    exact .of_taking (exec_requalify ..) (fun u => .of_waveless (waveless_takeRequalify _ _ _ u)
      fun hs => recordsSound_takeRequalify hs _ _ _) h
  | retire =>
    exact .of_taking (exec_retire ..) (fun u => .of_waveless (waveless_takeRetire _ _ u)
      fun hs => recordsSound_takeRetire hs _ _) h
  | clearEventsStation =>
    exact .of_taking (exec_clearEventsStation ..) (fun u => .of_waveless (waveless_takeClearStation _ _ _ u)
      fun hs => recordsSound_takeClearStation hs _ _ _) h
  | _ => cases hc

theorem keeps_exec_of_isLayer (hc : Instr.isLayer c = true) : Keeps s t := by
  cases c with
  | countsChanged => exact .of_taking (exec_countsChanged s) keeps_takeCountsChanged h
  | feedView =>
    exact .of_taking (exec_feedView ..) (fun u => .of_layerless (layerless_takeFeedView _ _ u)
      fun hs => stacksSound_takeFeedView hs _ _) h
  | pourPlanRequest =>
    exact .of_taking (exec_pourPlanRequest ..) (fun u => .of_layerless (layerless_takePlanRequest _ u)
      fun hs => stacksSound_takePlanRequest hs _) h
  | placement => exact .of_taking (exec_placement ..) (keeps_takePlacement _ _ _) h
  | dropPlan =>
    exact .of_taking (exec_dropPlan s) (fun u => .of_layerless (layerless_takeDropPlan u) stacksSound_takeDropPlan) h
  | addOpening =>
    exact .of_taking (exec_addOpening ..) (fun u => .of_layerless (layerless_takeAddOpening _ _ _ _ u)
      fun hs => stacksSound_takeAddOpening hs _ _ _ _) h
  | dropOpening =>
    exact .of_taking (exec_dropOpening ..) (fun u => .of_layerless (layerless_takeDropOpening _ _ _ u)
      fun hs => stacksSound_takeDropOpening hs _ _ _) h
  | clearEventsSector =>
    exact .of_taking (exec_clearEventsSector ..) (fun u => .of_layerless (layerless_takeClearSector _ _ _ u)
      fun hs => stacksSound_takeClearSector hs _ _ _) h
  | risePermissionRequest =>
    exact .of_taking (exec_risePermissionRequest s) (fun u => .of_layerless (layerless_takePermissionRequest u)
      stacksSound_takePermissionRequest) h
  | feedMaskDirective => exact .of_taking (exec_feedMaskDirective ..) (keeps_takeFeedMask _) h
  | _ => cases hc

theorem keeps_exec_of_isFeed (hc : Instr.isFeed c = true) : Keeps s t := by
  cases c with
  | pourPlanAnswer =>
    exact .of_taking (exec_pourPlanAnswer ..) (fun u => .of_feedless (feedless_takePlanAnswer _ u)
      (sparesTracker_takePlanAnswer _ u) fun hs => lineSound_takePlanAnswer hs _) h
  | placementAnswer => exact .of_taking (exec_placementAnswer ..) (keeps_takePlacementAnswer _) h
  | gateClose =>
    exact .of_whileActing (exec_gateClose s) (.of_feedless (feedless_takeGateClose s) (sparesTracker_takeGateClose s)
      lineSound_takeGateClose) h
  | wasteGateClose =>
    exact .of_whileActing (exec_wasteGateClose s) (.of_feedless (feedless_takeWasteGateClose s)
      (sparesTracker_takeWasteGateClose s) lineSound_takeWasteGateClose) h
  | feedStop =>
    exact .of_taking (exec_feedStop s) (fun u => .of_feedless (feedless_takeFeedStop u) (sparesTracker_takeFeedStop u)
      lineSound_takeFeedStop) h
  | feedPowerDown =>
    exact .of_taking (exec_feedPowerDown s) (fun u => .of_feedless (feedless_takeFeedPowerDown u)
      (sparesTracker_takeFeedPowerDown u) lineSound_takeFeedPowerDown) h
  | feedPauseRequest =>
    exact .of_taking (exec_feedPauseRequest s) (fun u => .of_feedless (feedless_takeFeedPause u)
      (sparesTracker_takeFeedPause u) lineSound_takeFeedPause) h
  | flowDirective => exact .of_taking (exec_flowDirective ..) (keeps_takeFlow _) h
  | deficitNotice =>
    exact .of_taking (exec_deficitNotice s) (fun u => .of_feedless (feedless_takeDeficit u) (sparesTracker_takeDeficit u)
      lineSound_takeDeficit) h
  | cancelBatch =>
    exact .of_taking (exec_cancelBatch ..) (fun u => .of_feedless (feedless_takeCancel _ _ _ u)
      (sparesTracker_takeCancel _ _ _ u) fun hs => lineSound_takeCancel hs _ _ _) h
  | exitNotice => exact .of_taking (exec_exitNotice ..) (keeps_takeExitNotice _ _ _) h
  | _ => cases hc

theorem keeps_exec_of_isExchange (hc : Instr.isExchange c = true) : Keeps s t := by
  cases c with
  | attnWrite => exact .of_whileActing (exec_attnWrite ..) (keeps_withAttn _ _ s) h
  | attnMaskWrite => exact .of_whileActing (exec_attnMaskWrite ..) (keeps_withAttn _ _ s) h
  | attnPaceWrite => exact .of_whileActing (exec_attnPaceWrite ..) (keeps_writeAttnPace _ s) h
  | slotWriteRequest => exact .of_taking (exec_slotWriteRequest ..) (keeps_takeSlotWrite _) h
  | orderOutcome => exact .of_taking (exec_orderOutcome ..) (keeps_takeOrderOutcome _ _) h
  | exchangeScan => exact .of_whileActing (exec_exchangeScan s) (keeps_takeScan s) h
  | attentionSetRequest => exact .of_taking (exec_attentionSetRequest ..) (keeps_setAttn _) h
  | publishTimerExpiry => exact .of_taking (exec_publishTimerExpiry s) keeps_takePublishExpiry h
  | publicationEnd => exact .of_taking (exec_publicationEnd s) keeps_takePublicationEnd h
  | _ => cases hc

theorem keeps_exec_of_isOfAnotherBlock (hc : Instr.isOfAnotherBlock c = true) : Keeps s t := by
  simp only [Instr.isOfAnotherBlock, Bool.or_eq_true] at hc
  obtain ((((hstroke | hwave) | hlevel) | hlayer) | hfeed) | hexchange := hc
  · exact keeps_exec_of_isStroke h hstroke
  · exact keeps_exec_of_isWave h hwave
  · exact keeps_exec_of_isLevel h hlevel
  · exact keeps_exec_of_isLayer h hlayer
  · exact keeps_exec_of_isFeed h hfeed
  · exact keeps_exec_of_isExchange h hexchange

end

/-! ## The other commands -/

section
variable {c : Instr} {s t : State}

theorem keeps_exec_hostWindowWrite {offset : Nat} {value : Word} (h : exec (.hostWindowWrite offset value) s = .next t) :
    Keeps s t := by
  rw [exec_hostWindowWrite] at h
  split at h
  · injection h with h
    rw [← h]
    split
    · exact keeps_hostWrite offset value s
    · exact .refl s
  · cases h

theorem keeps_exec_siteSecondAdvance (h : exec .siteSecondAdvance s = .next t) : Keeps s t := by
  rw [exec_siteSecondAdvance] at h
  injection h with h
  rw [← h]
  split
  · exact ((keeps_advanceSecond s).trans (keeps_noticeSecond _)).trans (keeps_refreshLamps _)
  · exact keeps_advanceSecond s

theorem keeps_exec_retentionStoreError {failure : StoreFailure} (h : exec (.retentionStoreError failure) s = .next t) :
    Keeps s t := by
  have he := exec_retentionStoreError failure s
  split at he
  · exact .of_whileActing he (keeps_takeStoreError failure s) h
  · cases he.symm.trans h
    exact .of_same rfl rfl rfl rfl rfl rfl
  · cases he.symm.trans h
    exact .refl s

theorem keeps_exec_supplyDies (h : exec .supplyDies s = .next t) : Keeps s t := by
  have he := exec_supplyDies s
  split at he
  · exact .of_whileActing he (keeps_takeSupplyDies s) h
  · cases he.symm.trans h
    exact keeps_losePower s
  · cases he.symm.trans h
    exact .refl s

theorem keeps_exec_resetRelease {strapHigh : Bool} (h : exec (.resetRelease strapHigh) s = .next t) : Keeps s t := by
  rw [exec_resetRelease, execResetRelease] at h
  split at h <;> injection h with h <;> rw [← h]
  · exact keeps_release _ _ s
  · exact keeps_noteRelease _ s
  · exact .refl s

theorem keeps_exec_powerOn {backupHeld : Bool} (h : exec (.powerOn backupHeld) s = .next t) : Keeps s t := by
  rw [exec_powerOn] at h
  injection h with h
  rw [← h]
  split
  · exact .refl s
  · exact (keeps_powerUp backupHeld s).trans (keeps_refreshLamps _)

theorem keeps_exec_of_sparesValves (hc : Instr.sparesValves c = true) (h : exec c s = .next t) : Keeps s t := by
  cases c with
  | start =>
    exact .of_whileActing (exec_start s) (keeps_command (keeps_takenInConfig _ keeps_startInConfig) s) h
  | stop => exact .of_whileActing (exec_stop s) (keeps_command keeps_takeStop s) h
  | clear => exact .of_whileActing (exec_clear s) (keeps_command (keeps_takenInConfig _ keeps_clearInConfig) s) h
  | lineModeRestart =>
    exact .of_whileActing (exec_lineModeRestart s) (keeps_command (keeps_setLineMode _ _) s) h
  | lineModeHold =>
    exact .of_whileActing (exec_lineModeHold s) (keeps_command (keeps_setLineMode _ _) s) h
  | unknownCommand code =>
    exact .of_whileActing (exec_unknownCommand code s) (keeps_command (keeps_answerCode _ _ _) s) h
  | ignoredRegisterWrite offset value => cases h; exact .refl s
  | hostWindowWrite offset value => exact keeps_exec_hostWindowWrite h
  | supplyGood => exact .of_whileActing (exec_supplyGood s) (keeps_takeSupplyGood s) h
  | waveEnded => exact .of_taking (exec_waveEnded s) keeps_takeWaveEnded h
  | siteSecondAdvance => exact keeps_exec_siteSecondAdvance h
  | siteSecondNotice b => exact .of_taking (exec_siteSecondNotice b s) (keeps_blockSecond b) h
  | lampFlashToggle lamp => exact .of_whileActing (exec_lampFlashToggle lamp s) (keeps_toggleLamp lamp s) h
  | rowRead columns => exact .of_whileActing (exec_rowRead columns s) (keeps_takeRowRead columns s) h
  | lampTestExpiry => exact .of_whileActing (exec_lampTestExpiry s) (keeps_endLampTest s) h
  | clearDone b => exact .of_taking (exec_clearDone b s) (keeps_takeClearDone b) h
  | clearEventsRig slot events => exact .of_taking (exec_clearEventsRig ..) (keeps_takeClearRig slot events) h
  | batchHandover slot request => exact .of_taking (exec_batchHandover ..) (keeps_takeHandover slot request) h
  | readingNotice st => exact .of_taking (exec_readingNotice st s) keeps_judgeReadiness h
  | recoveryWindowExpiry => exact .of_whileActing (exec_recoveryWindowExpiry s) (keeps_expireRecoveryWindow s) h
  | _ => cases hc

theorem keeps_exec_of_reachesValves (hc : Instr.reachesValves c = true) (h : exec c s = .next t) : Keeps s t := by
  cases c with
  | reset => exact .of_whileActing (exec_reset s) (keeps_command keeps_takeReset s) h
  | retentionStoreError failure => exact keeps_exec_retentionStoreError h
  | powerOn backupHeld => exact keeps_exec_powerOn h
  | lineResetRestart => exact .of_whileActing (exec_lineResetRestart s) (keeps_assertLine s) h
  | lineResetHold => exact .of_whileActing (exec_lineResetHold s) (keeps_assertLine s) h
  | resetRelease strapHigh => exact keeps_exec_resetRelease h
  | supplyLow => exact .of_whileActing (exec_supplyLow s) (keeps_takeSupplyLow s) h
  | supplyDies => exact keeps_exec_supplyDies h
  | returnOfGoodSupply => exact .of_whileActing (exec_returnOfGoodSupply s) (keeps_takeReturn s) h
  | powerDownActionsDone => exact .of_taking (exec_powerDownActionsDone s) keeps_takeWaveDone h
  | feedStopped => exact .of_taking (exec_feedStopped s) keeps_takeFeedStopped h
  | partStateNotice b p => exact .of_taking (exec_partStateNotice b p s) (keeps_takePartState b p) h
  | lineHoldNotice b => exact .of_taking (exec_lineHoldNotice b s) (keeps_blockHolds b) h
  | clearNotice b => exact .of_taking (exec_clearNotice b s) (keeps_takeClearNotice b) h
  | _ => cases hc

theorem keeps_exec (h : exec c s = .next t) : Keeps s t := by
  obtain hc | hc | hc | hc := valve_effect_cases c
  · exact keeps_exec_of_isOfAnotherBlock h hc
  · exact keeps_exec_of_sparesValves hc h
  · exact keeps_exec_of_isValve h hc
  · exact keeps_exec_of_reachesValves hc h

theorem keeps_idle (s : State) : Keeps s (idle s) := by
  unfold idle
  split
  · exact .of_same rfl rfl rfl rfl rfl rfl
  · exact .refl s

/-- Every step keeps each thing that is always true. -/
theorem keeps_step (h : step s = .next t) : Keeps s t := by
  obtain ⟨c, rest, -, hexec⟩ | ⟨-, c, -, hexec⟩ | ⟨-, -, rfl⟩ := step_cases h
  · exact (Keeps.of_same (s := s) (t := { s with pending := rest }) rfl rfl rfl rfl rfl rfl).trans (keeps_exec hexec)
  · exact keeps_exec hexec
  · exact keeps_idle s

end

/-- Settles O5: the window is written through operations of the canonical form alone, and the attention registers through
`Exc.withAttn`, which sets the line with them. -/
theorem stepKeepsTheWindowAndTheAttnLine : Obligations.StepKeepsTheWindowAndTheAttnLine :=
  ⟨fun _ _ hs h => (keeps_step h).window hs, fun _ _ hs h => (keeps_step h).attn hs⟩

/-- Settles O7: a record joins a queue with room at an open window only. -/
theorem stepKeepsTheEdgeQueuesSound : Obligations.StepKeepsTheEdgeQueuesSound :=
  fun _ _ hs h => (keeps_step h).queues hs

/-- Settles O8: the third mark bars its station in the step that gives it. -/
theorem stepKeepsTheStationRecordsSound : Obligations.StepKeepsTheStationRecordsSound :=
  fun _ _ hs h => (keeps_step h).records hs

/-- Settles O9: a layer, an opening and a batch are each taken where there is room for them only. -/
theorem stepKeepsStacksLineAndPaceSound : Obligations.StepKeepsStacksLineAndPaceSound :=
  ⟨fun _ _ hs h => (keeps_step h).stack hs,
    fun _ _ hs h => ⟨(keeps_step h).line hs.1, (keeps_step h).pace hs.2⟩⟩

end Sys2Proof.Machine
end

section
/-! PROOF. The lamps follow the state at every step (09 R170): what a command makes of the state is shown by the lamps,
and the few changes that are not shown change nothing the lamps rest on. -/

namespace Sys2Proof.Machine

open Sys2Proof

/-- The lamps, once they show the state, show its patterns. -/
theorem lampsExact_refreshLamps (s : State) : lampsExact (refreshLamps s) :=
  ⟨show_pattern _ _ _, show_pattern _ _ _, show_pattern _ _ _⟩

theorem lampsExact_of_leadsTo {c : Instr} {s t u : State} (hu : leadsTo c s u) (h : exec c s = .next t) : lampsExact t := by
  cases hu.symm.trans h
  exact lampsExact_refreshLamps u

theorem lampsExact_whileActing {f : State → State} {s t : State} (hs : lampsExact s) (h : whileActing f s = .next t) :
    lampsExact t := by
  unfold whileActing at h
  injection h with h
  rw [← h]
  split
  · exact lampsExact_refreshLamps _
  · exact hs

/-- The window is none of the lamps' business. -/
theorem lampsExact_of_exchangeless {s t : State} (h : exchangeless t = exchangeless s) (hs : lampsExact s) :
    lampsExact t := by
  rw [exchangeless_eq h]
  exact hs

/-- A reset that waits is none of the lamps' business. -/
theorem lampsExact_noteRelease (strapHigh : Bool) {s : State} (hs : lampsExact s) :
    lampsExact (noteRelease strapHigh s) := by
  unfold noteRelease
  split
  · exact hs
  · exact hs

section
variable {s t : State}

theorem lampsExact_exec_hostWindowWrite {offset : Nat} {value : Word} (hs : lampsExact s)
    (h : exec (.hostWindowWrite offset value) s = .next t) : lampsExact t := by
  rw [exec_hostWindowWrite] at h
  split at h
  · injection h with h
    rw [← h]
    split
    · exact lampsExact_of_exchangeless (exchangeless_hostWrite offset value s) hs
    · exact hs
  · cases h

theorem lampsExact_exec_resetRelease {strapHigh : Bool} (hs : lampsExact s)
    (h : exec (.resetRelease strapHigh) s = .next t) : lampsExact t := by
  rw [exec_resetRelease, execResetRelease] at h
  split at h <;> injection h with h <;> rw [← h]
  · exact lampsExact_refreshLamps _
  · exact lampsExact_noteRelease strapHigh hs
  · exact hs

theorem lampsExact_exec_powerOn {backupHeld : Bool} (hs : lampsExact s) (h : exec (.powerOn backupHeld) s = .next t) :
    lampsExact t := by
  rw [exec_powerOn] at h
  injection h with h
  rw [← h]
  split
  · exact hs
  · exact lampsExact_refreshLamps _

theorem lampsExact_exec_siteSecondAdvance (hs : lampsExact s) (h : exec .siteSecondAdvance s = .next t) : lampsExact t := by
  rw [exec_siteSecondAdvance] at h
  injection h with h
  rw [← h]
  split
  · exact lampsExact_refreshLamps _
  · exact hs

theorem lampsExact_exec_retentionStoreError {failure : StoreFailure} (hs : lampsExact s)
    (h : exec (.retentionStoreError failure) s = .next t) : lampsExact t := by
  have he := exec_retentionStoreError failure s
  split at he
  · exact lampsExact_whileActing hs (he.symm.trans h)
  · cases he.symm.trans h
    exact hs
  · cases he.symm.trans h
    exact hs

theorem lampsExact_exec_supplyDies (hs : lampsExact s) (h : exec .supplyDies s = .next t) : lampsExact t := by
  have he := exec_supplyDies s
  split at he
  · exact lampsExact_whileActing hs (he.symm.trans h)
  · cases he.symm.trans h
    exact lampsExact_refreshLamps _
  · cases he.symm.trans h
    exact hs

theorem lampsExact_exec_of_needsActing {c : Instr} (hc : Instr.needsActing c = true) (hs : lampsExact s)
    (h : exec c s = .next t) : lampsExact t := by
  cases hacting : acting s with
  | true =>
    obtain ⟨u, hu⟩ := exec_on hc hacting
    exact lampsExact_of_leadsTo hu h
  | false =>
    cases (exec_off hc hacting).symm.trans h
    exact hs

theorem lampsExact_exec {c : Instr} (hs : lampsExact s) (h : exec c s = .next t) : lampsExact t := by
  cases c with
  | ignoredRegisterWrite offset value => cases h; exact hs
  | hostWindowWrite offset value => exact lampsExact_exec_hostWindowWrite hs h
  | powerOn backupHeld => exact lampsExact_exec_powerOn hs h
  | resetRelease strapHigh => exact lampsExact_exec_resetRelease hs h
  | siteSecondAdvance => exact lampsExact_exec_siteSecondAdvance hs h
  | retentionStoreError failure => exact lampsExact_exec_retentionStoreError hs h
  | supplyDies => exact lampsExact_exec_supplyDies hs h
  | _ => exact lampsExact_exec_of_needsActing rfl hs h

/-- A millisecond changes no state that a lamp shows. -/
theorem lampsExact_idle (hs : lampsExact s) : lampsExact (idle s) := by
  unfold idle
  split
  · exact hs
  · exact hs

end

/-- Settles O10: each lamp is shown the state as a command has made it. -/
theorem stepKeepsTheLampsExact : Obligations.StepKeepsTheLampsExact := by
  intro s t hs h
  obtain ⟨c, rest, -, hexec⟩ | ⟨-, c, -, hexec⟩ | ⟨-, -, rfl⟩ := step_cases h
  · exact lampsExact_exec (s := { s with pending := rest }) hs hexec
  · exact lampsExact_exec hs hexec
  · exact lampsExact_idle hs

end Sys2Proof.Machine
end

section
/-! PROOF. One step of the part: the command at the front, what the part does by itself, what the lamps show, and the
state after reset (01, 09 R162, R168, R170; log 6). -/

namespace Sys2Proof.Machine

open Sys2Proof

/-- Settles O1. -/
theorem stepTakesTheFrontCommand : Obligations.StepTakesTheFrontCommand := fun _ _ _ => rfl

/-! ## Timers and stamps -/

theorem timerDue_iff {t : Option Timer} {at_ : Word} :
    timerDue t at_ = true ↔ ∃ x, t = some x ∧ x.length ≤ (at_ - x.start).toNat := by
  cases t <;> simp [timerDue, Timer.isDue] <;> rfl

theorem stampDue_iff {stamp : Option Word} {length : Nat} {at_ : Word} :
    stampDue stamp length at_ = true ↔ ∃ b, stamp = some b ∧ length ≤ (at_ - b).toNat := by
  cases stamp <;> simp [stampDue] <;> rfl

theorem rampDue_iff {c : Channel} {at_ : Word} :
    c.rampDue at_ = true ↔ ∃ r, c.ramp = some r ∧ r.duration ≤ (at_ - r.start).toNat := by
  cases h : c.ramp <;> simp [Channel.rampDue, h] <;> rfl

theorem gateRun_isDue_iff {g : GateRun} {at_ : Word} :
    g.isDue at_ = true ↔ g.passed = none ∧ (g.closeAt - g.openedAt).toNat ≤ (at_ - g.openedAt).toNat := by
  rw [GateRun.isDue, GateRun.ran, Bool.and_eq_true, decide_eq_true_iff, Option.isNone_iff_eq_none]
  rfl

theorem drives_iff {p : PartState} : drives p = true ↔ p = .run ∨ p = .stopping := by
  cases p <;> simp [drives]

theorem exchanges_iff {p : PartState} :
    exchanges p = true ↔ p = .config ∨ p = .run ∨ p = .stopping ∨ p = .recovery := by
  cases p <;> simp [exchanges]

theorem polls_iff {p : PartState} : polls p = true ↔ p = .config ∨ p = .run ∨ p = .stopping ∨ p = .recovery := by
  cases p <;> simp [polls]

/-- Some station comes next wherever one is fitted (05 R86). -/
theorem nextPoll_none_iff (s : State) : nextPoll s = none ↔ ∀ st, fitted s st = false := by
  have hfirst : (fittedStations s).head? = none ↔ ∀ st, fitted s st = false := by
    simp [fittedStations, allStations]
  unfold nextPoll
  split
  · exact hfirst
  · split
    · rename_i st hst
      have hmem : st ∈ fittedStations s := List.mem_of_mem_filter (List.mem_of_mem_head? hst)
      have hfitted : fitted s st = true := (List.mem_filter.mp hmem).2
      exact iff_of_false (by simp) fun h => by simp [h st] at hfitted
    · exact hfirst

theorem nextPoll_isSome_iff (s : State) : (nextPoll s).isSome = true ↔ ∃ st, fitted s st = true := by
  rw [← Option.ne_none_iff_isSome, Ne, nextPoll_none_iff]
  simp

theorem pollDue_iff (s : State) : pollDue s = true ↔
    polls s.lbp.view = true ∧ s.lbp.transaction = .idle ∧ (∃ st, fitted s st = true)
      ∧ (s.lbp.lastEnd = none ∨ stampDue s.lbp.lastEnd 1 (now s) = true) := by
  unfold pollDue
  rw [Bool.and_eq_true, Bool.and_eq_true, Bool.and_eq_true, Bool.or_eq_true, decide_eq_true_iff, nextPoll_isSome_iff,
    Option.isNone_iff_eq_none, and_assoc, and_assoc]
  rfl

theorem replyLate_iff (s : State) : replyLate s = true ↔ ∃ st attempt query, s.lbp.transaction = .await st attempt query
    ∧ ((s.lbp.incoming = none ∧ 4 ≤ (s.tmb.fineTime - query).toNat)
        ∨ ∃ r, s.lbp.incoming = some r ∧ 2 ≤ (s.tmb.fineTime - r.begun).toNat) := by
  unfold replyLate
  split
  · rename_i ht hi
    simp only [ht, hi, decide_eq_true_eq]
    exact ⟨fun h => ⟨_, _, _, rfl, .inl ⟨trivial, h⟩⟩, by rintro ⟨_, _, _, ⟨⟩, ⟨-, h⟩ | ⟨_, ⟨⟩, -⟩⟩; exact h⟩
  · rename_i ht hi
    simp only [ht, hi, decide_eq_true_eq]
    exact ⟨fun h => ⟨_, _, _, rfl, .inr ⟨_, rfl, h⟩⟩, by rintro ⟨_, _, _, ⟨⟩, ⟨⟨⟩, -⟩ | ⟨_, ⟨⟩, h⟩⟩; exact h⟩
  · rename_i hnone hsome
    refine iff_of_false Bool.false_ne_true ?_
    rintro ⟨st, attempt, query, ht, ⟨hi, -⟩ | ⟨r, hi, -⟩⟩
    · exact hnone st attempt query ht hi
    · exact hsome st attempt query r ht hi

theorem readingOld_iff (s : State) (st : Station) :
    readingOld s st = true ↔ ∃ r, readingOf s st = some r ∧ 2 ^ 31 ≤ (s.tmb.fineTime - r.taken).toNat := by
  cases h : readingOf s st <;> simp [readingOld, h] <;> rfl

theorem lampIsDue_iff {l : Lamp} {at_ : Word} : lampIsDue l at_ = true ↔
    (l.pattern = .slow ∧ 1000 ≤ (at_ - l.since).toNat) ∨ (l.pattern = .fast ∧ 250 ≤ (at_ - l.since).toNat) := by
  cases h : l.pattern <;> simp [lampIsDue, flashTime, h] <;> rfl

/-! ## What has come due -/

/-- The time of the command has come (log 6). -/
def timeHasCome (s : State) : Instr → Prop
  | .rampEnd st => (channelOf s st).rampDue (now s) = true
  | .fallTimerExpiry => s.wvc.climb = .settle ∧ s.wvc.ending = none ∧ timerDue s.wvc.fallTimer (now s) = true
  | .settleTimerExpiry => s.wvc.climb = .settle ∧ s.wvc.ending = none ∧ timerDue s.wvc.settleTimer (now s) = true
  | .driveTimerExpiry => s.wvc.climb = .drive ∧ s.wvc.ending = none ∧ timerDue s.wvc.driveTimer (now s) = true
  | .dwellExpiry => s.wvc.climb = .dwell ∧ startDue s = true ∧ s.wvc.permission = false
  | .gateClose => drives s.fds.view = true ∧ ∃ k g, s.fds.gate = .drop k g ∧ g.isDue (now s) = true
  | .wasteGateClose => drives s.fds.view = true ∧ ∃ g cause, s.fds.gate = .waste g cause ∧ g.isDue (now s) = true
  | .recoveryWindowExpiry => isSettling s = true ∧ timerDue s.psv.recoveryTimer (now s) = true
  | .returnOfGoodSupply =>
    s.psv.state = .powerDown ∧ s.psv.monitor = .wait ∧ stampDue s.psv.goodTimer Config.goodSupplyTime (now s) = true
  | .lampTestExpiry => ∃ b, s.psv.benchPhase = .lampTest b ∧ Config.lampTestTime ≤ since (now s) b
  | .settleHoldEnd => stampDue s.lbp.settleHold (1000 * s.psv.rig.probeSettle) (now s) = true
  | .readingMadeAbsent st => readingOld s st = true
  | .replyTimeout => replyLate s = true
  | .transactionBegin => pollDue s = true
  | .exchangeScan => exchanges s.psv.state = true ∧ stampDue s.exc.scanTimer Config.scanPeriod (now s) = true
  | .publishTimerExpiry => exchanges s.psv.state = true ∧ timerDue s.exc.publishTimer (now s) = true
  | .lampFlashToggle n => lampIsDue (lampOf s n) (now s) = true
  | _ => False

/-- A command that is found due has its time come. -/
theorem timeHasCome_of_due {s : State} {c : Instr} (h : due s = some c) : timeHasCome s c := by
  obtain ⟨st, rfl, hramp⟩ | hwave | hgate | hsupervisor | hlevel | hexchange | hlamp := due_some h
  · exact hramp
  · obtain ⟨rfl, hc⟩ | ⟨rfl, hc⟩ | ⟨rfl, hc⟩ | ⟨rfl, hc⟩ := waveDue_some hwave
    · exact hc
    · exact hc
    · exact hc
    · exact hc
  · obtain ⟨hdrives, ⟨rfl, hc⟩ | ⟨rfl, hc⟩⟩ := gateDue_some hgate
    · exact ⟨hdrives, hc⟩
    · exact ⟨hdrives, hc⟩
  · obtain ⟨rfl, hc⟩ | ⟨rfl, hc⟩ | ⟨rfl, hc⟩ := supervisorDue_some hsupervisor
    · exact hc
    · exact hc
    · exact hc
  · obtain ⟨rfl, hc⟩ | ⟨st, rfl, hc⟩ | ⟨rfl, hc⟩ | ⟨rfl, hc⟩ := levelDue_some hlevel
    · exact hc
    · exact hc
    · exact hc
    · exact hc
  · obtain ⟨rfl, hc⟩ | ⟨rfl, hc⟩ := exchangeDue_some hexchange
    · exact hc
    · exact hc
  · obtain ⟨n, rfl, hc⟩ := lampDue_some hlamp
    exact hc

/-- Where nothing is found due, no command has its time come. -/
theorem not_timeHasCome_of_due_none {s : State} (h : due s = none) (c : Instr) : ¬ timeHasCome s c := by
  obtain ⟨hramp, hwave, hgate, hsupervisor, hlevel, hexchange, hlamp⟩ := due_none h
  obtain ⟨hfall, hsettle, hdrive, hdwell⟩ := waveDue_none hwave
  obtain ⟨hwindow, hsupply, hlampTest⟩ := supervisorDue_none hsupervisor
  obtain ⟨hhold, hold, hlate, hpoll⟩ := levelDue_none hlevel
  obtain ⟨hscan, hpublish⟩ := exchangeDue_none hexchange
  cases c with
  | rampEnd st => exact ne_true_of_eq_false (hramp st)
  | fallTimerExpiry => exact hfall
  | settleTimerExpiry => exact hsettle
  | driveTimerExpiry => exact hdrive
  | dwellExpiry => exact hdwell
  | gateClose =>
    rintro ⟨hdrives, k, g, hg, hdue⟩
    exact ne_true_of_eq_false ((gateDue_none hgate hdrives).1 k g hg) hdue
  | wasteGateClose =>
    rintro ⟨hdrives, g, cause, hg, hdue⟩
    exact ne_true_of_eq_false ((gateDue_none hgate hdrives).2 g cause hg) hdue
  | recoveryWindowExpiry => exact hwindow
  | returnOfGoodSupply => exact hsupply
  | lampTestExpiry =>
    rintro ⟨b, hb, hlong⟩
    exact absurd (hlampTest b hb) (Nat.not_lt.mpr hlong)
  | settleHoldEnd => exact ne_true_of_eq_false hhold
  | readingMadeAbsent st => exact ne_true_of_eq_false (hold st)
  | replyTimeout => exact ne_true_of_eq_false hlate
  | transactionBegin => exact ne_true_of_eq_false hpoll
  | exchangeScan => exact hscan
  | publishTimerExpiry => exact hpublish
  | lampFlashToggle n => exact ne_true_of_eq_false (lampDue_none hlamp n)
  | _ => exact id

/-- A command comes due exactly by the condition that says its time has come. -/
theorem comes_of_iff {s : State} {c : Instr} {p : Prop} (h : timeHasCome s c ↔ p) :
    (due s = some c → p) ∧ (p → due s ≠ none) :=
  ⟨fun hdue => h.mp (timeHasCome_of_due hdue), fun hp hnone => not_timeHasCome_of_due_none hnone c (h.mpr hp)⟩

/-! ## What the part does by itself -/

/-- The messages that wait (logs 19 and 67). -/
theorem heldBack_iff (s : State) (c : Instr) : heldBack s c = true ↔ (c = .wavePowerDown ∧ s.ssu.scan = .ending)
    ∨ ((c = .clearNotice .fds ∨ c = .clearNotice .exc) ∧ (settlingWaits s = true ∨ handoverWaits s = true)) := by
  simp [heldBack, emptiesSlots]

theorem nextMessage_eq_some {s : State} {before rest : List Instr} {c : Instr} (hmail : s.mail = before ++ c :: rest)
    (hbefore : ∀ m ∈ before, heldBack s m = true) (hc : heldBack s c = false) : nextMessage s = some c := by
  unfold nextMessage
  rw [hmail, List.find?_append, List.find?_eq_none.mpr fun m hm => by simp [hbefore m hm]]
  simp [hc]

theorem nextMessage_eq_none {s : State} (h : ∀ m ∈ s.mail, heldBack s m = true) : nextMessage s = none :=
  List.find?_eq_none.mpr fun m hm => by simp [h m hm]

/-- With nothing at the front of the queue, the step is the command the part takes by itself. -/
theorem step_of_nextOwn {s : State} {c : Instr} (h : s.pending = []) (hown : nextOwn s = some c) : step s = exec c s := by
  unfold step
  simp only [h, hown]

/-- With nothing at the front of the queue and no command of the part's own, the step is idle. -/
theorem step_of_nextOwn_none {s : State} (h : s.pending = []) (hown : nextOwn s = none) : step s = .next (idle s) := by
  unfold step
  simp only [h, hown]

theorem nextOwn_of_not_acting {s : State} (h : acting s = false) : nextOwn s = none := by simp [nextOwn, h]

theorem nextOwn_of_acting {s : State} (h : acting s = true) : nextOwn s = (nextMessage s <|> due s) := by
  simp [nextOwn, h]

/-- Settles O2. -/
theorem idleStepsAndCommandsWithoutRelease : Obligations.IdleStepsAndCommandsWithoutRelease := by
  refine ⟨?_, fun _ _ => exec_off, ?_⟩
  · intro s hpending waits
    have hwaits (m : Instr) : waits m ↔ heldBack s m = true := (heldBack_iff s m).symm
    refine ⟨?_, ?_, ?_, ?_⟩
    · intro hacting
      rw [step_of_nextOwn_none hpending (nextOwn_of_not_acting hacting)]
      simp [idle, hacting]
    · intro before c rest hacting hmail hbefore hc
      have hnext : nextMessage s = some c := nextMessage_eq_some hmail (fun m hm => (hwaits m).mp (hbefore m hm))
        (by simpa [hwaits] using hc)
      exact step_of_nextOwn hpending (by rw [nextOwn_of_acting hacting, hnext]; rfl)
    · intro c hacting hmail hdue
      have hnone : nextMessage s = none := nextMessage_eq_none fun m hm => (hwaits m).mp (hmail m hm)
      exact step_of_nextOwn hpending (by rw [nextOwn_of_acting hacting, hnone, hdue]; rfl)
    · intro hacting hmail hdue
      have hnone : nextMessage s = none := nextMessage_eq_none fun m hm => (hwaits m).mp (hmail m hm)
      rw [step_of_nextOwn_none hpending (by rw [nextOwn_of_acting hacting, hnone, hdue]; rfl)]
      simp only [idle, hacting, if_true]
      rfl
  · intro s passed runOut lasted closes pours exchanging polling comes
    have hrunOut (t : Option Timer) : timerDue t (now s) = true ↔ runOut t := timerDue_iff
    have hlasted (b : Option Word) (n : Nat) : stampDue b n (now s) = true ↔ lasted b n := stampDue_iff
    have hcloses (g : GateRun) : g.isDue (now s) = true ↔ closes g := gateRun_isDue_iff
    have hpours : drives s.fds.view = true ↔ pours := drives_iff
    have hexchanging : exchanges s.psv.state = true ↔ exchanging := exchanges_iff
    have hpolling : polls s.lbp.view = true ↔ polling := polls_iff
    refine ⟨fun st => comes_of_iff rampDue_iff, comes_of_iff ?_, comes_of_iff ?_, comes_of_iff ?_, comes_of_iff ?_,
      comes_of_iff ?_, comes_of_iff ?_, comes_of_iff ?_, comes_of_iff ?_, comes_of_iff Iff.rfl, comes_of_iff (hlasted _ _),
      fun st => comes_of_iff (readingOld_iff s st), comes_of_iff (replyLate_iff s), comes_of_iff ?_, comes_of_iff ?_,
      comes_of_iff ?_, fun n => comes_of_iff lampIsDue_iff⟩
    · simp only [timeHasCome, hrunOut]
    · simp only [timeHasCome, hrunOut]
    · simp only [timeHasCome, hrunOut]
    · simp only [timeHasCome, startDue_iff]
      tauto
    · simp only [timeHasCome, hpours, hcloses]
    · simp only [timeHasCome, hpours, hcloses]
    · simp only [timeHasCome, isSettling, Bool.and_eq_true, decide_eq_true_eq, hrunOut, and_assoc]
    · simp only [timeHasCome, hlasted, Config.goodSupplyTime]
    · simp only [timeHasCome, pollDue_iff, hpolling, hlasted]
    · simp only [timeHasCome, hexchanging, hlasted, Config.scanPeriod]
    · simp only [timeHasCome, hexchanging, hrunOut]

/-! ## The lamps -/

/-- The three lamps show these patterns once they are refreshed on a state that has them. -/
theorem refreshLamps_shows {s : State} {g a r : LampPattern} (h : lampPatterns s = ⟨g, a, r⟩) :
    (refreshLamps s).psv.green.pattern = g ∧ (refreshLamps s).psv.amber.pattern = a
      ∧ (refreshLamps s).psv.red.pattern = r := by
  simp [h]

theorem lampPatterns_of_not_on {s : State} (h : s.power ≠ .on) : lampPatterns s = ⟨.dark, .dark, .dark⟩ := by
  cases hp : s.power <;> simp_all [lampPatterns]

theorem lampPatterns_run {s : State} (hp : s.power = .on) (hr : s.psv.state = .run) :
    lampPatterns s = ⟨.steady, runAmber s.wvc.climb s.fds.paused, .dark⟩ := by simp [lampPatterns, hp, hr]

theorem lampPatterns_bench {s : State} (hp : s.power = .on) (hb : s.psv.state = .bench) :
    lampPatterns s = benchPatterns s.psv := by simp [lampPatterns, hp, hb]

theorem benchPatterns_of_not_lampTest {q : Psv} (h : ∀ b, q.benchPhase ≠ .lampTest b) :
    (q.bench = .running → benchPatterns q = ⟨.dark, .slow, .dark⟩)
      ∧ (q.bench = .pass → benchPatterns q = ⟨.steady, .dark, .dark⟩)
      ∧ (q.bench = .clockFault → benchPatterns q = ⟨.dark, .dark, .slow⟩)
      ∧ (q.bench = .matrixFault → benchPatterns q = ⟨.dark, .dark, .fast⟩) := by
  unfold benchPatterns
  split
  · rename_i b hb
    exact absurd hb (h b)
  all_goals simp_all

/-- A lamp that shows its pattern already goes on. -/
theorem show_of_pattern {l : Lamp} {p : LampPattern} (h : l.pattern = p) (at_ : Word) : l.show p at_ = l := by
  simp [Lamp.show, h]

theorem toggle_of_flashing {l : Lamp} (h : l.pattern = .slow ∨ l.pattern = .fast) (at_ : Word) :
    l.toggle at_ = { l with lit := !l.lit, since := at_ } := by
  obtain h | h := h <;> simp [Lamp.toggle, flashTime, h]

theorem toggle_of_still {l : Lamp} (h : l.pattern = .dark ∨ l.pattern = .steady) (at_ : Word) : l.toggle at_ = l := by
  obtain h | h := h <;> simp [Lamp.toggle, flashTime, h]

/-- A state whose lamps show it is shown by them unchanged. -/
theorem refreshLamps_of_lampsExact {s : State} (h : lampsExact s) : refreshLamps s = s := by
  obtain ⟨hg, ha, hr⟩ := h
  simp only [refreshLamps, show_of_pattern hg, show_of_pattern ha, show_of_pattern hr]

theorem toggle_pattern (l : Lamp) (at_ : Word) : (l.toggle at_).pattern = l.pattern := by
  unfold Lamp.toggle
  split <;> rfl

theorem toggleLamp_eq (n : LampName) (s : State) : toggleLamp n s = setLamp s n ((lampOf s n).toggle (now s)) := rfl

/-- A toggle leaves every pattern as it was. -/
theorem lampsExact_toggleLamp (n : LampName) {s : State} (h : lampsExact s) : lampsExact (toggleLamp n s) := by
  obtain ⟨hg, ha, hr⟩ := h
  rw [toggleLamp_eq]
  cases n with
  | green => exact ⟨(toggle_pattern _ _).trans hg, ha, hr⟩
  | amber => exact ⟨hg, (toggle_pattern _ _).trans ha, hr⟩
  | red => exact ⟨hg, ha, (toggle_pattern _ _).trans hr⟩

theorem exec_lampFlashToggle_eq {s : State} (hacting : acting s = true) (h : lampsExact s) (n : LampName) :
    exec (.lampFlashToggle n) s = .next (setLamp s n ((lampOf s n).toggle (now s))) := by
  rw [exec_lampFlashToggle, whileActing_on _ hacting, refreshLamps_of_lampsExact (lampsExact_toggleLamp n h), toggleLamp_eq]

theorem setLamp_lampOf (s : State) (n : LampName) : setLamp s n (lampOf s n) = s := by cases n <;> rfl

/-- Settles O3. -/
theorem lampsShowTheStateAndFlash : Obligations.LampsShowTheStateAndFlash := by
  constructor
  · intro s t shows
    have hshows {g a r : LampPattern} (h : lampPatterns s = ⟨g, a, r⟩) : shows g a r := refreshLamps_shows h
    refine ⟨refreshLamps_eq s, fun hp => hshows (lampPatterns_of_not_on hp), fun hp => ⟨?_, ?_, ?_, ?_, ?_, ?_, ?_, ?_, ?_, ?_⟩⟩
    · exact fun hst => hshows (by simp [lampPatterns, hp, hst])
    · exact fun hst hheld => hshows (by simp [lampPatterns_run hp hst, runAmber, hheld])
    · exact fun hst hheld hpaused => hshows (by simp [lampPatterns_run hp hst, runAmber, hheld, hpaused])
    · exact fun hst hheld hpaused => hshows (by simp [lampPatterns_run hp hst, runAmber, hheld, hpaused])
    · exact fun hst => hshows (by simp [lampPatterns, hp, hst])
    · exact fun hst => hshows (by simp [lampPatterns, hp, hst])
    · exact fun hst => hshows (by simp [lampPatterns, hp, hst])
    · exact fun hst => hshows (by simp [lampPatterns, hp, hst])
    · exact fun b hst hb => hshows (by simp [lampPatterns_bench hp hst, benchPatterns, hb])
    · intro hst hphase
      obtain ⟨hrunning, hpass, hclock, hmatrix⟩ := benchPatterns_of_not_lampTest hphase
      have hbench := lampPatterns_bench hp hst
      exact ⟨fun h => hshows (hbench.trans (hrunning h)), fun h => hshows (hbench.trans (hpass h)),
        fun h => hshows (hbench.trans (hclock h)), fun h => hshows (hbench.trans (hmatrix h))⟩
  · intro s hacting hexact
    have hexec := exec_lampFlashToggle_eq hacting hexact
    refine ⟨fun h => ?_, fun h => ?_, fun h => ?_, fun n h => ?_⟩
    · rw [hexec, toggle_of_flashing (by exact h)]
      rfl
    · rw [hexec, toggle_of_flashing (by exact h)]
      rfl
    · rw [hexec, toggle_of_flashing (by exact h)]
      rfl
    · rw [hexec, toggle_of_still h, setLamp_lampOf]

/-! ## After reset -/

/-- Settles O4: after reset nothing waits in the queues, the tables are empty and the lamps show CONFIG. -/
theorem resetIsAColdStartAndSound : Obligations.ResetIsAColdStartAndSound := by
  refine ⟨?_, ?_, ?_, ?_, ?_, ?_, ?_, ?_, ?_, ?_⟩
  · decide
  · exact wf_nil
  · unfold attnLineExact; decide
  · unfold pumpExact; decide
  · unfold queuesSound SsuStation.sound; decide
  · unfold recordsSound StationRecord.sound; decide
  · exact stacksSound_of_cold rfl
  · exact Nat.zero_le 4
  · unfold paceSound; decide
  · unfold lampsExact; decide

end Sys2Proof.Machine
end

section
/-! PROOF. The commands of CONTROL (09 R163 to R167): when one is dropped, taken or turned away, STOP, and the line reset
modes. -/

namespace Sys2Proof.Machine

open Sys2Proof

/-! ## A command is dropped or taken (R163) -/

theorem command_of_waiting (f : State → State) {s : State} (h : s.psv.control.waiting = true) :
    command f s = onPsv (fun q => { q with control := { q.control with dropped := true } }) s := by
  simp [command, h]

theorem command_of_free (f : State → State) {s : State} (h : s.psv.control.waiting = false) : command f s = f s := by
  simp [command, h]

/-- A written command leads to what it does, where no command is in progress. -/
theorem leadsTo_of_command {s t : State} {c : Instr} {f : State → State} (h : exec c s = whileActing (command f) s)
    (hacting : acting s = true) (hfree : s.psv.control.waiting = false) (e : f s = t) : leadsTo c s t :=
  leadsTo_of_whileActing h hacting ((command_of_free f hfree).trans e)

/-- A written command is dropped while one is in progress. -/
theorem leadsTo_dropped {s : State} {c : Instr} {f : State → State} (h : exec c s = whileActing (command f) s)
    (hacting : acting s = true) (hwaiting : s.psv.control.waiting = true) :
    leadsTo c s { s with psv := { s.psv with control := { s.psv.control with dropped := true } } } :=
  leadsTo_of_whileActing h hacting (command_of_waiting f hwaiting)

/-! ## Commands in the wrong state (R164) -/

/-- The answer to a command outside the state it is taken in. -/
def turnedAway (c : Command) (s : State) : State :=
  answerCommand c (if s.psv.state = .stopping then .busy else .wrongState) 0 s

theorem takenInConfig_of_config (c : Command) (f : State → State) {s : State} (h : s.psv.state = .config) :
    takenInConfig c f s = f s := by
  simp [takenInConfig, h]

theorem takenInConfig_of_ne (c : Command) (f : State → State) {s : State} (h : s.psv.state ≠ .config) :
    takenInConfig c f s = turnedAway c s := by
  unfold takenInConfig turnedAway
  split <;> simp_all

theorem takeStop_of_run {s : State} (h : s.psv.state = .run) : takeStop s = stopInRun s := by simp [takeStop, h]

theorem takeStop_of_ne {s : State} (h : s.psv.state ≠ .run) : takeStop s = turnedAway .stop s := by
  unfold takeStop turnedAway
  split <;> simp_all

/-- A command turned away changes CONTROL alone, its DROPPED flag staying as it was. -/
theorem turnedAway_eq (c : Command) (s : State) : turnedAway c s = { s with psv := { s.psv with control :=
    ⟨commandCode c, if s.psv.state = .stopping then .busy else .wrongState, 0, false, s.psv.control.dropped⟩ } } := by
  unfold turnedAway
  split <;> rfl

theorem stopInRun_eq (s : State) : stopInRun s = { s with
    mail := s.mail ++ (noticed.map fun b => .partStateNotice b .stopping) ++ [.waveStop, .feedStop]
    psv := { s.psv with state := .stopping, waveEnded := false, feedStopped := false
                        control := ⟨commandCode .stop, .done, 0, false, false⟩ } } := rfl

/-- Settles O14. -/
theorem stopInRunAndCommandsInTheWrongState : Obligations.StopInRunAndCommandsInTheWrongState := by
  constructor
  · intro s hacting hfree hrun
    exact leadsTo_of_command (exec_stop s) hacting hfree ((takeStop_of_run hrun).trans (stopInRun_eq s))
  · intro s hacting hfree turned
    have hturned (c : Command) : turnedAway c s = turned (commandCode c) := turnedAway_eq c s
    refine ⟨fun hconfig => ⟨?_, ?_⟩, fun hrun => ?_⟩
    · exact leadsTo_of_command (exec_start s) hacting hfree ((takenInConfig_of_ne .start _ hconfig).trans (hturned .start))
    · exact leadsTo_of_command (exec_clear s) hacting hfree ((takenInConfig_of_ne .clear _ hconfig).trans (hturned .clear))
    · exact leadsTo_of_command (exec_stop s) hacting hfree ((takeStop_of_ne hrun).trans (hturned .stop))

/-- Settles O16. -/
theorem controlAnswersLineModesUnknownAndPending : Obligations.ControlAnswersLineModesUnknownAndPending := by
  constructor
  · intro s hacting hfree
    refine ⟨?_, ?_, fun code => ?_⟩
    · exact leadsTo_of_command (exec_lineModeRestart s) hacting hfree rfl
    · exact leadsTo_of_command (exec_lineModeHold s) hacting hfree rfl
    · exact leadsTo_of_command (exec_unknownCommand code s) hacting hfree rfl
  · intro s code hacting hwaiting c hc
    simp only [List.mem_cons, List.not_mem_nil, or_false] at hc
    obtain rfl | rfl | rfl | rfl | rfl | rfl | rfl := hc
    · exact leadsTo_dropped (exec_start s) hacting hwaiting
    · exact leadsTo_dropped (exec_stop s) hacting hwaiting
    · exact leadsTo_dropped (exec_clear s) hacting hwaiting
    · exact leadsTo_dropped (exec_reset s) hacting hwaiting
    · exact leadsTo_dropped (exec_lineModeRestart s) hacting hwaiting
    · exact leadsTo_dropped (exec_lineModeHold s) hacting hwaiting
    · exact leadsTo_dropped (exec_unknownCommand code s) hacting hwaiting

end Sys2Proof.Machine
end

section
/-! PROOF. The Stroke Sensing Unit's windows and edges (02 R20 to R31). -/

namespace Sys2Proof.Machine

open Sys2Proof

/-! ## A station put back as it is -/

theorem setSsu_ssuOf (s : State) (st : Station) : setSsu s st (ssuOf s st) = s := by
  unfold setSsu ssuOf
  rw [put_get_self]

theorem setSsu_setSsu (s : State) (st : Station) (u v : SsuStation) : setSsu (setSsu s st u) st v = setSsu s st v := by
  have htable : put (put s.ssu.stations st u) st v = put s.ssu.stations st v := table_ext fun j => by
    simp only [put_get]
    split <;> rfl
  unfold setSsu
  rw [htable]

/-! ## Windows (R23, R24, R28, R31) -/

theorem takeOpenWindow_of_ne {s : State} (h : s.ssu.view ≠ .halted) (st : Station) (kinds : WindowKinds) (notices : Bool) :
    takeOpenWindow st kinds notices s = setSsu s st ((ssuOf s st).openWindow kinds notices) := if_neg h

theorem takeOpenWindow_of_halted {s : State} (h : s.ssu.view = .halted) (st : Station) (kinds : WindowKinds)
    (notices : Bool) : takeOpenWindow st kinds notices s = s := if_pos h

theorem openWindow_of_closed {u : SsuStation} (h : u.window = none) (kinds : WindowKinds) (notices : Bool) :
    u.openWindow kinds notices = { u with window := some ⟨kinds, notices⟩, queue := [], overflow := false,
                                          armedExtend := true, armedRetract := true } := by
  simp [SsuStation.openWindow, h]

theorem openWindow_of_open {u : SsuStation} (h : u.window ≠ none) (kinds : WindowKinds) (notices : Bool) :
    u.openWindow kinds notices = { u with window := some ⟨kinds, notices⟩ } := by
  unfold SsuStation.openWindow
  split
  · exact absurd (by assumption) h
  · rfl

theorem closeWindow_of_closed {u : SsuStation} (h : u.window = none) : u.closeWindow = u := by
  simp [SsuStation.closeWindow, h]

theorem closeWindow_of_open {u : SsuStation} (h : u.window ≠ none) :
    u.closeWindow = { u with window := none, queue := [], overflow := false, armedExtend := false, armedRetract := false } := by
  unfold SsuStation.closeWindow
  split
  · exact absurd (by assumption) h
  · rfl

/-- Settles O18. -/
theorem openWindowOpensOrTakesOver : Obligations.OpenWindowOpensOrTakesOver := by
  intro s st kinds notices hacting c u
  have hexec := exec_openWindow st kinds notices s
  refine ⟨fun hview hclosed => ?_, fun hview hopen => ?_, fun hview => ?_⟩
  · refine leadsTo_of_taking hexec hacting ?_
    rw [takeOpenWindow_of_ne (by exact hview), ← openWindow_of_closed hclosed]
    rfl
  · refine leadsTo_of_taking hexec hacting ?_
    rw [takeOpenWindow_of_ne (by exact hview), ← openWindow_of_open hopen]
    rfl
  · exact leadsTo_of_taking hexec hacting (takeOpenWindow_of_halted (by exact hview) _ _ _)

/-- Settles O19. -/
theorem windowsCloseDrainAndForgetStrays : Obligations.WindowsCloseDrainAndForgetStrays := by
  constructor
  · intro s st hacting c u
    refine ⟨fun hopen => leadsTo_of_taking (exec_closeWindow st s) hacting ?_,
      fun hclosed => leadsTo_of_taking (exec_closeWindow st s) hacting ?_⟩
    · rw [← closeWindow_of_open hopen]
      rfl
    · have hsame : (ssuOf (took c s) st).closeWindow = ssuOf (took c s) st := closeWindow_of_closed hclosed
      rw [takeCloseWindow, hsame, setSsu_ssuOf]
  · intro s st hacting u
    exact ⟨leadsTo_of_taking (exec_drainQueue st s) hacting rfl, leadsTo_of_taking (exec_strayReset st s) hacting rfl⟩

/-! ## Debounce (R20, R21) -/

/-- The first time of the run that a read goes on with. -/
def SsuStation.firstOfRun (u : SsuStation) (at_ : Word) : Word := if u.run = 0 then at_ else u.runFirst

theorem read_of_equal {u : SsuStation} {raw : SwitchLevel} (h : raw = u.level) (scans : Nat) (at_ : Word) :
    u.read scans raw at_ = ({ u with run := 0 }, none) := if_pos h

theorem read_of_short_run {u : SsuStation} {raw : SwitchLevel} {scans : Nat} (h : raw ≠ u.level) (hrun : u.run + 1 < scans)
    (at_ : Word) : u.read scans raw at_ = ({ u with run := u.run + 1, runFirst := u.firstOfRun at_ }, none) :=
  (if_neg h).trans (if_neg (Nat.not_le.mpr hrun))

theorem read_of_full_run {u : SsuStation} {raw : SwitchLevel} {scans : Nat} (h : raw ≠ u.level) (hrun : scans ≤ u.run + 1)
    (at_ : Word) : u.read scans raw at_ =
      ({ u with level := raw, run := 0, runFirst := u.firstOfRun at_ }, some ⟨edgeKindOf raw, u.firstOfRun at_⟩) :=
  (if_neg h).trans (if_pos hrun)

/-! ## The disposition of an edge (R25 to R27, R30) -/

theorem disposeEdge_of_unfitted {s : State} {st : Station} (h : fitted s st = false) (e : EdgeRecord) :
    disposeEdge st e s = s := by
  simp [disposeEdge, h]

theorem disposeEdge_of_accepted {s : State} {st : Station} {e : EdgeRecord} {w : Window} (h : fitted s st = true)
    (hw : (ssuOf s st).window = some w) (hk : accepts w.kinds e.kind = true) : disposeEdge st e s = queueEdge st e w s := by
  simp [disposeEdge, h, hw, hk]

theorem disposeEdge_of_refused {s : State} {st : Station} {e : EdgeRecord} (h : fitted s st = true)
    (hw : ∀ w, (ssuOf s st).window = some w → accepts w.kinds e.kind = false) : disposeEdge st e s = strayEdge st s := by
  unfold disposeEdge
  rw [if_pos h]
  split
  · rename_i w hopen
    rw [hw w hopen]
    rfl
  · rfl

theorem offer_of_overflow {u : SsuStation} (h : u.overflow = true) (e : EdgeRecord) : u.offer e = (u, false) := if_pos h

theorem offer_of_full {u : SsuStation} (h : u.overflow = false) (hfull : 4 ≤ u.queue.length) (e : EdgeRecord) :
    u.offer e = ({ u with overflow := true }, false) :=
  (if_neg (by simp [h])).trans (if_neg (Nat.not_lt.mpr hfull))

theorem offer_of_room {u : SsuStation} (h : u.overflow = false) (hroom : u.queue.length < 4) (e : EdgeRecord) :
    u.offer e = ({ u with queue := u.queue ++ [e] }, true) :=
  (if_neg (by simp [h])).trans (if_pos hroom)

theorem queueEdge_of_not_joined {s : State} {st : Station} {e : EdgeRecord} {u : SsuStation}
    (h : (ssuOf s st).offer e = (u, false)) (w : Window) : queueEdge st e w s = setSsu s st u := by
  simp [queueEdge, h]

theorem queueEdge_of_silent {s : State} {st : Station} {e : EdgeRecord} {u : SsuStation} {w : Window}
    (h : (ssuOf s st).offer e = (u, true)) (hsilent : w.notices = false ∨ u.armed e.kind = false) :
    queueEdge st e w s = setSsu s st u := by
  obtain hsilent | hsilent := hsilent <;> simp [queueEdge, h, hsilent]

theorem queueEdge_of_noticed {s : State} {st : Station} {e : EdgeRecord} {u : SsuStation} {w : Window}
    (h : (ssuOf s st).offer e = (u, true)) (hnotices : w.notices = true) (harmed : u.armed e.kind = true) :
    queueEdge st e w s = send (.firstOfKindNotice st e.kind e.time) (setSsu s st (u.spend e.kind)) := by
  simp [queueEdge, h, hnotices, harmed]

theorem spend_eq (u : SsuStation) (kind : EdgeKind) : u.spend kind = { u with
    armedExtend := u.armedExtend && decide (kind ≠ .extend)
    armedRetract := u.armedRetract && decide (kind ≠ .retract) } := by
  cases kind <;> simp [SsuStation.spend]

theorem countsStrays_iff {p : PartState} : countsStrays p = true ↔ p = .run ∨ p = .stopping ∨ p = .recovery := by
  cases p <;> simp [countsStrays]

theorem strayEdge_of_discarded {s : State} (h : countsStrays s.psv.state = false) (st : Station) : strayEdge st s = s := by
  simp [strayEdge, h]

theorem strayEdge_of_below {s : State} {st : Station} (h : countsStrays s.psv.state = true)
    (hlimit : (ssuOf s st).strays + 1 < s.psv.rig.strayLimit) :
    strayEdge st s = setSsu s st { ssuOf s st with strays := (ssuOf s st).strays + 1 } := by
  simp [strayEdge, h, SsuStation.stray, Nat.not_le.mpr hlimit]

theorem strayEdge_of_limit {s : State} {st : Station} (h : countsStrays s.psv.state = true)
    (hlimit : s.psv.rig.strayLimit ≤ (ssuOf s st).strays + 1) :
    strayEdge st s = send (.markRequest st .stray) (setSsu s st { ssuOf s st with strays := 0 }) := by
  simp [strayEdge, h, SsuStation.stray, hlimit]

/-- Settles O21. -/
theorem readsAreDebouncedAndEdgesDisposedOf : Obligations.ReadsAreDebouncedAndEdgesDisposedOf := by
  constructor
  · intro u scans raw at_ first
    refine ⟨fun h => read_of_equal h scans at_, fun h hrun => read_of_short_run h hrun at_, fun h hrun hraw => ?_,
      fun h hrun hraw => ?_⟩
    · rw [read_of_full_run h hrun, hraw]
      rfl
    · rw [read_of_full_run h hrun, hraw]
      rfl
  · intro s st e u strays refused
    have hstrays : countsStrays s.psv.state = true ↔ strays := countsStrays_iff
    refine ⟨fun h => disposeEdge_of_unfitted h e, fun h => ⟨fun w hw hk => ?_, fun href hno => ?_, fun href hs hlimit => ?_,
      fun href hs hlimit => ?_⟩⟩
    · have hedge : disposeEdge st e s = queueEdge st e w s := disposeEdge_of_accepted h hw hk
      refine ⟨fun hfull => ?_, fun hover hfull => ?_, fun hover hroom hsilent => ?_, fun hover hroom hnotices harmed => ?_⟩
      · rw [hedge, queueEdge_of_not_joined (offer_of_overflow hfull e), setSsu_ssuOf]
      · rw [hedge, queueEdge_of_not_joined (offer_of_full hover hfull e)]
      · rw [hedge, queueEdge_of_silent (offer_of_room hover hroom e) (by simpa only [SsuStation.armed] using hsilent)]
      · rw [hedge, queueEdge_of_noticed (offer_of_room hover hroom e) hnotices
          (by simpa only [SsuStation.armed] using harmed), spend_eq]
    · rw [disposeEdge_of_refused h href, strayEdge_of_discarded (by simpa [← hstrays] using hno)]
    · rw [disposeEdge_of_refused h href, strayEdge_of_below (hstrays.mpr hs) hlimit]
    · rw [disposeEdge_of_refused h href, strayEdge_of_limit (hstrays.mpr hs) hlimit]

end Sys2Proof.Machine
end

section
/-! PROOF. A read of one row (02 R17 to R22, R34; 09 R171): each station of the row by itself, then the row that comes
next. -/

namespace Sys2Proof.Machine

open Sys2Proof

theorem sendAll_nil (s : State) : sendAll [] s = s := by
  unfold sendAll
  rw [List.append_nil]

theorem crossing_inj {row a b : Fin 8} (h : crossing row a = crossing row b) : a = b := by
  simp only [crossing, Fin.mk.injEq] at h
  omega

theorem crossing_row (row column : Fin 8) : (crossing row column).1 / 8 = row.1 := by
  simp only [crossing]
  omega

/-! ## What a read does of one station, apart from the state it stands in -/

/-- What an edge outside its window leaves of its station, and what it sends (R25, R30). -/
def straying (p : Psv) (st : Station) (u : SsuStation) : SsuStation × List Instr :=
  if countsStrays p.state then
    ((u.stray p.rig.strayLimit).1, if (u.stray p.rig.strayLimit).2 then [.markRequest st .stray] else [])
  else (u, [])

/-- What an edge its window accepts leaves of its station, and what it sends (R26, R27). -/
def queueing (st : Station) (e : EdgeRecord) (w : Window) (u : SsuStation) : SsuStation × List Instr :=
  if (u.offer e).2 && w.notices && (u.offer e).1.armed e.kind then
    ((u.offer e).1.spend e.kind, [.firstOfKindNotice st e.kind e.time])
  else ((u.offer e).1, [])

/-- What an edge leaves of its station, and what it sends (R25). -/
def disposal (p : Psv) (st : Station) (e : EdgeRecord) (u : SsuStation) : SsuStation × List Instr :=
  if fittedIn p.rig.fitted st then
    match u.window with
    | some w => if accepts w.kinds e.kind then queueing st e w u else straying p st u
    | none => straying p st u
  else (u, [])

/-- What a read leaves of its station, and what it sends (R20 to R22). -/
def reading (p : Psv) (at_ : Word) (adopting : Bool) (st : Station) (raw : SwitchLevel) (u : SsuStation) :
    SsuStation × List Instr :=
  if adopting then (u.adopt raw, [])
  else
    match (u.read p.rig.debounceScans raw at_).2 with
    | none => ((u.read p.rig.debounceScans raw at_).1, [])
    | some e => disposal p st e (u.read p.rig.debounceScans raw at_).1

/-- A station of the unit and the messages waiting, as an outcome for the station leaves them. -/
def settleStation (st : Station) (r : SsuStation × List Instr) (s : State) : State := sendAll r.2 (setSsu s st r.1)

theorem settleStation_same (st : Station) (s : State) : settleStation st (ssuOf s st, []) s = s := by
  unfold settleStation
  rw [sendAll_nil, setSsu_ssuOf]

theorem settleStation_setSsu (st : Station) (r : SsuStation × List Instr) (u : SsuStation) (s : State) :
    settleStation st r (setSsu s st u) = settleStation st r s := by
  unfold settleStation
  rw [setSsu_setSsu]

theorem strayEdge_eq (st : Station) (s : State) :
    strayEdge st s = settleStation st (straying s.psv st (ssuOf s st)) s := by
  unfold strayEdge straying
  split
  · unfold settleStation
    dsimp only
    cases (SsuStation.stray s.psv.rig.strayLimit (ssuOf s st)).2 with
    | true => rfl
    | false => exact (sendAll_nil _).symm
  · exact (settleStation_same st s).symm

theorem queueEdge_eq (st : Station) (e : EdgeRecord) (w : Window) (s : State) :
    queueEdge st e w s = settleStation st (queueing st e w (ssuOf s st)) s := by
  unfold queueEdge queueing
  dsimp only
  split
  · rfl
  · exact (sendAll_nil _).symm

theorem disposeEdge_eq (st : Station) (e : EdgeRecord) (s : State) :
    disposeEdge st e s = settleStation st (disposal s.psv st e (ssuOf s st)) s := by
  unfold disposeEdge disposal fitted
  split
  · cases (ssuOf s st).window with
    | none => exact strayEdge_eq st s
    | some w =>
      dsimp only
      split
      · exact queueEdge_eq st e w s
      · exact strayEdge_eq st s
  · exact (settleStation_same st s).symm

/-- What a read of the row does of the station in a column. -/
def columnReading (row : Fin 8) (columns : Byte) (s : State) (column : Fin 8) : SsuStation × List Instr :=
  reading s.psv s.tmb.fineTime s.ssu.adopting (crossing row column) (rawLevel columns column) (ssuOf s (crossing row column))

theorem readStation_eq (row : Fin 8) (columns : Byte) (column : Fin 8) (s : State) :
    readStation row columns column s = settleStation (crossing row column) (columnReading row columns s column) s := by
  unfold readStation columnReading reading now
  dsimp only
  split
  · exact (sendAll_nil _).symm
  · cases ((ssuOf s (crossing row column)).read s.psv.rig.debounceScans (rawLevel columns column) s.tmb.fineTime).2 with
    | none => exact (sendAll_nil _).symm
    | some e =>
      dsimp only
      rw [disposeEdge_eq, settleStation_setSsu, ssuOf_setSsu, setSsu_psv]

/-! ## The eight columns -/

theorem ssuOf_settleStation (st : Station) (r : SsuStation × List Instr) (s : State) : ssuOf (settleStation st r s) st = r.1 :=
  ssuOf_setSsu s st r.1

theorem ssuOf_settleStation_other {st other : Station} (h : st ≠ other) (r : SsuStation × List Instr) (s : State) :
    ssuOf (settleStation st r s) other = ssuOf s other := ssuOf_setSsu_other s r.1 h

/-- A reading of one column leaves the reading of another as it would have been. -/
theorem columnReading_settleStation {row a b : Fin 8} (h : a ≠ b) (columns : Byte) (r : SsuStation × List Instr) (s : State) :
    columnReading row columns (settleStation (crossing row a) r s) b = columnReading row columns s b := by
  unfold columnReading
  rw [ssuOf_settleStation_other fun hc => h (crossing_inj hc)]
  rfl

/-- What the reads of some columns have changed. -/
structure ReadOf (row : Fin 8) (columns : Byte) (cs : List (Fin 8)) (s t : State) : Prop where
  rest : t = { s with ssu := { s.ssu with stations := t.ssu.stations }, mail := t.mail }
  station : ∀ c ∈ cs, ssuOf t (crossing row c) = (columnReading row columns s c).1
  other : ∀ st, (∀ c ∈ cs, crossing row c ≠ st) → ssuOf t st = ssuOf s st
  mail : t.mail = s.mail ++ cs.flatMap fun c => (columnReading row columns s c).2

theorem ReadOf.refl (row : Fin 8) (columns : Byte) (s : State) : ReadOf row columns [] s s :=
  ⟨rfl, nofun, fun _ _ => rfl, (List.append_nil _).symm⟩

/-- The read of one more column, before the others. -/
theorem ReadOf.cons {row c : Fin 8} {columns : Byte} {cs : List (Fin 8)} {s t : State} (hc : c ∉ cs)
    (h : ReadOf row columns cs (settleStation (crossing row c) (columnReading row columns s c) s) t) :
    ReadOf row columns (c :: cs) s t := by
  obtain ⟨hrest, hstation, hother, hmail⟩ := h
  have hne {d : Fin 8} (hd : d ∈ cs) : c ≠ d := fun he => hc (he ▸ hd)
  have hreading {d : Fin 8} (hd : d ∈ cs) := columnReading_settleStation (row := row) (hne hd) columns
    (columnReading row columns s c) s
  refine ⟨hrest, fun d hd => ?_, fun st hst => ?_, ?_⟩
  · obtain rfl | hd := List.mem_cons.mp hd
    · rw [hother _ fun e he hcross => hne he (crossing_inj hcross).symm, ssuOf_settleStation]
    · rw [hstation d hd, hreading hd]
  · rw [hother st fun d hd => hst d (List.mem_cons_of_mem _ hd),
      ssuOf_settleStation_other (hst c List.mem_cons_self)]
  · have hflat : cs.flatMap (fun d => (columnReading row columns (settleStation (crossing row c)
        (columnReading row columns s c) s) d).2) = cs.flatMap fun d => (columnReading row columns s d).2 :=
      List.flatMap_congr fun d hd => by rw [hreading hd]
    rw [hmail, hflat, List.flatMap_cons, ← List.append_assoc]
    rfl

theorem readOf_fold (row : Fin 8) (columns : Byte) : ∀ (cs : List (Fin 8)) (s : State), cs.Nodup →
    ReadOf row columns cs s (cs.foldl (fun t c => readStation row columns c t) s)
  | [], s, _ => ReadOf.refl row columns s
  | c :: cs, s, h => by
    obtain ⟨hc, hcs⟩ := List.nodup_cons.mp h
    rw [List.foldl_cons, readStation_eq]
    exact ReadOf.cons hc (readOf_fold row columns cs _ hcs)

theorem readOf_readColumns (row : Fin 8) (columns : Byte) (s : State) :
    ReadOf row columns (List.finRange 8) s (readColumns row columns s) :=
  readOf_fold row columns _ s (List.nodup_finRange 8)

/-- A station of another row is not read. -/
theorem ssuOf_readColumns_other (columns : Byte) (s : State) {row : Fin 8} {st : Station} (h : st.1 / 8 ≠ row.1) :
    ssuOf (readColumns row columns s) st = ssuOf s st :=
  (readOf_readColumns row columns s).other st fun c _ hc => h (hc ▸ crossing_row row c)

theorem ssuOf_readColumns (row column : Fin 8) (columns : Byte) (s : State) :
    ssuOf (readColumns row columns s) (crossing row column) = (columnReading row columns s column).1 :=
  (readOf_readColumns row columns s).station column (List.mem_finRange column)

/-! ## The row that comes next -/

/-- What the end of the scan leaves of a station: its run is abandoned where the scan was ending (R34). -/
def SsuStation.afterRow (scan : ScanMode) (u : SsuStation) : SsuStation := if scan = .ending then { u with run := 0 } else u

/-- What a row read leaves of the unit beside its stations. -/
structure RowLeft (row : Fin 8) (idle : Bool) (s t : State) : Prop where
  rest : t = { s with ssu := t.ssu }
  station : ∀ st, ssuOf t st = (ssuOf s st).afterRow s.ssu.scan
  scan : s.ssu.scan ≠ .stopped → t.ssu.scan = if s.ssu.scan = .ending then .stopped else .running
  view : t.ssu.view = s.ssu.view
  inner : ∀ h : row.1 + 1 < 8, t.ssu.position = .row ⟨row.1 + 1, h⟩ ∧ t.ssu.adopting = s.ssu.adopting
    ∧ t.ssu.rowTime = s.ssu.rowTime
  last : row.1 = 7 → t.ssu.position = (if idle then .idle else .row 0) ∧ t.ssu.adopting = false
    ∧ t.ssu.rowTime = s.psv.rig.rowTime

theorem nextRow_of_inner {row : Fin 8} (h : row.1 + 1 < 8) (idle : Bool) (s : State) :
    nextRow row idle s = { s with ssu := { s.ssu with position := .row ⟨row.1 + 1, h⟩ } } := dif_pos h

theorem nextRow_of_last {row : Fin 8} (h : row.1 = 7) (idle : Bool) (s : State) :
    nextRow row idle s = { s with ssu := { s.ssu with
      position := if idle then .idle else .row 0, adopting := false, rowTime := s.psv.rig.rowTime } } := dif_neg (by omega)

/-- The scan goes on where it was not ending. -/
theorem rowLeft_of_running (row : Fin 8) (idle : Bool) {s : State} (h : s.ssu.scan ≠ .ending) :
    RowLeft row idle s (nextRow row idle s) := by
  have hscan (hs : s.ssu.scan ≠ .stopped) : s.ssu.scan = if s.ssu.scan = .ending then .stopped else .running := by
    cases hmode : s.ssu.scan <;> simp_all
  have hstation (u : SsuStation) : u = u.afterRow s.ssu.scan := (if_neg h).symm
  by_cases hinner : row.1 + 1 < 8
  · rw [nextRow_of_inner hinner]
    exact ⟨rfl, fun _ => hstation _, hscan, rfl, fun _ => ⟨rfl, rfl, rfl⟩, fun h => absurd h (by omega)⟩
  · rw [nextRow_of_last (by omega)]
    exact ⟨rfl, fun _ => hstation _, hscan, rfl, fun h => absurd h hinner, fun _ => ⟨rfl, rfl, rfl⟩⟩

theorem ssuOf_stopScan (s : State) (st : Station) : ssuOf (stopScan s) st = { ssuOf s st with run := 0 } :=
  ssuOf_mapSsu _ _ _

/-- The end of the scan changes the mode and the runs alone. -/
theorem stopScan_ssu (s : State) : (stopScan s).ssu =
    { s.ssu with stations := mapAll s.ssu.stations fun u => { u with run := 0 }, scan := .stopped } := rfl

/-- An ending scan stops with the row, and every run is abandoned. -/
theorem rowLeft_of_ending (row : Fin 8) (idle : Bool) {s : State} (h : s.ssu.scan = .ending) :
    RowLeft row idle s (stopScan (nextRow row idle s)) := by
  have hscan : ScanMode.stopped = if s.ssu.scan = .ending then .stopped else .running := (if_pos h).symm
  have hstation (u : SsuStation) : { u with run := 0 } = u.afterRow s.ssu.scan := (if_pos h).symm
  by_cases hinner : row.1 + 1 < 8
  · rw [nextRow_of_inner hinner]
    refine ⟨rfl, fun st => ?_, fun _ => ?_, ?_, fun _ => ?_, fun h => absurd h (by omega)⟩
    · rw [ssuOf_stopScan, hstation]
      rfl
    · rw [stopScan_ssu, ← hscan]
    · rw [stopScan_ssu]
    · simp only [stopScan_ssu, and_self]
  · rw [nextRow_of_last (by omega)]
    refine ⟨rfl, fun st => ?_, fun _ => ?_, ?_, fun h => absurd h hinner, fun _ => ?_⟩
    · rw [ssuOf_stopScan, hstation]
      rfl
    · rw [stopScan_ssu, ← hscan]
    · rw [stopScan_ssu]
    · simp only [stopScan_ssu, and_self]

/-- A row read is the read of its columns and what it leaves behind. -/
theorem rowLeft_readRow (row : Fin 8) (columns : Byte) (idle : Bool) (s : State) :
    RowLeft row idle (readColumns row columns s) (readRow row columns idle s) := by
  have hscan : (readColumns row columns s).ssu.scan = s.ssu.scan := by
    rw [(readOf_readColumns row columns s).rest]
  unfold readRow
  dsimp only
  split
  · rename_i hending
    exact rowLeft_of_ending row idle (hscan.trans hending)
  · rename_i hending
    exact rowLeft_of_running row idle fun h => hending (hscan.symm.trans h)

/-! ## ROW_READ -/

/-- The phase of the self-check after the row: the scans that count begin behind the one in progress (R171). -/
def BenchPhase.afterRow (row : Fin 8) : BenchPhase → BenchPhase
  | .matrixPass false reads last => .matrixPass (decide (row.1 = 7)) reads last
  | p => p

theorem scanEnded_eq (row : Fin 8) (s : State) :
    scanEnded row s = { s with psv := { s.psv with benchPhase := s.psv.benchPhase.afterRow row } } := by
  unfold scanEnded
  split
  · rename_i reads last hphase
    rw [hphase]
    split
    · rename_i hrow
      rw [BenchPhase.afterRow, hrow]
      rfl
    · rename_i hrow
      have hne : row.1 ≠ 7 := fun h => hrow (Fin.ext h)
      rw [BenchPhase.afterRow, decide_eq_false hne, ← hphase]
  · rename_i hphase
    have hsame : s.psv.benchPhase.afterRow row = s.psv.benchPhase := by
      unfold BenchPhase.afterRow
      split
      · exact absurd (by assumption) (hphase _ _)
      · rfl
    rw [hsame]

theorem takeRowRead_of_stopped {s : State} (h : s.ssu.scan = .stopped) (columns : Byte) : takeRowRead columns s = s :=
  if_pos h

theorem takeRowRead_of_row {s : State} {row : Fin 8} (h : s.ssu.scan ≠ .stopped) (hrow : s.ssu.position = .row row)
    (columns : Byte) : takeRowRead columns s = scanEnded row (readRow row columns (idleNext s) s) := by
  unfold takeRowRead
  rw [if_neg h, hrow]

/-- What a read of a row leads to (R17 to R22, R34). -/
theorem rowRead_leadsTo {s : State} {row : Fin 8} (columns : Byte) (hacting : acting s = true) (hscan : s.ssu.scan ≠ .stopped)
    (hrow : s.ssu.position = .row row) :
    ∃ u, leadsTo (.rowRead columns) s u
      ∧ u = { s with ssu := u.ssu, psv := { s.psv with benchPhase := s.psv.benchPhase.afterRow row }
                     mail := s.mail ++ (List.finRange 8).flatMap fun c => (columnReading row columns s c).2 }
      ∧ (∀ column, ssuOf u (crossing row column) = (columnReading row columns s column).1.afterRow s.ssu.scan)
      ∧ (∀ st : Station, st.1 / 8 ≠ row.1 → ssuOf u st = (ssuOf s st).afterRow s.ssu.scan)
      ∧ u.ssu.scan = (if s.ssu.scan = .ending then .stopped else .running) ∧ u.ssu.view = s.ssu.view
      ∧ (∀ h : row.1 + 1 < 8, u.ssu.position = .row ⟨row.1 + 1, h⟩ ∧ u.ssu.adopting = s.ssu.adopting
          ∧ u.ssu.rowTime = s.ssu.rowTime)
      ∧ (row.1 = 7 → u.ssu.position = (if idleNext s then .idle else .row 0) ∧ u.ssu.adopting = false
          ∧ u.ssu.rowTime = s.psv.rig.rowTime) := by
  obtain ⟨hread, -, -, hmail⟩ := readOf_readColumns row columns s
  obtain ⟨hrest, hstation, hscanned, hview, hinner, hlast⟩ := rowLeft_readRow row columns (idleNext s) s
  have hmode : (readColumns row columns s).ssu.scan = s.ssu.scan := by rw [hread]
  have hrowTime : (readColumns row columns s).ssu.rowTime = s.ssu.rowTime := by rw [hread]
  have hadopting : (readColumns row columns s).ssu.adopting = s.ssu.adopting := by rw [hread]
  have hunitView : (readColumns row columns s).ssu.view = s.ssu.view := by rw [hread]
  have hpsv : (readColumns row columns s).psv = s.psv := by rw [hread]
  rw [hmode] at hscanned
  rw [hmode] at hstation
  rw [hunitView] at hview
  rw [hadopting, hrowTime] at hinner
  rw [hpsv] at hlast
  refine ⟨_, leadsTo_of_whileActing (exec_rowRead columns s) hacting
    ((takeRowRead_of_row hscan hrow columns).trans (scanEnded_eq row _)), ?_, fun column => ?_, fun st hst => ?_,
    hscanned hscan, hview, hinner, hlast⟩
  · rw [hrest, hread, hmail]
  · exact (hstation _).trans (by rw [ssuOf_readColumns])
  · exact (hstation _).trans (by rw [ssuOf_readColumns_other columns s hst])

/-- What the read of one station of the row does by itself, once the scan has adopted. -/
theorem readStation_of_adopted {s : State} (h : s.ssu.adopting = false) (row : Fin 8) (columns : Byte) (column : Fin 8) :
    readStation row columns column s =
      let found := (ssuOf s (crossing row column)).read s.psv.rig.debounceScans (rawLevel columns column) (now s)
      match found.2 with
      | none => setSsu s (crossing row column) found.1
      | some e => disposeEdge (crossing row column) e (setSsu s (crossing row column) found.1) := by
  unfold readStation
  rw [h]
  rfl

theorem next_of_idleNext (s : State) : (if idleNext s then ScanPosition.idle else .row 0) =
    match s.psv.benchPhase with
      | .matrixPass true _ _ => .idle
      | _ => .row 0 := by
  unfold idleNext
  split <;> simp_all

/-- Settles O20. -/
theorem rowReadAdoptsTheRow : Obligations.RowReadAdoptsTheRow := by
  constructor
  · intro s columns hacting
    refine ⟨fun hstopped => leadsTo_of_whileActing (exec_rowRead columns s) hacting (takeRowRead_of_stopped hstopped columns),
      ?_⟩
    intro row hscan hrow hadopting left phase next
    obtain ⟨u, hleads, hu, hread, hother, hscanned, hview, hinner, hlast⟩ := rowRead_leadsTo columns hacting hscan hrow
    have hcolumn (c : Fin 8) : columnReading row columns s c = ((ssuOf s (crossing row c)).adopt (rawLevel columns c), []) := by
      unfold columnReading reading
      rw [if_pos hadopting]
    have hmail : (List.finRange 8).flatMap (fun c => (columnReading row columns s c).2) = [] := by
      simp only [hcolumn, List.flatMap_eq_nil_iff, implies_true]
    refine ⟨u, hleads, ?_, fun column => ?_, fun st hst => hother st hst, hscanned, hview, fun h => ?_, fun h => ?_⟩
    · rw [hmail, List.append_nil] at hu
      exact hu
    · rw [hread, hcolumn, SsuStation.afterRow]
      split <;> rfl
    · rw [← hadopting]
      exact hinner h
    · rw [next_of_idleNext] at hlast
      exact hlast h
  · intro s columns row hacting hscan hrow hadopting found alone left phase next
    obtain ⟨u, hleads, hu, hread, hother, hscanned, hview, hinner, hlast⟩ := rowRead_leadsTo columns hacting hscan hrow
    have halone (c : Fin 8) : alone c = settleStation (crossing row c) (columnReading row columns s c) { s with mail := [] } :=
      (readStation_of_adopted (s := { s with mail := [] }) hadopting row columns c).symm.trans (readStation_eq row columns c _)
    have hstation (c : Fin 8) : ssuOf (alone c) (crossing row c) = (columnReading row columns s c).1 := by
      rw [halone, ssuOf_settleStation]
    have hsent (c : Fin 8) : (alone c).mail = (columnReading row columns s c).2 := by
      rw [halone]
      exact List.nil_append _
    refine ⟨u, hleads, ?_, fun column => ?_, fun st hst => hother st hst, ?_, hscanned, hview, ?_, fun h => ?_, fun h => ?_⟩
    · rw [hu]
      rfl
    · rw [hread, hstation]
      rfl
    · rw [hu]
      simp only [hsent]
    · by_cases h : row.1 + 1 < 8
      · exact (hinner h).2.1.trans hadopting
      · exact (hlast (by omega)).2.1
    · exact ⟨(hinner h).1, (hinner h).2.2⟩
    · rw [next_of_idleNext] at hlast
      exact ⟨(hlast h).1, (hlast h).2.2⟩

end Sys2Proof.Machine
end

section
/-! PROOF. The other channel commands, the end of a ramp and the coil tests (03 R36, R38 to R41, R44, R45). -/

namespace Sys2Proof.Machine

open Sys2Proof

/-! ## Commands taken or ignored (R40, R41) -/

theorem takesChannel_of_refused {s : State} {st : Station} (h : (s.vdu.view ≠ .run ∧ s.vdu.view ≠ .stopping)
    ∨ s.psv.rig.fitted.getLsbD st.1 = false ∨ (channelOf s st).coilFault = true) : takesChannel s st = false := by
  obtain ⟨hrun, hstopping⟩ | hfitted | hfault := h
  · have hdrives : drives s.vdu.view = false := by
      rw [Bool.eq_false_iff, Ne, drives_iff]
      exact not_or.mpr ⟨hrun, hstopping⟩
    simp [takesChannel, hdrives]
  · have hnot : fitted s st = false := hfitted
    simp [takesChannel, hnot]
  · simp [takesChannel, hfault]

theorem takeWake_of_taken {s : State} (hview : s.vdu.view = .run ∨ s.vdu.view = .stopping)
    (hstate : s.psv.state = .run ∨ s.psv.state = .stopping) :
    takeWake s = { s with vdu := { s.vdu with quiet := false } } := by
  simp [takeWake, drives_iff.mpr hview, drives_iff.mpr hstate]

theorem takeWake_of_refused {s : State} (h : (s.vdu.view ≠ .run ∧ s.vdu.view ≠ .stopping)
    ∨ (s.psv.state ≠ .run ∧ s.psv.state ≠ .stopping)) : takeWake s = s := by
  refine if_neg ?_
  simp only [Bool.and_eq_true, drives_iff]
  tauto

/-- Settles O22. -/
theorem valveCommandsAtOnceOrIgnored : Obligations.ValveCommandsAtOnceOrIgnored := by
  constructor
  · intro s st hacting
    refine ⟨fun hrefused => ?_, fun hrefused => ?_⟩
    · have hno : takesChannel s st = false := takesChannel_of_refused hrefused
      have hne : ¬ takesChannel s st = true := Bool.eq_false_iff.mp hno
      exact ⟨leadsTo_of_taking (exec_openValve st s) hacting (if_neg hne),
        leadsTo_of_taking (exec_closeValve st s) hacting (if_neg hne),
        leadsTo_of_taking (exec_restValve st s) hacting (if_neg hne)⟩
    · exact leadsTo_of_taking (exec_wake s) hacting (takeWake_of_refused (by exact hrefused))
  · intro s st c target
    refine ⟨fun htakes => ?_, fun hacting => ?_, fun hacting => ?_, fun hacting hview hstate => ?_⟩
    · exact leadsTo_of_taking (exec_restValve st s) htakes.1 (if_pos (takesChannel_of_takesCommands htakes))
    · exact leadsTo_of_taking (exec_offValve st s) hacting rfl
    · exact leadsTo_of_taking (exec_faultReset st s) hacting rfl
    · exact leadsTo_of_taking (exec_wake s) hacting (takeWake_of_taken (by exact hview) (by exact hstate))

/-! ## CLOSE (R38) -/

/-- Where the unit takes commands for the channel, CLOSE acts on that channel alone (R38, R40). -/
theorem closeValve_leadsTo {s : State} {st : Station} (h : takesCommands s st) :
    leadsTo (.closeValve st) s (setChannel (took (.closeValve st) s) st
      ((channelOf s st).commandClose s.psv.rig (restTarget s) s.tmb.fineTime)) :=
  leadsTo_of_taking (exec_closeValve st s) h.1 (if_pos (takesChannel_of_takesCommands h))

section
variable {c : Channel} {rig : RigValues} {target : Nat} {at_ : Word}

theorem commandClose_of_idle_or_closing (h : c.state = .idle ∨ c.state = .closing) :
    c.commandClose rig target at_ = c := by
  unfold Channel.commandClose
  rcases h with h | h <;> rw [h]

theorem commandClose_of_opening_below (h : c.state = .opening) (hlevel : c.present at_ ≤ target) :
    c.commandClose rig target at_ = c.stand .idle target := by
  unfold Channel.commandClose
  rw [h]
  exact if_neg (Nat.not_lt.mpr hlevel)

theorem commandClose_of_above (h : c.state = .opened ∨ (c.state = .opening ∧ target < c.present at_)) :
    c.commandClose rig target at_ = c.fall rig target at_ := by
  unfold Channel.commandClose
  obtain h | ⟨h, hlevel⟩ := h
  · rw [h]
  · rw [h]
    exact if_pos hlevel

/-- A fall that takes time begins at the present level (R36). -/
theorem fall_of_duration_ne_zero (h : rampDuration rig.fallRamp (c.present at_ - target) rig.onLevel ≠ 0) :
    c.fall rig target at_ = { c with
      state := .closing, level := c.present at_, target := target
      ramp := some ⟨c.present at_, at_, rampDuration rig.fallRamp (c.present at_ - target) rig.onLevel⟩ } := if_neg h

/-- A fall of duration 0 is over at once (R36). -/
theorem fall_of_duration_zero (h : rampDuration rig.fallRamp (c.present at_ - target) rig.onLevel = 0) :
    c.fall rig target at_ = c.stand .idle target := if_pos h

end

/-- Settles O24. -/
theorem closeLowersTheChannel : Obligations.CloseLowersTheChannel := by
  intro s st htakes c target a d t stands
  have hclose : leadsTo (.closeValve st) s (setChannel t st (c.commandClose s.psv.rig target s.tmb.fineTime)) :=
    closeValve_leadsTo htakes
  refine ⟨fun hpump hstate => ?_, fun hstate hlevel => ?_, fun hstate hd => ?_, fun hstate hd => ?_⟩
  · rw [commandClose_of_idle_or_closing hstate] at hclose
    have hsame : setChannel t st (channelOf s st) = t :=
      setChannel_channelOf (s := t) (pumpExact_of_vdu (took_vdu _ _) hpump) st
    rwa [hsame] at hclose
  · rw [commandClose_of_opening_below hstate hlevel] at hclose
    exact hclose
  · rw [commandClose_of_above hstate, fall_of_duration_zero hd] at hclose
    exact hclose
  · rw [commandClose_of_above hstate, fall_of_duration_ne_zero hd] at hclose
    exact hclose

/-! ## Ramps (R36) -/

theorem endRamp_of_ramp {c : Channel} {r : Ramp} (h : c.ramp = some r) :
    c.endRamp = c.stand (if c.state = .opening then .opened else .idle) c.target := by
  simp [Channel.endRamp, h]

theorem present_of_no_ramp {c : Channel} (h : c.ramp = none) (at_ : Word) : c.present at_ = c.level := by
  simp [Channel.present, h]

theorem present_of_ended {c : Channel} {r : Ramp} {at_ : Word} (h : c.ramp = some r)
    (hended : r.duration ≤ since at_ r.start) : c.present at_ = c.target := by
  simp [Channel.present, h, hended]

theorem present_of_going {c : Channel} {r : Ramp} {at_ : Word} (h : c.ramp = some r)
    (hgoing : since at_ r.start < r.duration) :
    c.present at_ = levelBetween r.level c.target (since at_ r.start) r.duration := by
  simp [Channel.present, h, Nat.not_le.mpr hgoing]

/-- A part of a distance is at most the distance. -/
theorem part_le {distance elapsed duration : Nat} (h : elapsed ≤ duration) : distance * elapsed / duration ≤ distance :=
  Nat.div_le_of_le_mul (by rw [Nat.mul_comm duration]; exact Nat.mul_le_mul_left _ h)

theorem levelBetween_rising {start target elapsed duration : Nat} (h : start ≤ target) :
    levelBetween start target elapsed duration = start + (target - start) * elapsed / duration := if_pos h

theorem levelBetween_falling {start target elapsed duration : Nat} (h : target < start) :
    levelBetween start target elapsed duration = start - (start - target) * elapsed / duration :=
  if_neg (Nat.not_le.mpr h)

/-- The level on the way never passes the target or falls behind the start. -/
theorem levelBetween_bounds (start target : Nat) {elapsed duration : Nat} (h : elapsed ≤ duration) :
    min start target ≤ levelBetween start target elapsed duration
      ∧ levelBetween start target elapsed duration ≤ max start target := by
  obtain hfall | hrise := Nat.lt_or_ge target start
  · have hpart := part_le (distance := start - target) h
    rw [levelBetween_falling hfall, min_eq_right hfall.le, max_eq_left hfall.le]
    generalize (start - target) * elapsed / duration = part at hpart ⊢
    omega
  · have hpart := part_le (distance := target - start) h
    rw [levelBetween_rising hrise, min_eq_left hrise, max_eq_right hrise]
    generalize (target - start) * elapsed / duration = part at hpart ⊢
    omega

theorem present_bounds {c : Channel} {r : Ramp} (h : c.ramp = some r) (at_ : Word) :
    min r.level c.target ≤ c.present at_ ∧ c.present at_ ≤ max r.level c.target := by
  obtain hgoing | hended := Nat.lt_or_ge (since at_ r.start) r.duration
  · rw [present_of_going h hgoing]
    exact levelBetween_bounds _ _ hgoing.le
  · rw [present_of_ended h hended]
    exact ⟨Nat.min_le_right _ _, Nat.le_max_right _ _⟩

/-! ## Coil tests (R44) -/

section
variable {s : State} {st : Station} {current : Nat}

theorem testCoil_of_level_zero (h : (channelOf s st).present (now s) = 0) :
    testCoil st current s = setChannel s st { channelOf s st with testRun := 0 } := if_pos h

theorem testCoil_of_passed (h : 0 < (channelOf s st).present (now s))
    (hpass : (channelOf s st).present (now s) ≤ 4 * current) :
    testCoil st current s = setChannel s st { channelOf s st with testRun := 0 } :=
  (if_neg h.ne').trans (if_neg (by simpa [coilTestFails] using hpass))

theorem testCoil_of_failed (hfail : 4 * current < (channelOf s st).present (now s)) :
    testCoil st current s = if (channelOf s st).testRun = 0 then setChannel s st { channelOf s st with testRun := 1 }
      else judgeCoilOpen st s :=
  (if_neg (Nat.ne_zero_of_lt hfail)).trans (if_pos (by simpa [coilTestFails] using hfail))

end

/-- Settles O25. -/
theorem rampsEndAndCoilsAreJudged : Obligations.RampsEndAndCoilsAreJudged := by
  refine ⟨⟨?_, fun c at_ h => present_of_no_ramp h at_, ?_⟩, ?_⟩
  · intro s st r hacting hramp c
    refine leadsTo_of_whileActing (exec_rampEnd st s) hacting ?_
    rw [endRamp, endRamp_of_ramp hramp]
    rfl
  · intro c r at_ hramp elapsed
    obtain ⟨hlow, hhigh⟩ := present_bounds hramp at_
    exact ⟨hlow, hhigh, fun h => present_of_ended hramp h,
      fun h hrise => (present_of_going hramp h).trans (levelBetween_rising hrise),
      fun h hfall => (present_of_going hramp h).trans (levelBetween_falling hfall)⟩
  · intro s st current hacting c level
    have hleads {t : State} (e : testCoil st current s = t) : leadsTo (.coilTest st current) s t :=
      leadsTo_of_whileActing (exec_coilTest st current s) hacting e
    refine ⟨fun h => hleads (testCoil_of_level_zero h), fun h hpass => hleads (testCoil_of_passed h hpass),
      fun hfail hrun => hleads ((testCoil_of_failed hfail).trans (if_pos hrun)),
      fun hfail hrun => hleads ((testCoil_of_failed hfail).trans (if_neg hrun))⟩

end Sys2Proof.Machine
end

section
/-! PROOF. A block takes the notice of a part state, unless it has been overtaken (09 R162, R172; 10 R174). -/

namespace Sys2Proof.Machine

open Sys2Proof

/-! ## Notices overtaken -/

theorem overtaken_iff (b : Block) (p : PartState) (s : State) : overtaken b p s = true ↔
    s.psv.state = .halted ∨ (s.psv.state = .powerDown ∧ p ≠ .powerDown ∧ b ≠ .vdu) := by
  unfold overtaken
  cases hst : s.psv.state <;> simp

/-- A notice that has been overtaken changes no block. -/
theorem partStateNotice_of_overtaken {s : State} {b : Block} {p : PartState} (hacting : acting s = true)
    (h : overtaken b p s = true) : leadsTo (.partStateNotice b p) s (took (.partStateNotice b p) s) :=
  leadsTo_of_taking (exec_partStateNotice b p s) hacting (if_pos h)

/-- A notice that has not been overtaken is taken by its block. -/
theorem partStateNotice_leadsTo {s t : State} {b : Block} {p : PartState} (hacting : acting s = true)
    (h : ¬ overtaken b p s = true) (e : blockEnters b p (took (.partStateNotice b p) s) = t) :
    leadsTo (.partStateNotice b p) s t :=
  leadsTo_of_taking (exec_partStateNotice b p s) hacting ((if_neg h).trans e)

/-! ## The Valve Drive Unit (03 R40) -/

theorem vduEnters_of_drives {p : PartState} (h : drives p = true) (s : State) :
    vduEnters p s = { s with vdu := { s.vdu with view := p } } := if_pos h

theorem vduEnters_of_not_drives {p : PartState} (h : drives p = false) (s : State) :
    vduEnters p s = allChannelsOff { s with vdu := { s.vdu with view := p } } := if_neg (by simp [h])

theorem channelOf_allChannelsOff (s : State) (st : Station) : channelOf (allChannelsOff s) st =
    { channelOf s st with state := .idle, level := 0, target := 0, ramp := none, testRun := 0 } :=
  by rw [allChannelsOff, channelOf_mapChannels]; rfl

theorem allChannelsOff_rest (s : State) : allChannelsOff s = { s with vdu := (allChannelsOff s).vdu } := rfl

theorem allChannelsOff_view (s : State) : (allChannelsOff s).vdu.view = s.vdu.view := by
  simp [allChannelsOff, Vdu.withChannels]

theorem allChannelsOff_quiet (s : State) : (allChannelsOff s).vdu.quiet = s.vdu.quiet := by
  simp [allChannelsOff, Vdu.withChannels]

/-- No channel at rest needs the pump. -/
theorem pumpEnable_mapChannels_of_idle {f : Channel → Channel} (hf : ∀ c, (f c).needsPump = false) (s : State) :
    (mapChannels f s).vdu.pumpEnable = false := by
  simp only [mapChannels_vdu, Vdu.withChannels, anyOf_false_iff, mapAll_get, hf, implies_true]

/-! ## The Stroke Sensing Unit (02 R34) -/

theorem ssuEnters_of_going_on {p : PartState} {s : State} (hhalted : p ≠ .halted)
    (h : p ≠ .powerDown ∨ s.ssu.scan = .ending) : ssuEnters p s = { s with ssu := { s.ssu with view := p } } := by
  unfold ssuEnters
  cases p <;> simp_all

theorem ssuEnters_powerDown {s : State} (h : s.ssu.scan ≠ .ending) :
    ssuEnters .powerDown s = stopScan { s with ssu := { s.ssu with view := .powerDown } } := if_neg h

theorem ssuEnters_halted (s : State) : ssuEnters .halted s =
    mapSsu SsuStation.stopped { s with ssu := { s.ssu with view := .halted, scan := .stopped } } := rfl

/-! ## The Level Bus Poller (05 R86, R97) -/

theorem levelEnters_of_polls {p : PartState} (h : polls p = true) (s : State) :
    levelEnters p s = { s with lbp := { s.lbp with view := p } } := if_pos h

theorem levelEnters_of_not_polls {p : PartState} (h : polls p = false) (s : State) : levelEnters p s =
    { s with lbp := { s.lbp with view := p, transaction := .idle, lastEnd := none, bus := [], incoming := none } } :=
  if_neg (by simp [h])

/-! ## The Wave Controller (04 R54, 09 R172) -/

/-- The climb takes a state, asking for HOLD where HELD is entered or left (04 R58). -/
theorem setClimb_eq (c : Climb) (s : State) : setClimb c s =
    sendAll (if (s.wvc.climb = .held) = (c = .held) then [] else [.attentionSetRequest .hold])
      { s with wvc := { s.wvc with climb := c } } := by
  unfold setClimb
  dsimp only
  split
  · exact (sendAll_nil _).symm
  · rfl

theorem setClimb_wvc (c : Climb) (s : State) : (setClimb c s).wvc = { s.wvc with climb := c } := by
  rw [setClimb_eq]
  rfl

theorem setClimb_held_mail_of_held {s : State} (h : s.wvc.climb = .held) : (setClimb .held s).mail = s.mail := by
  rw [setClimb_eq, if_pos (by simp [h])]
  exact List.append_nil _

theorem setClimb_held_mail_of_ne {s : State} (h : s.wvc.climb ≠ .held) :
    (setClimb .held s).mail = s.mail ++ [.attentionSetRequest .hold] := by
  rw [setClimb_eq, if_neg (by simp [h])]
  rfl

/-- In a part state without an entry of its own the Wave Controller takes the view alone. -/
theorem waveEnters_of_other {p : PartState} (hrun : p ≠ .run) (hrecovery : p ≠ .recovery) (hhalted : p ≠ .halted)
    (s : State) : waveEnters p s = { s with wvc := { s.wvc with view := p } } := by
  cases p <;> simp_all [waveEnters]

/-- In HALTED the climb is HELD and nothing is in hand. -/
theorem waveEnters_halted_wvc (s : State) : (waveEnters .halted s).wvc = { s.wvc with
    view := .halted, climb := .held, permission := false, driveTimer := none, settleTimer := none, fallTimer := none
    ending := none, drains := [], countsDirty := false, recoveryWindows := [] } := setClimb_wvc _ _

/-! ## The Feed Distributor (07 R126) -/

theorem tryArbiter_of_line_nil {s : State} (h : s.fds.line = []) : tryArbiter s = s := by
  unfold tryArbiter
  split
  · simp [h]
  · rfl

theorem feedEnters_run (s : State) :
    feedEnters .run s = tryArbiter { s with fds := { s.fds with view := .run } } := rfl

theorem feedEnters_of_ne {p : PartState} (h : p ≠ .run) (s : State) :
    feedEnters p s = { s with fds := { s.fds with view := p } } := if_neg h

/-! ## The Exchange Controller (08 R145, R156, R161) -/

/-- The timers are started where they are stopped. -/
theorem startTimers_eq (s : State) : startTimers s = { s with exc := { s.exc with
    scanTimer := if s.exc.scanTimer = none then some s.tmb.fineTime else s.exc.scanTimer
    publishTimer := if s.exc.publishTimer = none then some ⟨s.tmb.fineTime, 1000 * s.psv.rig.publishInterval⟩
      else s.exc.publishTimer } } := by
  unfold startTimers startPublishTimer
  by_cases hscan : s.exc.scanTimer = none
  · by_cases hpublish : s.exc.publishTimer = none
    · simp only [hscan, hpublish, Option.isNone_none, ↓reduceIte]
      rfl
    · have hrunning : s.exc.publishTimer.isNone = false := by simpa [← Option.ne_none_iff_isSome] using hpublish
      simp only [hscan, hpublish, hrunning, Option.isNone_none, Bool.false_eq_true, ↓reduceIte]
      rfl
  · have hrunning : s.exc.scanTimer.isNone = false := by simpa [← Option.ne_none_iff_isSome] using hscan
    by_cases hpublish : s.exc.publishTimer = none
    · simp only [hscan, hpublish, hrunning, Option.isNone_none, Bool.false_eq_true, ↓reduceIte]
      rfl
    · have hgoing : s.exc.publishTimer.isNone = false := by simpa [← Option.ne_none_iff_isSome] using hpublish
      simp only [hscan, hpublish, hrunning, hgoing, Bool.false_eq_true, ↓reduceIte]

theorem exchangeEnters_of_exchanges {p : PartState} (h : exchanges p = true) (s : State) :
    exchangeEnters p s = startTimers { s with exc := { s.exc with view := p } } := if_pos h

theorem exchangeEnters_of_stops {p : PartState} {s : State} (h : exchanges p = false)
    (hview : p ≠ .halted ∨ s.exc.view = .halted) :
    exchangeEnters p s = onExc Exc.stopped { s with exc := { s.exc with view := p } } := by
  refine (if_neg (by simp [h])).trans (if_neg ?_)
  rintro ⟨hp, hne⟩
  exact hview.elim (fun h => h hp) hne

theorem exchangeEnters_halted {s : State} (hview : s.exc.view ≠ .halted) : exchangeEnters .halted s =
    setAttn .fault (onExc Exc.stopped { s with exc := { s.exc with view := .halted } }) := by
  unfold exchangeEnters
  exact (if_neg (by simp [exchanges])).trans (if_pos ⟨rfl, hview⟩)

/-- Settles O26. -/
theorem partStateNoticesSetEachBlock : Obligations.PartStateNoticesSetEachBlock := by
  constructor
  · intro s p hacting vdu ssu lbp late
    have hlate (b : Block) : overtaken b p s = true ↔ late b := overtaken_iff b p s
    refine ⟨fun b h => partStateNotice_of_overtaken hacting ((hlate b).mpr h), fun hvdu => ⟨fun hp => ?_, fun hrun hstop => ?_⟩,
      fun hssu => ?_⟩
    · exact partStateNotice_leadsTo hacting (mt (hlate _).mp hvdu) (vduEnters_of_drives (drives_iff.mpr hp) _)
    · have hdrives : drives p = false := by
        rw [Bool.eq_false_iff, Ne, drives_iff]
        exact not_or.mpr ⟨hrun, hstop⟩
      exact ⟨_, partStateNotice_leadsTo hacting (mt (hlate _).mp hvdu) (vduEnters_of_not_drives hdrives _),
        allChannelsOff_rest _, allChannelsOff_view _, allChannelsOff_quiet _,
        pumpEnable_mapChannels_of_idle (f := fun c => c.stand .idle 0) (fun _ => rfl) _,
        fun st => channelOf_allChannelsOff _ st⟩
    · have hnot (b : Block) (hb : b ≠ .vdu) : ¬ overtaken b p s = true := by
        rw [overtaken_iff]
        rintro (hhalted | ⟨hdown, hp, -⟩)
        · exact hssu (.inl hhalted)
        · exact hssu (.inr ⟨hdown, hp, by decide⟩)
      have hleads {t : State} (e : ssuEnters p (took ssu s) = t) : leadsTo ssu s t :=
        partStateNotice_leadsTo hacting (hnot .ssu (by decide)) e
      refine ⟨fun hpower hhalted => hleads (ssuEnters_of_going_on hhalted (.inl hpower)), fun hp hending => ?_,
        fun hp hending => ?_, fun hp => ?_, fun hp => ?_, fun hp => ?_⟩
      · exact hleads (ssuEnters_of_going_on (by rw [hp]; decide) (.inr hending))
      · subst hp
        exact ⟨_, hleads (ssuEnters_powerDown (by exact hending)), rfl, by rw [stopScan_ssu], by rw [stopScan_ssu],
          fun st => ssuOf_stopScan _ st⟩
      · subst hp
        exact ⟨_, hleads (ssuEnters_halted _), rfl, by rw [mapSsu_ssu], by rw [mapSsu_ssu],
          fun st => ssuOf_mapSsu SsuStation.stopped _ st⟩
      · exact partStateNotice_leadsTo hacting (hnot .lbp (by decide)) (levelEnters_of_polls (polls_iff.mpr hp) _)
      · have hpolls : polls p = false := by obtain rfl | rfl | rfl := hp <;> rfl
        exact partStateNotice_leadsTo hacting (hnot .lbp (by decide)) (levelEnters_of_not_polls hpolls _)
  · intro s p hacting hhalted hdown wvc ltr fds exc active
    have hnot (b : Block) : ¬ overtaken b p s = true := by
      rw [overtaken_iff]
      rintro (h | ⟨h, hp, -⟩)
      · exact hhalted h
      · exact hp (hdown h)
    have hwvc {t : State} (e : waveEnters p (took wvc s) = t) : leadsTo wvc s t := partStateNotice_leadsTo hacting (hnot _) e
    have hfds {t : State} (e : feedEnters p (took fds s) = t) : leadsTo fds s t := partStateNotice_leadsTo hacting (hnot _) e
    have hexc {t : State} (e : exchangeEnters p (took exc s) = t) : leadsTo exc s t :=
      partStateNotice_leadsTo hacting (hnot _) e
    refine ⟨fun hp => hwvc (by rw [hp]; rfl), fun hp => hwvc (by rw [hp]; rfl), fun hp => ?_,
      fun hrun hrecovery hne => hwvc (waveEnters_of_other hrun hrecovery hne _),
      partStateNotice_leadsTo hacting (hnot _) rfl, fun hp => hfds (by rw [hp]; rfl), fun hp => ?_, fun hp => ?_, fun hp => ?_,
      fun hp hview => ?_, partStateNotice_leadsTo hacting (hnot _) rfl⟩
    · subst hp
      have hw := waveEnters_halted_wvc (took wvc s)
      refine ⟨_, hwvc rfl, by rw [hw], by rw [hw], by rw [hw]; rfl, by rw [hw], by rw [hw], by rw [hw], by rw [hw],
        fun hheld => ?_, fun hne => ?_⟩
      · exact setClimb_held_mail_of_held (by exact hheld)
      · exact setClimb_held_mail_of_ne (by exact hne)
    · by_cases hrun : p = .run
      · subst hrun
        have hline : s.fds.line = [] := hp.resolve_left (fun h => h rfl)
        exact hfds ((feedEnters_run _).trans (tryArbiter_of_line_nil hline))
      · exact hfds (feedEnters_of_ne hrun _)
    · exact hexc ((exchangeEnters_of_exchanges (exchanges_iff.mpr hp) _).trans (startTimers_eq _))
    · have hstops : exchanges p = false := by obtain rfl | rfl | ⟨rfl, -⟩ := hp <;> rfl
      have hview : p ≠ .halted ∨ s.exc.view = .halted := by
        obtain rfl | rfl | ⟨-, hview⟩ := hp
        · exact .inl (by decide)
        · exact .inl (by decide)
        · exact .inr hview
      exact hexc (exchangeEnters_of_stops hstops hview)
    · subst hp
      exact hexc (exchangeEnters_halted hview)

end Sys2Proof.Machine
end

section
/-! SUPPORT. An operation done at every index of a list, where each does its own part of the state alone and the messages
follow one another. -/

namespace Sys2Proof.Machine

open Sys2Proof

/-- An operation that changes what is read at its own index alone, and sends messages of its own. What it leaves and what it
sends, `out`, rests on nothing that the operation at another index changes. -/
structure ActsAlone {ι ρ : Type} (get : State → ι → ρ) (op : ι → State → State) (out : State → ι → ρ × List Instr) : Prop where
  same : ∀ i s, get (op i s) i = (out s i).1
  other : ∀ i j s, i ≠ j → get (op i s) j = get s j
  mail : ∀ i s, (op i s).mail = s.mail ++ (out s i).2
  apart : ∀ i j s, i ≠ j → out (op i s) j = out s j

/-- What such an operation has changed at every index of a list. -/
structure DoneAt {ι ρ : Type} (get : State → ι → ρ) (out : State → ι → ρ × List Instr) (is : List ι) (s t : State) : Prop where
  done : ∀ i ∈ is, get t i = (out s i).1
  left : ∀ i, i ∉ is → get t i = get s i
  mail : t.mail = s.mail ++ is.flatMap fun i => (out s i).2

theorem ActsAlone.doneAt {ι ρ : Type} {get : State → ι → ρ} {op : ι → State → State} {out : State → ι → ρ × List Instr}
    (h : ActsAlone get op out) : ∀ (is : List ι) (s : State), is.Nodup →
      DoneAt get out is s (is.foldl (fun t i => op i t) s)
  | [], s, _ => ⟨nofun, fun _ _ => rfl, (List.append_nil _).symm⟩
  | i :: is, s, hnodup => by
    obtain ⟨hi, his⟩ := List.nodup_cons.mp hnodup
    obtain ⟨hdone, hleft, hmail⟩ := h.doneAt is (op i s) his
    have hne {j : ι} (hj : j ∈ is) : i ≠ j := fun he => hi (he ▸ hj)
    refine ⟨fun j hj => ?_, fun j hj => ?_, ?_⟩
    · obtain rfl | hj := List.mem_cons.mp hj
      · exact (hleft j hi).trans (h.same j s)
      · exact (hdone j hj).trans (by rw [h.apart i j s (hne hj)])
    · obtain ⟨hij, hj⟩ := not_or.mp (mt List.mem_cons.mpr hj)
      exact (hleft j hj).trans (h.other i j s (Ne.symm hij))
    · have hflat : is.flatMap (fun j => (out (op i s) j).2) = is.flatMap fun j => (out s j).2 :=
        List.flatMap_congr fun j hj => by rw [h.apart i j s (hne hj)]
      exact hmail.trans (by rw [hflat, h.mail i s, List.append_assoc, List.flatMap_cons])

/-- One message for each element of a list that is chosen twice over. -/
theorem flatMap_filter_single {ι : Type} (p q : ι → Bool) (c : ι → Instr) (l : List ι) :
    ((l.filter p).flatMap fun i => if q i then [c i] else []) = (l.filter fun i => p i && q i).map c := by
  induction l with
  | nil => rfl
  | cons i l ih => cases hp : p i <;> cases hq : q i <;> simp [hp, hq, ih]

end Sys2Proof.Machine
end

section
/-! PROOF. A site second advances, and the blocks are told (01 R11; 04 R56, 06 R112, 07 R126). -/

namespace Sys2Proof.Machine

open Sys2Proof

/-! ## The advance -/

theorem benchSecond_of_uncounted {s : State} (hstore : s.psv.benchPhase ≠ .storePass)
    (hclock : ∀ n k, s.psv.benchPhase ≠ .clockPass n k) : benchSecond s = s := by
  unfold benchSecond
  split
  · exact absurd (by assumption) hstore
  · exact absurd (by assumption) (hclock _ _)
  · rfl

theorem siteSecondAdvance_of_not_acting {s : State} (h : acting s = false) :
    exec .siteSecondAdvance s = .next (advanceSecond s) := by
  rw [exec_siteSecondAdvance, if_neg (by simp [h])]

theorem siteSecondAdvance_leadsTo {s : State} (h : acting s = true) :
    leadsTo .siteSecondAdvance s (noticeSecond (advanceSecond s)) := by
  unfold leadsTo
  rw [exec_siteSecondAdvance, if_pos h]

/-! ## The Wave Controller (04 R56) -/

theorem beginEvaluation_of_free {s : State} (h : s.wvc.permission = false) : beginEvaluation s =
    send .risePermissionRequest { s with wvc := { s.wvc with permission := true } } := if_neg (by simp [h])

theorem beginEvaluation_of_begun {s : State} (h : s.wvc.permission = true) : beginEvaluation s = s := if_pos h

theorem directiveHolds_iff (s : State) :
    directiveHolds s = true ↔ s.wvc.values.runRequest = .hold ∨ s.wvc.values.riseRate = 0 := by
  simp [directiveHolds]

theorem mayClimb_iff (s : State) : mayClimb s = true ↔ s.wvc.view = .run ∧ s.psv.state = .run := by
  simp [mayClimb]

/-! ## The Layer Tracker (06 R112) -/

/-- A sector event is set, and asked attention for where it was clear (06 R113). -/
theorem addSectorEvents_eq (k : Sector) (events : BitVec 4) (s : State) : addSectorEvents k events s =
    sendAll (if s.ltr.events[k] ||| events = s.ltr.events[k] then [] else [.attentionSetRequest .event])
      (onLtr (fun l => { l with events := put l.events k (l.events[k] ||| events) }) s) := by
  unfold addSectorEvents
  dsimp only
  split
  · rename_i hsame
    rw [sendAll_nil, onLtr, hsame, put_get_self]
  · rfl

theorem or_coldJoint_eq_iff (e : BitVec 4) : e ||| evColdJoint = e ↔ e.getLsbD 0 = true := by
  revert e
  decide

/-- What the report of a cold joint leaves of its sector, and what it sends. -/
def jointReport (s : State) (k : Sector) : (List Layer × BitVec 4) × List Instr :=
  ((mapLast Layer.reportJoint (stackOf s k), s.ltr.events[k] ||| evColdJoint),
    if !(s.ltr.events[k]).getLsbD 0 then [.attentionSetRequest .event] else [])

/-- A sector's stack and events. -/
def stackAndEvents (s : State) (k : Sector) : List Layer × BitVec 4 := (stackOf s k, s.ltr.events[k])

/-- The tracker after a report in one sector. -/
theorem reportJoint_eq (k : Sector) (s : State) : reportJoint k s =
    sendAll (jointReport s k).2 { s with ltr := { s.ltr with
      stack := put s.ltr.stack k (mapLast Layer.reportJoint (stackOf s k))
      events := put s.ltr.events k (s.ltr.events[k] ||| evColdJoint) } } := by
  have hsent : (if s.ltr.events[k] ||| evColdJoint = s.ltr.events[k] then [] else [Instr.attentionSetRequest .event]) =
      (jointReport s k).2 := by
    unfold jointReport
    simp only [or_coldJoint_eq_iff]
    cases (s.ltr.events[k]).getLsbD 0 <;> rfl
  rw [reportJoint, addSectorEvents_eq, ← hsent]
  rfl

theorem reportJoint_actsAlone : ActsAlone stackAndEvents reportJoint jointReport where
  same k s := by
    rw [reportJoint_eq]
    exact Prod.ext (put_same _ _ _) (put_same _ _ _)
  other k j s h := by
    rw [reportJoint_eq]
    exact Prod.ext (put_other _ _ h) (put_other _ _ h)
  mail k s := by rw [reportJoint_eq, sendAll_mail]
  apart k j s h := by
    have hstack : stackOf (reportJoint k s) j = stackOf s j := by
      rw [reportJoint_eq]
      exact put_other _ _ h
    have hevents : (reportJoint k s).ltr.events[j] = s.ltr.events[j] := by
      rw [reportJoint_eq]
      exact put_other _ _ h
    unfold jointReport
    rw [hstack, hevents]

/-- Reports change stacks, events and messages alone. -/
theorem forSectors_reportJoint_rest (ks : List Sector) (s : State) : ∃ stack events mail,
    forSectors ks reportJoint s = { s with ltr := { s.ltr with stack := stack, events := events }, mail := mail } := by
  induction ks generalizing s with
  | nil => exact ⟨_, _, _, rfl⟩
  | cons k ks ih =>
    obtain ⟨stack, events, mail, h⟩ := ih (reportJoint k s)
    exact ⟨stack, events, mail, h.trans (by rw [reportJoint_eq]; rfl)⟩

/-- The report of a due sector marks its top layer. -/
theorem mapLast_append_single (f : Layer → Layer) (ls : List Layer) (l : Layer) : mapLast f (ls ++ [l]) = ls ++ [f l] := by
  induction ls with
  | nil => rfl
  | cons x xs ih =>
    cases xs with
    | nil => rfl
    | cons y ys => exact congrArg (x :: ·) ih

/-- A sector is due where its top layer is concrete, has stood its class's time and is not reported. -/
theorem jointDue_iff (s : State) (k : Sector) : jointDue s k = true ↔ ∃ below l x, stackOf s k = below ++ [l]
    ∧ l.kind = .concrete x ∧ x.jointReported = false ∧ (s.psv.rig.mixes[x.mix]).maxOpen ≤ (s.tmb.siteSeconds - x.placed).toNat := by
  constructor
  · intro h
    unfold jointDue topConcrete at h
    cases htop : (stackOf s k).getLast? with
    | none => simp [htop] at h
    | some l =>
      obtain ⟨below, hbelow⟩ := List.getLast?_eq_some_iff.mp htop
      cases hkind : l.kind with
      | gap => simp [htop, Layer.concrete?, hkind] at h
      | concrete x =>
        simp only [htop, Layer.concrete?, hkind, Option.bind_some, Bool.and_eq_true, decide_eq_true_iff,
          Bool.not_eq_true'] at h
        exact ⟨below, l, x, hbelow, hkind, h.2, h.1⟩
  · rintro ⟨below, l, x, hstack, hkind, hnot, hage⟩
    have hopen : (s.psv.rig.mixes[x.mix]).maxOpen ≤ openAge s x := hage
    have htop : topConcrete s k = some x := by simp [topConcrete, hstack, Layer.concrete?, hkind]
    simp only [jointDue, htop, hnot, decide_eq_true hopen, Bool.not_false, Bool.and_self]

theorem watches_iff (p : PartState) : watches p = true ↔ ¬(p = .bench ∨ p = .powerDown ∨ p = .halted) := by
  cases p <;> simp [watches]

theorem layerSecond_of_watching {s : State} (hview : watches s.ltr.view = true) (hstate : watches s.psv.state = true) :
    layerSecond s = forSectors ((usedSectors s).filter (jointDue s)) reportJoint s := by
  simp [layerSecond, hview, hstate]

theorem layerSecond_of_still {s : State} (h : watches s.ltr.view = false ∨ watches s.psv.state = false) :
    layerSecond s = s := by
  obtain h | h := h <;> simp [layerSecond, h]

theorem mem_usedSectors (s : State) (k : Sector) : k ∈ usedSectors s ↔ used s k = true := by
  simp [usedSectors, allSectors]

theorem nodup_usedSectors (s : State) : (usedSectors s).Nodup := (List.nodup_finRange 16).filter _

/-- The sectors that the watch reports. -/
def reported (s : State) (k : Sector) : Bool := used s k && jointDue s k

theorem filter_usedSectors (s : State) : (usedSectors s).filter (jointDue s) = allSectors.filter (reported s) := by
  rw [usedSectors, List.filter_filter]
  exact List.filter_congr fun k _ => Bool.and_comm _ _

/-- The cold-joint watch. -/
theorem doneAt_reported (s : State) :
    DoneAt stackAndEvents jointReport (allSectors.filter (reported s)) s (forSectors (allSectors.filter (reported s)) reportJoint s) :=
  reportJoint_actsAlone.doneAt _ s ((List.nodup_finRange 16).filter _)

theorem mem_reported (s : State) (k : Sector) : k ∈ allSectors.filter (reported s) ↔ reported s k = true := by
  simp [allSectors]

/-- Settles O27. -/
theorem siteSecondsAdvanceAndAreNoticed : Obligations.SiteSecondsAdvanceAndAreNoticed := by
  constructor
  · intro s
    refine ⟨fun hnot => siteSecondAdvance_of_not_acting hnot, fun hacting hstore hclock => ?_⟩
    have hleads := siteSecondAdvance_leadsTo hacting
    rwa [noticeSecond, benchSecond_of_uncounted (by exact hstore) (by exact hclock)] at hleads
  · intro s hacting wvc ltr fds holding evaluates still due
    have hevaluates : evaluates ↔
        (mayClimb s = true ∧ (s.wvc.climb = .held ∨ (s.wvc.climb = .dwell ∧ directiveHolds s = true))) := by
      rw [mayClimb_iff, directiveHolds_iff, and_assoc]
    have hwvc {t : State} (e : waveSecond (took wvc s) = t) : leadsTo wvc s t :=
      leadsTo_of_taking (exec_siteSecondNotice .wvc s) hacting e
    have hltr {t : State} (e : layerSecond (took ltr s) = t) : leadsTo ltr s t :=
      leadsTo_of_taking (exec_siteSecondNotice .ltr s) hacting e
    refine ⟨fun heval hfree => ?_, fun hnot => ?_, fun hview hstate => ?_, fun hstill => ?_, fun hview => ?_⟩
    · exact hwvc ((if_pos (hevaluates.mp heval)).trans (beginEvaluation_of_free (by exact hfree)))
    · by_cases heval : evaluates
      · have hbegun : s.wvc.permission = true := hnot.resolve_left fun h => h heval
        exact hwvc ((if_pos (hevaluates.mp heval)).trans (beginEvaluation_of_begun (by exact hbegun)))
      · exact hwvc (if_neg (mt hevaluates.mpr heval))
    · have hdue (k : Sector) : due k = reported s k := by
        refine congrArg (used s k && ·) ?_
        unfold jointDue topConcrete
        cases (stackOf s k).getLast? with
        | none => rfl
        | some l =>
          obtain ⟨-, -, kind⟩ := l
          cases kind with
          | gap => rfl
          | concrete x => exact Bool.and_comm _ _
      have hwatch : layerSecond (took ltr s) = forSectors (allSectors.filter (reported (took ltr s))) reportJoint (took ltr s) :=
        (layerSecond_of_watching (s := took ltr s) ((watches_iff s.ltr.view).mpr hview) ((watches_iff s.psv.state).mpr hstate)).trans
          (by rw [filter_usedSectors])
      obtain ⟨hdone, hleft, hmail⟩ := doneAt_reported (took ltr s)
      obtain ⟨stack, events, mail, hrest⟩ := forSectors_reportJoint_rest (allSectors.filter (reported (took ltr s))) (took ltr s)
      have hread (k : Sector) (h : reported s k = true) := hdone k ((mem_reported _ k).mpr h)
      refine ⟨_, hltr hwatch, by rw [hrest], by rw [hrest]; rfl, fun k => ⟨fun hk => ?_, fun hk => ?_⟩, ?_⟩
      · rw [hdue] at hk
        obtain ⟨hstack, hevents⟩ := Prod.ext_iff.mp (hread k hk)
        obtain ⟨below, l, x, hbelow, hkind, -, -⟩ := (jointDue_iff s k).mp (Bool.and_eq_true_iff.mp hk).2
        refine ⟨below, l, x, hbelow, hkind, hstack.trans ?_, hevents⟩
        change mapLast Layer.reportJoint (stackOf s k) = _
        rw [hbelow, mapLast_append_single, Layer.reportJoint, hkind]
      · rw [hdue] at hk
        have hnot : k ∉ allSectors.filter (reported (took ltr s)) := fun h => by
          have hrep : reported s k = true := (mem_reported _ k).mp h
          simp [hk] at hrep
        exact Prod.ext_iff.mp (hleft k hnot)
      · refine hmail.trans ?_
        simp only [hdue]
        exact congrArg (s.mail.erase ltr ++ ·) (flatMap_filter_single (reported s) (fun k => !(s.ltr.events[k]).getLsbD 0)
          (fun _ => .attentionSetRequest .event) allSectors)
    · refine hltr (layerSecond_of_still ?_)
      simp only [Bool.eq_false_iff, Ne, watches_iff, not_not]
      exact hstill
    · exact leadsTo_of_taking (exec_siteSecondNotice .fds s) hacting (if_neg hview)

end Sys2Proof.Machine
end

section
/-! PROOF. STOPPING ends and the power-down actions are complete (09 R166; 10 R173, R174), and the bench self-check
(09 R171). -/

namespace Sys2Proof.Machine

open Sys2Proof

/-! ## STOPPING (R166) -/

theorem endStopping_of_missing {s : State} (h : s.psv.waveEnded = false ∨ s.psv.feedStopped = false) :
    endStopping s = s := by
  obtain h | h := h <;> simp [endStopping, h]

theorem endStopping_of_both {s : State} (hwave : s.psv.waveEnded = true) (hfeed : s.psv.feedStopped = true) :
    endStopping s = enterState .config s := by
  simp [endStopping, hwave, hfeed]

theorem takeWaveEnded_of_stopping {s : State} (h : s.psv.state = .stopping) :
    takeWaveEnded s = endStopping (onPsv (fun q => { q with waveEnded := true }) s) := if_pos h

theorem takeWaveEnded_of_ne {s : State} (h : s.psv.state ≠ .stopping) : takeWaveEnded s = s := if_neg h

theorem takeFeedStopped_of_stopping {s : State} (h : s.psv.state = .stopping) :
    takeFeedStopped s = endStopping (onPsv (fun q => { q with feedStopped := true }) s) := if_pos h

/-! ## The power-down actions (R174) -/

theorem inActions_iff (s : State) : inActions s = true ↔ s.psv.state = .powerDown ∧ s.psv.monitor = .actions := by
  simp [inActions]

theorem takeWaveDone_of_inActions {s : State} (h : inActions s = true) :
    takeWaveDone s = judgeActions .powerDownActionsDone (onPsv (fun q => { q with waveDone := true }) s) := if_pos h

theorem takeFeedStopped_of_inActions {s : State} (h : inActions s = true) :
    takeFeedStopped s = judgeActions .feedStopped (onPsv (fun q => { q with feedDone := true }) s) := by
  obtain ⟨hstate, -⟩ := (inActions_iff s).mp h
  exact (if_neg (by rw [hstate]; decide)).trans (if_pos h)

theorem takeFeedStopped_of_neither {s : State} (hstate : s.psv.state ≠ .stopping) (h : inActions s = false) :
    takeFeedStopped s = s := (if_neg hstate).trans (if_neg (by simp [h]))

section
variable {s : State} {report : Instr}

theorem judgeActions_of_missing (h : s.psv.waveDone = false ∨ s.psv.feedDone = false) : judgeActions report s = s := by
  obtain h | h := h <;> simp [judgeActions, h]

variable (hwave : s.psv.waveDone = true) (hfeed : s.psv.feedDone = true)

include hwave hfeed

/-- While a message that must arrive first is on its way, the report comes round again behind it. -/
theorem judgeActions_of_waiting (h : settlingWaits s = true) : judgeActions report s = send report s := by
  simp [judgeActions, hwave, hfeed, h]

theorem judgeActions_of_complete (h : settlingWaits s = false) : judgeActions report s = completeActions s := by
  simp [judgeActions, hwave, hfeed, h]

end

theorem completeActions_of_dying {s : State} (h : s.psv.dying = true) : completeActions s = losePower s := if_pos h

/-- The actions are complete and the supply is alive: the monitor waits, and a reset that was put off takes effect. -/
theorem completeActions_of_alive {s : State} (h : s.psv.dying = false) : completeActions s =
    takeDeferredReset { s with psv := { s.psv with
      monitor := .wait, goodTimer := if s.psv.supplyGood then some s.tmb.fineTime else none } } := if_neg (by simp [h])

theorem takeDeferredReset_of_none {s : State} (h : s.psv.deferredReset = none) : takeDeferredReset s = s := by
  simp [takeDeferredReset, h]

/-- A report that completes the actions while the supply is alive and no reset has been put off. -/
theorem completeActions_waits {s : State} (hwave : s.psv.waveDone = true) (hfeed : s.psv.feedDone = true)
    (hdying : s.psv.dying = false) (hreset : s.psv.deferredReset = none) : completeActions s = { s with psv := { s.psv with
      monitor := .wait, waveDone := true, feedDone := true
      goodTimer := if s.psv.supplyGood then some s.tmb.fineTime else none } } := by
  rw [completeActions_of_alive hdying, takeDeferredReset_of_none (by exact hreset)]
  simp only [hwave, hfeed]

/-- What a part without power has kept. -/
theorem losePower_kept (s : State) : (losePower s).power = .off ∧ (losePower s).psv.jobMark = s.psv.jobMark
    ∧ (losePower s).psv.rig = s.psv.rig ∧ (losePower s).wvc.table = s.wvc.table ∧ (losePower s).ltr.stack = s.ltr.stack
    ∧ (losePower s).fds.records = s.fds.records ∧ (losePower s).tmb = s.tmb ∧ (losePower s).window = s.window :=
  ⟨rfl, rfl, rfl, rfl, rfl, rfl, rfl, rfl⟩

/-- Settles O30. -/
theorem stopAndPowerDownReportsComplete : Obligations.StopAndPowerDownReportsComplete := by
  constructor
  · intro s hacting config
    have hended {t : State} (e : takeWaveEnded (took .waveEnded s) = t) : leadsTo .waveEnded s t :=
      leadsTo_of_taking (exec_waveEnded s) hacting e
    have hstopped {t : State} (e : takeFeedStopped (took .feedStopped s) = t) : leadsTo .feedStopped s t :=
      leadsTo_of_taking (exec_feedStopped s) hacting e
    refine ⟨fun hst => ⟨fun h => ?_, fun h => ?_, fun h => ?_, fun h => ?_⟩, fun hst => ?_, fun hst hno => ?_⟩
    · exact hended ((takeWaveEnded_of_stopping (by exact hst)).trans (endStopping_of_missing (.inr (by exact h))))
    · exact hended ((takeWaveEnded_of_stopping (by exact hst)).trans (endStopping_of_both rfl (by exact h)))
    · exact hstopped ((takeFeedStopped_of_stopping (by exact hst)).trans (endStopping_of_missing (.inl (by exact h))))
    · exact hstopped ((takeFeedStopped_of_stopping (by exact hst)).trans (endStopping_of_both (by exact h) rfl))
    · exact hended (takeWaveEnded_of_ne (by exact hst))
    · exact hstopped (takeFeedStopped_of_neither (by exact hst) (by exact hno))
  · intro s hacting hactions wave waits dies
    have hdies {c : Instr} {u : State} (hu : leadsTo c s (losePower u)) (hjob : u.psv.jobMark = s.psv.jobMark)
        (htable : u.wvc.table = s.wvc.table) (hstack : u.ltr.stack = s.ltr.stack) (hrecords : u.fds.records = s.fds.records)
        (hwindow : u.window = s.window) : dies c := by
      obtain ⟨hoff, hmark, -, htab, hst, hrec, -, hwin⟩ := losePower_kept u
      exact ⟨_, hu, hoff, hmark.trans hjob, htab.trans htable, hst.trans hstack, hrec.trans hrecords, hwin.trans hwindow⟩
    have hwave {t : State} (e : judgeActions wave (onPsv (fun q => { q with waveDone := true }) (took wave s)) = t) :
        leadsTo wave s t :=
      leadsTo_of_taking (exec_powerDownActionsDone s) hacting ((takeWaveDone_of_inActions (by exact hactions)).trans e)
    have hfeed {t : State}
        (e : judgeActions .feedStopped (onPsv (fun q => { q with feedDone := true }) (took .feedStopped s)) = t) :
        leadsTo .feedStopped s t :=
      leadsTo_of_taking (exec_feedStopped s) hacting ((takeFeedStopped_of_inActions (by exact hactions)).trans e)
    refine ⟨fun h => ?_, fun h hwait => ?_, fun h hgone => ⟨fun hdying hreset => ?_, fun hdying => ?_⟩, fun h => ?_,
      fun h hwait => ?_, fun h hgone => ⟨fun hdying hreset => ?_, fun hdying => ?_⟩⟩
    · exact hwave (judgeActions_of_missing (.inr (by exact h)))
    · exact hwave (judgeActions_of_waiting rfl (by exact h) (by exact hwait))
    · exact hwave ((judgeActions_of_complete rfl (by exact h) (by exact hgone)).trans
        (completeActions_waits rfl (by exact h) (by exact hdying) (by exact hreset)))
    · exact hdies (hwave ((judgeActions_of_complete rfl (by exact h) (by exact hgone)).trans
        (completeActions_of_dying (by exact hdying)))) rfl rfl rfl rfl rfl
    · exact hfeed (judgeActions_of_missing (.inl (by exact h)))
    · exact hfeed (judgeActions_of_waiting (by exact h) rfl (by exact hwait))
    · exact hfeed ((judgeActions_of_complete (by exact h) rfl (by exact hgone)).trans
        (completeActions_waits (by exact h) rfl (by exact hdying) (by exact hreset)))
    · exact hdies (hfeed ((judgeActions_of_complete (by exact h) rfl (by exact hgone)).trans
        (completeActions_of_dying (by exact hdying)))) rfl rfl rfl rfl rfl

/-! ## The bench self-check (R171) -/

theorem endLampTest_of_lampTest {s : State} {b : Word} (h : s.psv.benchPhase = .lampTest b) :
    endLampTest s = setPhase .storePass s := by
  simp [endLampTest, h]

theorem endLampTest_of_ne {s : State} (h : ∀ b, s.psv.benchPhase ≠ .lampTest b) : endLampTest s = s := by
  unfold endLampTest
  split
  · exact absurd (by assumption) (h _)
  · rfl

theorem benchSecond_of_storePass {s : State} (h : s.psv.benchPhase = .storePass) :
    benchSecond s = setPhase (.clockPass (now s) 0) s := by
  simp [benchSecond, h]

theorem within_iff {low high x : Nat} : within low high x = true ↔ low ≤ x ∧ x ≤ high := by simp [within]

section
variable {s : State} {noted : Word} {n : Nat} (h : s.psv.benchPhase = .clockPass noted n)

include h

theorem benchSecond_of_counting (hn : n < 9) : benchSecond s = setPhase (.clockPass noted (n + 1)) s := by
  simp only [benchSecond, h]
  exact if_pos (by omega)

theorem benchSecond_of_in_time (hn : 9 ≤ n) (hlow : 9950 ≤ since (now s) noted) (hhigh : since (now s) noted ≤ 10050) :
    benchSecond s = setPhase (.matrixPass false 0 0) s := by
  simp only [benchSecond, h]
  exact (if_neg (by omega)).trans (if_pos (within_iff.mpr ⟨hlow, hhigh⟩))

theorem benchSecond_of_clockFault (hn : 9 ≤ n) (hd : since (now s) noted < 9950 ∨ 10050 < since (now s) noted) :
    benchSecond s = endBench .clockFault s := by
  simp only [benchSecond, h]
  refine (if_neg (by omega)).trans (if_neg ?_)
  rw [within_iff]
  omega

end

theorem takeRowRead_of_idle {s : State} (hscan : s.ssu.scan ≠ .stopped) (hidle : s.ssu.position = .idle) (columns : Byte) :
    takeRowRead columns s = idleRead columns s := by
  simp [takeRowRead, hscan, hidle]

/-- The next scan begins at row 0 after an idle read. -/
def fromRowZero (s : State) : State := { s with ssu := { s.ssu with position := .row 0 } }

section
variable {s : State} {columns last : Byte} {n : Nat} (h : s.psv.benchPhase = .matrixPass true n last)

include h

theorem idleRead_of_conducting (hc : columns &&& last ≠ 0) :
    idleRead columns s = endBench .matrixFault (fromRowZero s) := by
  simp only [idleRead, h]
  exact if_pos hc

theorem idleRead_of_more (hc : columns &&& last = 0) (hn : n < 15) :
    idleRead columns s = setPhase (.matrixPass true (n + 1) columns) (fromRowZero s) := by
  simp only [idleRead, h]
  exact (if_neg (not_not.mpr hc)).trans (if_pos (by omega))

theorem idleRead_of_last (hc : columns &&& last = 0) (hn : 15 ≤ n) :
    idleRead columns s = endBench .pass (fromRowZero s) := by
  simp only [idleRead, h]
  exact (if_neg (not_not.mpr hc)).trans (if_neg (by omega))

end

/-- Settles O32. -/
theorem benchSelfCheckPasses : Obligations.BenchSelfCheckPasses := by
  intro s hacting told second
  have hlamp {t : State} (e : endLampTest s = t) : leadsTo .lampTestExpiry s t :=
    leadsTo_of_whileActing (exec_lampTestExpiry s) hacting e
  have hsecond {t : State} (e : benchSecond (second s.psv) = t) : leadsTo .siteSecondAdvance s t := by
    have hleads := siteSecondAdvance_leadsTo hacting
    rwa [show noticeSecond (advanceSecond s) = t from e] at hleads
  refine ⟨fun b h => hlamp (endLampTest_of_lampTest h), fun h => hlamp (endLampTest_of_ne h),
    fun h => hsecond (benchSecond_of_storePass (by exact h)), ?_, ?_⟩
  · intro noted n h d
    exact ⟨fun hn => hsecond (benchSecond_of_counting (by exact h) hn),
      fun hn hlow hhigh => hsecond (benchSecond_of_in_time (by exact h) hn hlow hhigh),
      fun hn hd => hsecond (benchSecond_of_clockFault (by exact h) hn hd)⟩
  · intro n last columns hscan hidle h ssu
    have hread {t : State} (e : idleRead columns s = t) : leadsTo (.rowRead columns) s t :=
      leadsTo_of_whileActing (exec_rowRead columns s) hacting ((takeRowRead_of_idle hscan hidle columns).trans e)
    exact ⟨fun hc => hread (idleRead_of_conducting h hc), fun hc hn => hread (idleRead_of_more h hc hn),
      fun hc hn => hread (idleRead_of_last h hc hn)⟩

end Sys2Proof.Machine
end

section
/-! PROOF. START on a page that passes (09 R165; 01 R1, R9). -/

namespace Sys2Proof.Machine

open Sys2Proof

/-! ## The page and the snapshot -/

theorem snapshotRefuses_none {s : State} {v : RigValues}
    (h : s.psv.jobMark = true → ∀ old, s.psv.snapshot = some old → changedField old v = none) :
    snapshotRefuses s v = none := by
  unfold snapshotRefuses
  split
  · rename_i hjob
    exact Option.bind_eq_none_iff.mpr fun old hold => h hjob old hold
  · rfl

theorem snapshotRefuses_some {s : State} {v : RigValues} {old : Snapshot} {f : Nat} (hjob : s.psv.jobMark = true)
    (hold : s.psv.snapshot = some old) (h : changedField old v = some f) : snapshotRefuses s v = some f := by
  simp [snapshotRefuses, hjob, hold, h]

theorem startInConfig_of_bad {s : State} {f : Nat} (h : badRigField (rigPage s.window) = some f) :
    startInConfig s = refuseStart .rigInvalid f s := by
  simp [startInConfig, h]

theorem startInConfig_of_changed {s : State} {f : Nat} (h : badRigField (rigPage s.window) = none)
    (hchanged : snapshotRefuses s (rigPage s.window) = some f) : startInConfig s = refuseStart .rigChanged f s := by
  simp [startInConfig, h, hchanged]

theorem startInConfig_of_pass {s : State} (h : badRigField (rigPage s.window) = none)
    (hsnapshot : snapshotRefuses s (rigPage s.window) = none) : startInConfig s = acceptStart (rigPage s.window) s := by
  simp [startInConfig, h, hsnapshot]

/-- START in CONFIG leads to what it does of the page. -/
theorem start_leadsTo {s t : State} (hacting : acting s = true) (hfree : s.psv.control.waiting = false)
    (hconfig : s.psv.state = .config) (e : startInConfig s = t) : leadsTo .start s t :=
  leadsTo_of_command (exec_start s) hacting hfree ((takenInConfig_of_config .start _ hconfig).trans e)

/-! ## The page comes into force (01 R1, 05 R86) -/

theorem onPsv_onLbp (f : Psv → Psv) (g : Lbp → Lbp) (s : State) :
    onPsv f (onLbp g s) = { s with lbp := g s.lbp, psv := f s.psv } := rfl

theorem takeRig_eq (v : RigValues) (s : State) :
    takeRig v s = { s with lbp := (takeRig v s).lbp, psv := { s.psv with rig := v } } := by
  unfold takeRig
  by_cases h : v.fitted ≠ s.psv.rig.fitted
  · simp only [if_pos h, refitLevel, onPsv_onLbp]
  · simp only [if_neg h]
    rfl

theorem takeRig_lbp_of_same {v : RigValues} {s : State} (h : s.psv.rig.fitted = v.fitted) : (takeRig v s).lbp = s.lbp := by
  simp [takeRig, h]

theorem takeRig_lbp_of_changed {v : RigValues} {s : State} (h : s.psv.rig.fitted ≠ v.fitted) :
    (takeRig v s).lbp = (refitLevel v.fitted s).lbp := by
  simp [takeRig, Ne.symm h]

/-- START within a job. -/
theorem acceptStart_of_job {v : RigValues} {s : State} (h : s.psv.jobMark = true) : acceptStart v s = { s with
    lbp := (takeRig v s).lbp
    mail := s.mail ++ noticed.map fun b => .partStateNotice b .run
    psv := { s.psv with rig := v, rigCheck := none, state := .run, control := ⟨1, .done, 0, false, false⟩ } } := by
  unfold acceptStart
  rw [h, takeRig_eq]
  rfl

/-- The first START of a job. -/
theorem acceptStart_of_new {v : RigValues} {s : State} (h : s.psv.jobMark = false) : acceptStart v s = { s with
    lbp := (takeRig v s).lbp
    wvc := { s.wvc with table := tabulate fun st => StationRecord.setUp (fittedIn v.fitted st)
                        waveNumber := 0
                        values := { s.wvc.values with trims := ClimbValues.defaults.trims } }
    mail := s.mail ++ .countsChanged :: noticed.map fun b => .partStateNotice b .run
    psv := { s.psv with rig := v, snapshot := some (snapshotOf v), jobMark := true, rigCheck := none, state := .run
                        control := ⟨1, .done, 0, false, false⟩ } } := by
  unfold acceptStart
  rw [h, takeRig_eq, List.append_cons]
  rfl

/-- The poller's rounds over the stations of a mask (05 R86). -/
theorem refitLevel_lbp (mask : BitVec 64) (s : State) : (refitLevel mask s).lbp = { s.lbp with
    pollPosition := none, readings := (refitLevel mask s).lbp.readings, missRuns := (refitLevel mask s).lbp.missRuns
    episodes := (refitLevel mask s).lbp.episodes } := rfl

theorem refitLevel_of_fitted {mask : BitVec 64} {st : Station} (h : fittedIn mask st = true) (s : State) :
    (refitLevel mask s).lbp.readings[st] = s.lbp.readings[st] ∧ (refitLevel mask s).lbp.missRuns[st] = s.lbp.missRuns[st]
      ∧ (refitLevel mask s).lbp.episodes[st] = s.lbp.episodes[st] := by
  refine ⟨(tabulate_get _ _).trans (if_pos h), (tabulate_get _ _).trans (if_pos h), (tabulate_get _ _).trans ?_⟩
  rw [h]
  rfl

theorem refitLevel_of_unfitted {mask : BitVec 64} {st : Station} (h : fittedIn mask st = false) (s : State) :
    (refitLevel mask s).lbp.readings[st] = none ∧ (refitLevel mask s).lbp.missRuns[st] = 0
      ∧ (refitLevel mask s).lbp.episodes[st] = false := by
  have hnot : ¬ fittedIn mask st = true := by simp [h]
  refine ⟨(tabulate_get _ _).trans (if_neg hnot), (tabulate_get _ _).trans (if_neg hnot), (tabulate_get _ _).trans ?_⟩
  rw [h]
  rfl

theorem takeRig_lbp_fitted {v : RigValues} {s : State} (h : s.psv.rig.fitted ≠ v.fitted) :
    (takeRig v s).lbp = { s.lbp with pollPosition := none, readings := (takeRig v s).lbp.readings
                                     missRuns := (takeRig v s).lbp.missRuns, episodes := (takeRig v s).lbp.episodes } := by
  rw [takeRig_lbp_of_changed h]
  exact refitLevel_lbp _ _

/-- Settles O12: an accepted START within a job and one that begins a job, by their equations. -/
theorem startOnAPageThatPasses : Obligations.StartOnAPageThatPasses := by
  intro s hacting hfree hconfig hpage hsnapshot
  have hleads := start_leadsTo hacting hfree hconfig (startInConfig_of_pass hpage (snapshotRefuses_none hsnapshot))
  have hlevel (hchanged : s.psv.rig.fitted ≠ (rigPage s.window).fitted) (st : Station) :
      (fittedIn (rigPage s.window).fitted st = true →
        (takeRig (rigPage s.window) s).lbp.readings[st] = readingOf s st
        ∧ (takeRig (rigPage s.window) s).lbp.missRuns[st] = s.lbp.missRuns[st]
        ∧ (takeRig (rigPage s.window) s).lbp.episodes[st] = s.lbp.episodes[st])
      ∧ (fittedIn (rigPage s.window).fitted st = false →
        (takeRig (rigPage s.window) s).lbp.readings[st] = none
        ∧ (takeRig (rigPage s.window) s).lbp.missRuns[st] = 0
        ∧ (takeRig (rigPage s.window) s).lbp.episodes[st] = false) := by
    rw [takeRig_lbp_of_changed hchanged]
    exact ⟨fun h => refitLevel_of_fitted h s, fun h => refitLevel_of_unfitted h s⟩
  cases hjob : s.psv.jobMark with
  | true =>
    rw [acceptStart_of_job hjob] at hleads
    exact ⟨_, hleads, rfl, rfl, rfl, rfl, hjob, nofun, fun _ => ⟨rfl, rfl, rfl⟩, fun h => takeRig_lbp_of_same h,
      fun h => ⟨takeRig_lbp_fitted h, hlevel h⟩, rfl, rfl, rfl, rfl, rfl, rfl, rfl, rfl, rfl⟩
  | false =>
    rw [acceptStart_of_new hjob] at hleads
    refine ⟨_, hleads, rfl, rfl, rfl, rfl, rfl,
      fun _ => ⟨rfl, fun st => (tabulate_get _ _).trans rfl, rfl, fun st => replicate_get _ _, rfl⟩, nofun,
      fun h => takeRig_lbp_of_same h, fun h => ⟨takeRig_lbp_fitted h, hlevel h⟩, rfl, rfl, rfl, rfl, rfl, rfl, rfl, rfl, rfl⟩

end Sys2Proof.Machine
end

section
/-! PROOF. START on a page that fails (09 R165): the layout of the Rig Page and its checks by value (01 R2 to R9). -/

namespace Sys2Proof.Machine

open Sys2Proof

/-! ## The layout (11, Rig Page) -/

/-- The fitted mask is made of the page's first two words. -/
theorem rigPage_fitted (m : Memory) (st : Station) :
    (rigPage m).fitted.getLsbD st.1 = (readWord m (4 * (st.1 / 32))).getLsbD (st.1 % 32) := by
  change (readWord m 4 ++ readWord m 0).getLsbD st.1 = _
  rw [BitVec.getLsbD_append]
  by_cases h : st.1 < 32
  · have hdiv : st.1 / 32 = 0 := by omega
    have hmod : st.1 % 32 = st.1 := by omega
    simp [h, hdiv, hmod]
  · have hdiv : st.1 / 32 = 1 := by omega
    have hmod : st.1 % 32 = st.1 - 32 := by omega
    simp [h, hdiv, hmod]

theorem rigField_add (m : Memory) (a b : Nat) : rigField m (a + b) = (readWord m (4 * a + 4 * b)).toNat := by
  rw [rigField, Nat.mul_add]

theorem rigPage_areas (m : Memory) (k : Sector) : (rigPage m).areas[k] = (readWord m (0x80 + 4 * k.1)).toNat :=
  (tabulate_get _ _).trans (rigField_add m 32 k.1)

theorem rigPage_mixes (m : Memory) (c : MixClass) : (rigPage m).mixes[c] =
    ⟨(readWord m (0xC0 + 16 * c.1)).toNat, (readWord m (0xC4 + 16 * c.1)).toNat, (readWord m (0xC8 + 16 * c.1)).toNat,
      (readWord m (0xCC + 16 * c.1)).toNat⟩ := by
  have hfield (a : Nat) : rigField m (a + 4 * c.1) = (readWord m (4 * a + 16 * c.1)).toNat := by
    rw [rigField_add]
    congr 2
    omega
  refine (tabulate_get _ _).trans ?_
  rw [hfield, hfield, hfield, hfield]

/-! ## The first field that fails -/

/-- A list of checks in ascending field number. -/
def ascending (checks : List (Nat × Bool)) : Prop := checks.Pairwise fun a b => a.1 < b.1

/-- The field that a list of checks turns away at. -/
def firstFailed (checks : List (Nat × Bool)) : Option Nat := (checks.find? fun c => !c.2).map Prod.fst

/-- The checks of a list as propositions. -/
def asProps (checks : List (Nat × Bool)) : List (Nat × Prop) := checks.map fun c => (c.1, c.2 = true)

theorem firstFailed_eq_none_iff (checks : List (Nat × Bool)) : firstFailed checks = none ↔ ∀ c ∈ checks, c.2 = true := by
  simp [firstFailed]

/-- The field found fails, and each before it passes. -/
theorem firstFailed_eq_some_iff {checks : List (Nat × Bool)} (h : ascending checks) (f : Nat) :
    firstFailed checks = some f ↔ (f, false) ∈ checks ∧ ∀ c ∈ checks, c.1 < f → c.2 = true := by
  constructor
  · intro hfound
    obtain ⟨⟨g, b⟩, hfind, rfl⟩ := Option.map_eq_some_iff.mp hfound
    obtain ⟨hfails, before, after, hsplit, hpass⟩ := List.find?_eq_some_iff_append.mp hfind
    have hb : b = false := by simpa using hfails
    subst hb
    rw [hsplit] at h
    obtain ⟨-, hafter, -⟩ := List.pairwise_append.mp h
    refine ⟨by rw [hsplit]; simp, fun c hc hlt => ?_⟩
    rw [hsplit] at hc
    obtain hc | hc := List.mem_append.mp hc
    · simpa using hpass c hc
    · obtain rfl | hc := List.mem_cons.mp hc
      · exact absurd hlt (Nat.lt_irrefl _)
      · exact absurd hlt (Nat.lt_asymm ((List.pairwise_cons.mp hafter).1 c hc))
  · rintro ⟨hmem, hpass⟩
    cases hfind : firstFailed checks with
    | none => exact absurd ((firstFailed_eq_none_iff checks).mp hfind _ hmem) (by simp)
    | some g =>
      obtain ⟨⟨i, b⟩, hfind', rfl⟩ := Option.map_eq_some_iff.mp hfind
      obtain ⟨hfails, before, after, hsplit, hbefore⟩ := List.find?_eq_some_iff_append.mp hfind'
      have hfailed : (i, b).2 = false := by simpa using hfails
      have hi : (i, b) ∈ checks := by rw [hsplit]; simp
      have hle : ¬ i < f := fun hlt => Bool.eq_false_iff.mp hfailed (hpass _ hi hlt)
      rw [hsplit] at h hmem
      obtain ⟨-, hafter, -⟩ := List.pairwise_append.mp h
      obtain hmem | hmem := List.mem_append.mp hmem
      · exact absurd (hbefore _ hmem) (by simp)
      · obtain he | hmem := List.mem_cons.mp hmem
        · rw [Prod.mk.injEq] at he
          rw [he.1]
        · exact absurd ((List.pairwise_cons.mp hafter).1 _ hmem) hle

/-- The same by propositions. -/
theorem firstFailed_asProps {checks : List (Nat × Bool)} (h : ascending checks) :
    (firstFailed checks = none ↔ ∀ c ∈ asProps checks, c.2)
      ∧ ∀ f, firstFailed checks = some f ↔ ∃ p, (f, p) ∈ asProps checks ∧ ¬p ∧ ∀ c ∈ asProps checks, c.1 < f → c.2 := by
  have hall (q : Nat → Prop) : (∀ c ∈ asProps checks, q c.1 → c.2) ↔ ∀ c ∈ checks, q c.1 → c.2 = true := by
    simp only [asProps, List.forall_mem_map]
  refine ⟨?_, fun f => ?_⟩
  · simp only [firstFailed_eq_none_iff, asProps, List.forall_mem_map]
  · rw [firstFailed_eq_some_iff h, ← hall (· < f)]
    refine ⟨fun ⟨hmem, hpass⟩ => ⟨false = true, List.mem_map.mpr ⟨_, hmem, rfl⟩, Bool.false_ne_true, hpass⟩, ?_⟩
    rintro ⟨p, hmem, hp, hpass⟩
    obtain ⟨⟨g, b⟩, hc, he⟩ := List.mem_map.mp hmem
    obtain ⟨rfl, rfl⟩ := Prod.mk.injEq .. ▸ he
    have hb : b = false := Bool.eq_false_iff.mpr hp
    subst hb
    exact ⟨hc, hpass⟩

/-! ## The Rig Page's checks (01 R2 to R8) -/

theorem ascending_of_fields {checks : List (Nat × Bool)} (h : (checks.map Prod.fst).Pairwise (· < ·)) : ascending checks :=
  List.pairwise_map.mp h

theorem rigChecks_fields (v : RigValues) : (rigChecks v).map Prod.fst =
    List.range' 1 24 ++ List.range' 32 16 ++ List.range' 48 16 := rfl

theorem ascending_rigChecks (v : RigValues) : ascending (rigChecks v) :=
  ascending_of_fields (by rw [rigChecks_fields]; decide)

/-- The fitted stations of a sector. -/
def fittedStationsOf (mask : BitVec 64) (k : Sector) : List Station :=
  allStations.filter fun st => decide (st.1 / 4 = k.1) && mask.getLsbD st.1

theorem stationsOf_eq (k : Sector) : stationsOf k = allStations.filter fun st => decide (st.1 / 4 = k.1) := by
  revert k
  decide

theorem fittedStationsOf_eq (mask : BitVec 64) (k : Sector) :
    fittedStationsOf mask k = (stationsOf k).filter (fittedIn mask) := by
  rw [stationsOf_eq, List.filter_filter]
  exact List.filter_congr fun st _ => Bool.and_comm _ _

theorem usedIn_iff (mask : BitVec 64) (k : Sector) : usedIn mask k = true ↔ fittedStationsOf mask k ≠ [] := by
  rw [fittedStationsOf_eq, usedIn, List.any_eq_true, Ne, List.filter_eq_nil_iff]
  push Not
  rfl

theorem enoughFitted_iff (v : RigValues) : enoughFitted v = true ↔
    ∀ k : Sector, fittedStationsOf v.fitted k ≠ [] → v.minActive ≤ (fittedStationsOf v.fitted k).length := by
  have hone (k : Sector) (enough : Prop) [Decidable enough] :
      (!usedIn v.fitted k || decide enough) = true ↔ (fittedStationsOf v.fitted k ≠ [] → enough) := by
    rw [← usedIn_iff]
    cases usedIn v.fitted k <;> simp
  simp only [enoughFitted, List.all_eq_true, hone, ← fittedStationsOf_eq, allSectors, List.mem_finRange, true_imp_iff]

/-- Fields 1 to 24 by value. -/
theorem asProps_plainChecks (v : RigValues) : asProps (plainChecks v) =
    let range (low high x : Nat) : Prop := low ≤ x ∧ x ≤ high
    [(1, v.fitted ≠ 0), (2, range 20 50 v.strokeLength), (3, range 900 1500 v.formHeight),
     (4, range 50 400 v.targetFill), (5, v.targetFill + 50 ≤ v.maxFill ∧ v.maxFill + 100 ≤ v.formHeight),
     (6, range 50 300 v.minLayer), (7, range 1 4 v.levelBand),
     (8, range 1 4 v.minActive ∧ ∀ k : Sector, fittedStationsOf v.fitted k ≠ [] →
       v.minActive ≤ (fittedStationsOf v.fitted k).length),
     (9, range 2 30 v.driveTimeout), (10, range 2 30 v.settleTimeout), (11, range 1 15 v.strayLimit),
     (12, range 1 4 v.rowTime), (13, range 1 8 v.debounceScans),
     (14, v.riseRamp ≤ 2000 ∧ v.riseRamp % 10 = 0), (15, range 1 255 v.onLevel),
     (16, v.fallRamp ≤ 2000 ∧ v.fallRamp % 10 = 0), (17, v.restLevel ≤ 64 ∧ v.restLevel < v.onLevel),
     (18, range 2 50 v.probeTolerance), (19, range 1 30 v.freshnessLimit), (20, range 2 60 v.probeSettle),
     (21, range 10 300 v.recoveryWindow ∧ v.probeSettle < v.recoveryWindow), (22, v.mergeWindow ≤ 1800),
     (23, range 50 2000 v.maxPortion), (24, range 1 10 v.publishInterval)] := by
  simp only [asProps, plainChecks, List.cons_append, List.nil_append, List.map_cons, List.map_nil, Bool.and_eq_true,
    decide_eq_true_iff, within_iff, Nat.zero_le, true_and, enoughFitted_iff]

/-- The areas of the used sectors by value. -/
theorem asProps_areaChecks (v : RigValues) : asProps (areaChecks v) = allSectors.map fun k : Sector =>
    (32 + k.1, fittedStationsOf v.fitted k ≠ [] → 5 ≤ v.areas[k] ∧ v.areas[k] ≤ 200) := by
  rw [asProps, areaChecks, List.map_map]
  refine List.map_congr_left fun k _ => Prod.ext rfl (propext ?_)
  rw [Function.comp_apply, ← usedIn_iff, ← within_iff]
  cases usedIn v.fitted k <;> simp

/-- The limits of the mix classes by value. -/
theorem asProps_mixChecks (v : RigValues) : asProps ((List.finRange 4).flatMap (mixChecks v)) =
    (List.finRange 4).flatMap fun c : MixClass =>
      [(48 + 4 * c.1, 600 ≤ (v.mixes[c]).minExit ∧ (v.mixes[c]).minExit ≤ 43200),
       (49 + 4 * c.1, 60 ≤ (v.mixes[c]).warnOpen ∧ (v.mixes[c]).warnOpen < (v.mixes[c]).maxOpen),
       (50 + 4 * c.1, 300 ≤ (v.mixes[c]).maxOpen ∧ (v.mixes[c]).maxOpen ≤ 14400),
       (51 + 4 * c.1, 600 ≤ (v.mixes[c]).maxPlacement ∧ (v.mixes[c]).maxPlacement ≤ 14400)] := by
  rw [asProps, List.map_flatMap]
  refine List.flatMap_congr fun c _ => ?_
  simp only [mixChecks, List.map_cons, List.map_nil, Bool.and_eq_true, decide_eq_true_iff, within_iff]

/-! ## The geometry fields (01 R9) -/

/-- The geometry fields with whether each is as it was. -/
def geometryChecks (old : Snapshot) (v : RigValues) : List (Nat × Bool) :=
  [(1, decide (v.fitted = old.fitted)), (2, decide (v.strokeLength = old.strokeLength)),
   (3, decide (v.formHeight = old.formHeight))]
  ++ allSectors.map fun k : Sector => (32 + k.1, !usedIn old.fitted k || decide (v.areas[k] = old.areas[k]))

theorem geometryChecks_fields (old : Snapshot) (v : RigValues) : (geometryChecks old v).map Prod.fst =
    List.range' 1 3 ++ List.range' 32 16 := rfl

theorem ascending_geometryChecks (old : Snapshot) (v : RigValues) : ascending (geometryChecks old v) :=
  ascending_of_fields (by rw [geometryChecks_fields]; decide)

theorem changedField_eq (old : Snapshot) (v : RigValues) : changedField old v = firstFailed (geometryChecks old v) := by
  unfold changedField firstFailed geometryChecks
  by_cases hfitted : v.fitted = old.fitted
  · by_cases hstroke : v.strokeLength = old.strokeLength
    · by_cases hform : v.formHeight = old.formHeight
      · simp [hfitted, hstroke, hform, List.find?_map, Function.comp_def]
      · simp [hfitted, hstroke, hform]
    · simp [hfitted, hstroke]
  · simp [hfitted]

theorem asProps_geometryChecks (old : Snapshot) (v : RigValues) : asProps (geometryChecks old v) =
    [(1, v.fitted = old.fitted), (2, v.strokeLength = old.strokeLength), (3, v.formHeight = old.formHeight)]
    ++ allSectors.map fun k : Sector => (32 + k.1, fittedStationsOf old.fitted k ≠ [] → v.areas[k] = old.areas[k]) := by
  have hareas (k : Sector) : ((!usedIn old.fitted k || decide (v.areas[k] = old.areas[k])) = true) =
      (fittedStationsOf old.fitted k ≠ [] → v.areas[k] = old.areas[k]) := by
    rw [← usedIn_iff]
    cases usedIn old.fitted k <;> simp
  simp only [asProps, geometryChecks, List.cons_append, List.nil_append, List.map_cons, List.map_map, Function.comp_def,
    decide_eq_true_iff, hareas]

/-- Settles O13. -/
theorem startOnAPageThatFailsNamesTheField : Obligations.StartOnAPageThatFailsNamesTheField := by
  refine ⟨?_, ?_, ?_, ?_⟩
  · intro s hacting hfree hconfig
    refine ⟨fun f hbad => start_leadsTo hacting hfree hconfig (startInConfig_of_bad hbad), fun f old hpass hjob hold hchanged => ?_⟩
    exact start_leadsTo hacting hfree hconfig (startInConfig_of_changed hpass (snapshotRefuses_some hjob hold hchanged))
  · intro m v word
    exact ⟨rigPage_fitted m, rfl, rigPage_areas m, rigPage_mixes m⟩
  · intro v f hbad
    obtain ⟨hfails, hpass⟩ := (firstFailed_eq_some_iff (ascending_rigChecks v) f).mp hbad
    exact ⟨hfails, fun g b hmem hlt => hpass (g, b) hmem hlt⟩
  · intro v old fittedOf first rangeOf plain areas limits geometry
    have hchecks : asProps (rigChecks v) = plain ++ areas ++ limits := by
      rw [rigChecks, asProps, List.map_append, List.map_append]
      exact congrArg₂ (· ++ ·) (congrArg₂ (· ++ ·) (asProps_plainChecks v) (asProps_areaChecks v)) (asProps_mixChecks v)
    have hgeometry : asProps (geometryChecks old v) = geometry := asProps_geometryChecks old v
    constructor
    · rw [← hchecks]
      exact firstFailed_asProps (ascending_rigChecks v)
    · rw [← hgeometry, changedField_eq]
      exact firstFailed_asProps (ascending_geometryChecks old v)

end Sys2Proof.Machine
end

section
/-! SUPPORT. What a read of the window finds after the slots have been freed and after a publication has begun (08 R156,
R160; 11 R189). -/

namespace Sys2Proof.Machine

open Sys2Proof

/-! ## Words by their bytes -/

theorem readWord_congr {m n : Memory} {o : Nat} (h : ∀ a, o ≤ a → a < o + 4 → readByte m a = readByte n a) :
    readWord m o = readWord n o := by
  unfold readWord readHalf
  rw [h o (by omega) (by omega), h (o + 1) (by omega) (by omega), h (o + 2) (by omega) (by omega),
    h (o + 2 + 1) (by omega) (by omega)]

theorem readWord_nil (o : Nat) : readWord [] o = 0 := by
  simp only [readWord, readHalf, readByte, Memory.unlisted]
  decide

theorem readWord_eq_zero {m : Memory} {o : Nat} (h : ∀ a, o ≤ a → a < o + 4 → readByte m a = 0) : readWord m o = 0 :=
  (readWord_congr fun a hlow hhigh => h a hlow hhigh).trans (readWord_nil o)

/-! ## The body of the Status Page (11, Status Page) -/

theorem length_recordWords (n : Nat) (ws : List Word) : (recordWords n ws).length = n := by
  simp only [recordWords, List.length_take, List.length_append, List.length_replicate]
  omega

theorem length_flatMap_const {ι : Type} {n : Nat} (f : ι → List Word) (h : ∀ i, (f i).length = n) (l : List ι) :
    (l.flatMap f).length = l.length * n := by
  induction l with
  | nil => simp
  | cons i l ih => rw [List.flatMap_cons, List.length_append, h, ih, List.length_cons, Nat.succ_mul, Nat.add_comm]

theorem length_sectorRecord (s : State) (k : Sector) : (sectorRecord s k).length = 128 := by
  unfold sectorRecord
  split <;> exact length_recordWords _ _

theorem length_statusBody (s : State) : (statusBody s).length = 3135 := by
  unfold statusBody
  rw [List.length_append, List.length_append, length_flatMap_const (stationRecord s) fun st => length_recordWords _ _,
    length_flatMap_const (sectorRecord s) (length_sectorRecord s), rigRecord, length_recordWords]
  rfl

/-! ## The window of a publication (08 R156) -/

section
variable (s : State) (edition : Word)

theorem readByte_publishedWindow_unnamed {a : Nat} (hlow : 0x7100 ≤ a) (hhigh : a < 0x7FFC) :
    readByte (publishedWindow s edition) a = 0 := by
  rw [publishedWindow, readByte_clearBytes, if_pos (by simp only [statusUnnamed, statusTail]; omega)]
  rfl

/-- Outside the unnamed area and the body the head alone is written. -/
theorem readByte_publishedWindow_outside {a : Nat} (h : a < 0x4004 ∨ 0x7FFC ≤ a) :
    readByte (publishedWindow s edition) a = readByte (writeWord s.window statusHead edition) a := by
  rw [publishedWindow, readByte_clearBytes, if_neg (by simp only [statusUnnamed, statusTail]; omega),
    readByte_writeWords_other]
  rw [length_statusBody, statusBodyStart]
  omega

variable {s} (hs : windowCanonical s)

include hs

theorem readByte_publishedWindow_elsewhere {a : Nat} (h : a < 0x4000 ∨ 0x7FFC ≤ a) :
    readByte (publishedWindow s edition) a = readByte s.window a := by
  rw [readByte_publishedWindow_outside s edition (by omega), readByte_writeWord hs, if_neg]
  rw [statusHead]
  omega

theorem readWord_publishedWindow_head : readWord (publishedWindow s edition) 0x4000 = edition := by
  rw [readWord_congr fun a hlow hhigh => readByte_publishedWindow_outside s edition (.inl (by omega))]
  exact readWord_writeWord hs statusHead edition

end

theorem nextEdition_eq (n : Word) : nextEdition n = if n = 0xFFFFFFFF#32 then 1 else n + 1 := by
  have hiff : n + 1 = 0 ↔ n = 0xFFFFFFFF#32 := by
    constructor
    · intro h
      exact BitVec.eq_sub_iff_add_eq.mpr h
    · rintro rfl
      rfl
  unfold nextEdition
  simp only [hiff]

theorem beginPublication_eq (s : State) : beginPublication s = { s with
    exc := { s.exc with statusEdition := nextEdition s.exc.statusEdition
                        publication := some (nextEdition s.exc.statusEdition) }
    window := (beginPublication s).window
    mail := s.mail ++ [.publicationEnd] } := rfl

/-- What is published shows the state with the edition already counted. -/
theorem beginPublication_window (s : State) : (beginPublication s).window =
    publishedWindow (onExc (fun x => { x with statusEdition := nextEdition s.exc.statusEdition
                                              publication := some (nextEdition s.exc.statusEdition) }) s)
      (nextEdition s.exc.statusEdition) := rfl

/-- The window that a publication begins over keeps what stands outside the Status Page, and its tail. -/
theorem readByte_beginPublication {s : State} (hs : windowCanonical s) {a : Nat} (h : a < 0x4000 ∨ 0x7FFC ≤ a) :
    readByte (beginPublication s).window a = readByte s.window a := by
  rw [beginPublication_window]
  exact readByte_publishedWindow_elsewhere _ (s := onExc _ s) hs h

theorem publicationBegun_beginPublication {s t : State} (hedition : t.exc.statusEdition = s.exc.statusEdition)
    (hwindow : windowCanonical s → windowCanonical t) : publicationBegun s (beginPublication t) := by
  have he : nextEdition t.exc.statusEdition =
      if s.exc.statusEdition = 0xFFFFFFFF#32 then 1 else s.exc.statusEdition + 1 := by
    rw [hedition, nextEdition_eq]
  refine ⟨congrArg some he, he, List.mem_append_right _ List.mem_cons_self, fun hs => ⟨?_, fun a hlow hhigh => ?_⟩⟩
  · rw [beginPublication_window, ← he]
    exact readWord_publishedWindow_head _ (s := onExc _ t) (hwindow hs)
  · rw [beginPublication_window]
    exact readByte_publishedWindow_unnamed _ _ hlow hhigh

/-- What has begun is begun still where the exchange stays as it is and no message is lost. -/
theorem publicationBegun_congr {s u v : State} (h : publicationBegun s u) (hexc : v.exc.publication = u.exc.publication)
    (hedition : v.exc.statusEdition = u.exc.statusEdition) (hmail : .publicationEnd ∈ u.mail → .publicationEnd ∈ v.mail)
    (hwindow : v.window = u.window) : publicationBegun s v := by
  obtain ⟨hpublication, hstatus, hend, hwin⟩ := h
  refine ⟨hexc.trans hpublication, hedition.trans hstatus, hmail hend, ?_⟩
  rw [hwindow]
  exact hwin

/-! ## The slots freed (08 R160) -/

theorem readByte_freeSlots (m : Memory) (a : Nat) :
    readByte (freeSlots m) a = if inClearedSlot a = true then 0 else readByte m a := by
  rw [freeSlots, readByte_filter m fun x => !inClearedSlot x]
  cases inClearedSlot a <;> rfl

theorem inClearedSlot_iff (a : Nat) : inClearedSlot a = true ↔
    (0x400 ≤ a ∧ a < 0x600 ∧ ((a - 0x400) % 32 < 4 ∨ 0x14 ≤ (a - 0x400) % 32))
      ∨ (0x800 ≤ a ∧ a < 0x3800 ∧ ((a - 0x800) % 256 < 4 ∨ 0x18 ≤ (a - 0x800) % 256)) := by
  simp [inClearedSlot, and_assoc]

/-- From `s` to `u` the window has its slots freed, but for what the Status Page shows. -/
def slotsFreed (s u : State) : Prop :=
  ∀ a, a < 0x4000 ∨ 0x7FFC ≤ a → readByte u.window a = if inClearedSlot a = true then 0 else readByte s.window a

/-- The controller retains nothing of the exchange. -/
def forgotten (e : Exc) : Prop :=
  (∀ slot : OrderSlot, e.orderImages[slot] = .free) ∧ (∀ slot : BatchSlot, e.batchImages[slot] = .free)
    ∧ e.edition = 0 ∧ e.lastRejected = 0 ∧ e.badField = 0 ∧ e.misuse = none ∧ e.misuseEvent = false ∧ e.directiveBad = false

theorem forgotten_forget (e : Exc) : forgotten e.forget :=
  ⟨fun slot => replicate_get _ slot, fun slot => replicate_get _ slot, rfl, rfl, rfl, rfl, rfl, rfl⟩

theorem exchangeEmptied_of {s u : State} (hexc : forgotten u.exc) (hwindow : windowCanonical s → slotsFreed s u) :
    exchangeEmptied s u := by
  obtain ⟨horders, hbatches, hedition, hrejected, hfield, hmisuse, hevent, hbad⟩ := hexc
  refine ⟨horders, hbatches, hedition, hrejected, hfield, hmisuse, hevent, hbad, fun hs => ?_⟩
  have hfreed := hwindow hs
  have hcleared {a : Nat} (ha : a < 0x4000) (h : inClearedSlot a = true) : readByte u.window a = 0 :=
    (hfreed a (.inl ha)).trans (if_pos h)
  have hkept {a : Nat} (ha : a < 0x4000 ∨ 0x7FFC ≤ a) (h : ¬ inClearedSlot a = true) :
      readByte u.window a = readByte s.window a := (hfreed a ha).trans (if_neg h)
  refine ⟨fun slot => ?_, fun slot => ?_, fun a ha => ?_⟩
  · have hslot := slot.2
    have hword {o : Nat} (ho : o < 4 ∨ 0x14 ≤ o) (hend : o + 4 ≤ 0x20) (haligned : o % 4 = 0) :
        readWord u.window (orderBase slot + o) = 0 :=
      readWord_eq_zero fun a hlow hhigh => by
        unfold orderBase at hlow hhigh
        refine hcleared (by omega) ((inClearedSlot_iff a).mpr (.inl ⟨by omega, by omega, ?_⟩))
        omega
    refine ⟨hword (o := 0) (by omega) (by omega) (by omega), hword (by omega) (by omega) (by omega),
      hword (by omega) (by omega) (by omega), hword (by omega) (by omega) (by omega), fun i hone hfour => ?_⟩
    refine readWord_congr fun a hlow hhigh => ?_
    unfold orderBase at hlow hhigh
    refine hkept (by omega) ?_
    rw [inClearedSlot_iff]
    omega
  · have hslot := slot.2
    refine ⟨readWord_eq_zero fun a hlow hhigh => ?_, fun i hi => readWord_eq_zero fun a hlow hhigh => ?_, fun a hlow hhigh => ?_⟩
    · unfold batchBase at hlow hhigh
      refine hcleared (by omega) ((inClearedSlot_iff a).mpr (.inr ⟨by omega, by omega, ?_⟩))
      omega
    · unfold batchBase at hlow hhigh
      refine hcleared (by omega) ((inClearedSlot_iff a).mpr (.inr ⟨by omega, by omega, ?_⟩))
      omega
    · unfold batchBase
      refine hkept (by omega) ?_
      rw [inClearedSlot_iff]
      omega
  · refine hkept (by omega) ?_
    rw [inClearedSlot_iff]
    omega

end Sys2Proof.Machine
end

section
/-! PROOF. CLEAR empties the part, block by block (09 R167; 08 R160). -/

namespace Sys2Proof.Machine

open Sys2Proof

/-! ## A block clears and reports -/

theorem takeClearNotice_of_halted {s : State} (h : s.psv.state = .halted) (b : Block) : takeClearNotice b s = s := if_pos h

theorem takeClearNotice_of_block {s : State} (h : s.psv.state ≠ .halted) {b : Block} (hb : b ≠ .exc) :
    takeClearNotice b s = send (.clearDone b) (clearBlock b s) := (if_neg h).trans (if_neg hb)

theorem takeClearNotice_of_exchange {s : State} (h : s.psv.state ≠ .halted) :
    takeClearNotice .exc s = clearExchange s := (if_neg h).trans (if_pos rfl)

/-- The stations' stray counts are forgotten. -/
theorem clearStrays_eq (s : State) : clearStrays s =
    { s with ssu := { s.ssu with stations := mapAll s.ssu.stations fun u => { u with strays := 0 } } } := rfl

/-- The channels' states stand, so the pump enable stands too. -/
theorem clearCoilFaults_vdu {s : State} (h : pumpExact s) : clearCoilFaults s =
    { s with vdu := { s.vdu with channels := mapAll s.vdu.channels fun c => { c with coilFault := false, testRun := 0 } } } := by
  have hpump : anyOf (mapAll s.vdu.channels fun c => { c with coilFault := false, testRun := 0 }) Channel.needsPump =
      s.vdu.pumpEnable := by
    rw [show s.vdu.pumpEnable = anyOf s.vdu.channels Channel.needsPump from h, Bool.eq_iff_iff, anyOf_iff, anyOf_iff]
    simp only [mapAll_get]
    rfl
  rw [clearCoilFaults, mapChannels, Vdu.withChannels, hpump]

/-! ## The Exchange Controller -/

theorem clearExchange_of_free {s : State} (h : s.exc.publication = none) : clearExchange s =
    beginPublication (onExc (fun e => { e with clearStage := .publishing }) (onWindow freeSlots (onExc Exc.forget s))) := by
  simp [clearExchange, h]

theorem clearExchange_of_publishing {s : State} (h : s.exc.publication ≠ none) : clearExchange s =
    onExc (fun e => { e with clearStage := .waiting }) (onWindow freeSlots (onExc Exc.forget s)) := by
  have hsome : s.exc.publication.isSome = true := Option.isSome_iff_ne_none.mpr h
  simp [clearExchange, hsome]

theorem slotsFreed_clearExchange {s : State} (hs : windowCanonical s) : slotsFreed s (clearExchange s) := by
  intro a ha
  by_cases h : s.exc.publication = none
  · rw [clearExchange_of_free h, readByte_beginPublication (by exact wf_filter _ hs) ha]
    exact readByte_freeSlots _ _
  · rw [clearExchange_of_publishing h]
    exact readByte_freeSlots _ _

theorem forgotten_clearExchange (s : State) : forgotten (clearExchange s).exc := by
  by_cases h : s.exc.publication = none
  · rw [clearExchange_of_free h, beginPublication_eq]
    exact forgotten_forget s.exc
  · rw [clearExchange_of_publishing h]
    exact forgotten_forget s.exc

/-- A message taken leaves the exchange as it was. -/
theorem exchangeEmptied_clearExchange (c : Instr) (s : State) : exchangeEmptied s (clearExchange (took c s)) :=
  exchangeEmptied_of (forgotten_clearExchange _) fun hs => slotsFreed_clearExchange (s := took c s) hs

theorem clearExchange_rest (s : State) : clearExchange s = { s with
    exc := (clearExchange s).exc, window := (clearExchange s).window, mail := (clearExchange s).mail } :=
  exchangeless_eq (exchangeless_clearExchange s)

/-! ## The end of a publication (08 R156, R157) -/

/-- The count towards PUBLISH touches no publication and no CLEAR. -/
theorem countPublication_eq (s : State) : countPublication s = { s with exc := { s.exc with
    postscaler := (countPublication s).exc.postscaler, attn := (countPublication s).exc.attn
    attnMask := (countPublication s).exc.attnMask, attnLine := (countPublication s).exc.attnLine } } := by
  unfold countPublication
  dsimp only
  by_cases h : s.exc.attnPace ≠ 0 ∧ s.exc.attnPace ≤ s.exc.postscaler + 1
  · simp only [if_pos h]
    rfl
  · simp only [if_neg h]
    rfl

/-- What a publication leaves before what follows it. -/
def publicationOver (edition : Word) (s : State) : State :=
  countPublication (onExc (fun x => { x with publication := none }) (onWindow (fun m => writeWord m statusTail edition) s))

theorem takePublicationEnd_of_some {s : State} {e : Word} (h : s.exc.publication = some e) :
    takePublicationEnd s = afterPublication (publicationOver e s) := by
  simp [takePublicationEnd, h, publicationOver]

theorem publicationOver_kept (e : Word) (s : State) : (publicationOver e s).exc.clearStage = s.exc.clearStage
    ∧ (publicationOver e s).exc.deferred = s.exc.deferred ∧ (publicationOver e s).exc.statusEdition = s.exc.statusEdition := by
  rw [publicationOver, countPublication_eq]
  exact ⟨rfl, rfl, rfl⟩

/-- Behind the CLEAR's own publication the Exchange Controller reports. -/
theorem afterPublication_of_publishing {s : State} (h : s.exc.clearStage = .publishing) (hdeferred : s.exc.deferred = false) :
    afterPublication s = send (.clearDone .exc) (onExc (fun e => { e with clearStage := .none }) s) := by
  simp [afterPublication, h, hdeferred]

/-- Behind a publication in progress the CLEAR's own follows. -/
theorem afterPublication_of_waiting {s : State} (h : s.exc.clearStage = .waiting) :
    afterPublication s = beginPublication (onExc (fun e => { e with clearStage := .publishing }) s) := by
  simp [afterPublication, h]

/-! ## The reports are gathered -/

theorem takeClearDone_of_more {s : State} {b : Block} (h : s.psv.clearing.erase b ≠ []) :
    takeClearDone b s = { s with psv := { s.psv with clearing := s.psv.clearing.erase b } } := if_neg fun hp => h hp.2

theorem takeClearDone_of_last {s : State} {b : Block} (h : s.psv.clearing ≠ []) (hlast : s.psv.clearing.erase b = []) :
    takeClearDone b s = { s with psv := { s.psv with
      clearing := [], control := { s.psv.control with outcome := .done, waiting := false } } } := by
  refine (if_pos ⟨h, hlast⟩).trans ?_
  rw [hlast]
  rfl

theorem takeClearDone_of_none {s : State} (h : s.psv.clearing = []) (b : Block) : takeClearDone b s = s := by
  refine (if_neg fun hp => hp.1 h).trans ?_
  have herase : s.psv.clearing.erase b = s.psv.clearing := by rw [h]; rfl
  rw [herase]
  rfl

/-- Settles O15. -/
theorem clearEmptiesThePartBlockByBlock : Obligations.ClearEmptiesThePartBlockByBlock := by
  refine ⟨?_, ?_, ?_⟩
  · intro s hacting hfree hconfig
    exact leadsTo_of_command (exec_clear s) hacting hfree (takenInConfig_of_config .clear _ hconfig)
  · intro s hacting hhalted done
    have hdone {b : Block} {u : State} (hb : b ≠ .exc) (hmail : (clearBlock b (took (.clearNotice b) s)).mail = s.mail.erase (.clearNotice b))
        (e : ∀ x, { clearBlock b (took (.clearNotice b) s) with mail := x } = { u with mail := x }) : done b u := by
      refine ⟨_, leadsTo_of_taking (exec_clearNotice b s) hacting
        ((takeClearNotice_of_block (by exact hhalted) hb).trans ?_), rfl⟩
      rw [← e, ← hmail]
      rfl
    refine ⟨hdone (by decide) rfl fun _ => rfl, hdone (by decide) rfl fun _ => rfl, hdone (by decide) rfl fun _ => rfl,
      hdone (by decide) rfl fun _ => rfl, ?_, ?_, hdone (by decide) rfl fun _ => rfl, hdone (by decide) rfl fun _ => rfl⟩
    · have hssu := clearStrays_eq (took (.clearNotice .ssu) s)
      refine ⟨{ s.ssu with stations := mapAll s.ssu.stations fun u => { u with strays := 0 } },
        hdone (by decide) ?_ fun x => ?_, rfl, fun st => ?_⟩
      · exact congrArg State.mail hssu
      · exact congrArg (fun u : State => { u with mail := x }) hssu
      · simp only [mapAll_get]
        rfl
    · intro hpump
      have hvdu := clearCoilFaults_vdu (s := took (.clearNotice .vdu) s) hpump
      refine ⟨{ s.vdu with channels := mapAll s.vdu.channels fun c => { c with coilFault := false, testRun := 0 } },
        hdone (by decide) ?_ fun x => ?_, rfl, fun st => ?_⟩
      · exact congrArg State.mail hvdu
      · exact congrArg (fun u : State => { u with mail := x }) hvdu
      · simp only [mapAll_get]
        rfl
  · intro s hacting c edition
    have hended {e : Word} (h : s.exc.publication = some e) :
        leadsTo .publicationEnd s (afterPublication (publicationOver e (took .publicationEnd s))) :=
      leadsTo_of_taking (exec_publicationEnd s) hacting (takePublicationEnd_of_some (by exact h))
    have hdone (b : Block) {t : State} (e : takeClearDone b (took (.clearDone b) s) = t) : leadsTo (.clearDone b) s t :=
      leadsTo_of_taking (exec_clearDone b s) hacting e
    refine ⟨fun hhalted => ?_, fun hhalted b => ?_, fun e hpub hstage hdeferred => ?_, fun e hpub hstage => ?_,
      fun b hmore => hdone b (takeClearDone_of_more (by exact hmore)),
      fun b hnone hlast => hdone b (takeClearDone_of_last (by exact hnone) (by exact hlast)),
      fun b hnone => hdone b (takeClearDone_of_none (by exact hnone) b)⟩
    · refine ⟨clearExchange (took c s), leadsTo_of_taking (exec_clearNotice .exc s) hacting
        (takeClearNotice_of_exchange (by exact hhalted)), clearExchange_rest _, exchangeEmptied_clearExchange c s,
        fun hpub => ?_, fun hpub => ?_⟩
      · rw [clearExchange_of_free (by exact hpub)]
        exact ⟨rfl, publicationBegun_beginPublication rfl fun hs => wf_filter _ hs, rfl⟩
      · rw [clearExchange_of_publishing (by exact hpub)]
        exact ⟨rfl, rfl, rfl⟩
    · exact leadsTo_of_taking (exec_clearNotice b s) hacting (takeClearNotice_of_halted (by exact hhalted) b)
    · obtain ⟨hover, hkept, -⟩ := publicationOver_kept e (took .publicationEnd s)
      refine ⟨_, hended hpub, ?_⟩
      rw [afterPublication_of_publishing (hover.trans hstage) (hkept.trans hdeferred)]
      exact ⟨rfl, List.mem_append_right _ List.mem_cons_self⟩
    · obtain ⟨hover, -, hedition⟩ := publicationOver_kept e (took .publicationEnd s)
      have hnext : nextEdition (publicationOver e (took .publicationEnd s)).exc.statusEdition = edition := by
        rw [hedition, nextEdition_eq]
        rfl
      refine ⟨_, hended hpub, ?_⟩
      rw [afterPublication_of_waiting (hover.trans hstage)]
      exact ⟨rfl, congrArg some hnext⟩

end Sys2Proof.Machine
end

section
/-! SUPPORT. What a run of words written into the window reads back as (11 R190). -/

namespace Sys2Proof.Machine

open Sys2Proof

/-- Leaving out the cells that read as unlisted ones changes no byte. -/
theorem readByte_filter_listed {m : Memory} (h : m.Pairwise fun a b => a.1 < b.1) (x : Nat) :
    readByte (m.filter fun c => c.2 != Memory.unlisted) x = readByte m x := by
  induction m with
  | nil => rfl
  | cons c m ih =>
    obtain ⟨hhead, htail⟩ := List.pairwise_cons.mp h
    by_cases hc : c.2 = Memory.unlisted
    · rw [List.filter_cons_of_neg (by simp [hc]), ih htail, readByte]
      by_cases hx : c.1 = x
      · have hnone : readByte m x = Memory.unlisted := readByte_append_left [] m fun d hd => by have := hhead d hd; omega
        rw [if_pos hx, hc, hnone]
      · rw [if_neg hx]
    · rw [List.filter_cons_of_pos (by simp [hc]), readByte, readByte, ih htail]

/-- The bytes of the first word of a run. -/
theorem readByte_wordCells_head (o : Nat) (w : Word) (ws : List Word) {i : Nat} (h : i < 4) :
    readByte (wordCells o (w :: ws)) (o + i) = wordByte w i := by
  have hrest := (wordCells_spec (o + 4) ws).2
  unfold wordCells
  rw [readByte_append_left _ _ fun c hc => by have := hrest c hc; omega, readByte_filter_listed (by simp)]
  interval_cases i <;> simp [readByte]

/-- Behind the first word the run goes on. -/
theorem readByte_wordCells_tail (o : Nat) (w : Word) (ws : List Word) {x : Nat} (h : o + 4 ≤ x) :
    readByte (wordCells o (w :: ws)) x = readByte (wordCells (o + 4) ws) x := by
  conv_lhs => unfold wordCells
  exact readByte_append_right _ _ fun c hc => by
    obtain ⟨hmem, -⟩ := List.mem_filter.mp hc
    simp only [List.mem_cons, List.not_mem_nil, or_false] at hmem
    rcases hmem with rfl | rfl | rfl | rfl <;> simp only [] <;> omega

theorem readByte_wordCells {ws : List Word} {i : Nat} {w : Word} (h : ws[i]? = some w) {j : Nat} (hj : j < 4) (o : Nat) :
    readByte (wordCells o ws) (o + 4 * i + j) = wordByte w j := by
  induction ws generalizing i o with
  | nil => simp at h
  | cons v ws ih =>
    cases i with
    | zero =>
      obtain rfl : v = w := by simpa using h
      exact readByte_wordCells_head o v ws hj
    | succ i =>
      rw [readByte_wordCells_tail o v ws (by omega), show o + 4 * (i + 1) + j = o + 4 + 4 * i + j by omega]
      exact ih (by simpa using h) (o + 4)

/-- A run of words written is read there. -/
theorem readByte_writeWords (m : Memory) (o : Nat) (ws : List Word) {x : Nat} (hlow : o ≤ x) (hhigh : x < o + 4 * ws.length) :
    readByte (writeWords m o ws) x = readByte (wordCells o ws) x := by
  unfold writeWords
  rw [readByte_append_left _ _ fun c hc => ?_, readByte_append_right _ _ fun c hc => ?_]
  · have := (List.mem_filter.mp hc).2
    simp only [decide_eq_true_eq] at this
    omega
  · have := (List.mem_filter.mp hc).2
    simp only [decide_eq_true_eq] at this
    omega

/-- A word is put together of its bytes. -/
theorem word_eq_of_bytes {m : Memory} {o : Nat} {w : Word} (h : ∀ j, j < 4 → readByte m (o + j) = wordByte w j) :
    readWord m o = w := by
  rw [← readWord_writeWord wf_nil o w]
  refine readWord_congr fun a hlow hhigh => ?_
  obtain ⟨j, rfl⟩ : ∃ j, a = o + j := ⟨a - o, by omega⟩
  rw [h j (by omega), readByte_writeWord wf_nil, if_pos (by omega), Nat.add_sub_cancel_left]

theorem readWord_writeWords (m : Memory) (o : Nat) {ws : List Word} {i : Nat} {w : Word} (h : ws[i]? = some w) :
    readWord (writeWords m o ws) (o + 4 * i) = w := by
  have hi : i < ws.length := (List.getElem?_eq_some_iff.mp h).1
  refine word_eq_of_bytes fun j hj => ?_
  rw [readByte_writeWords m o ws (by omega) (by omega)]
  exact readByte_wordCells h hj o

end Sys2Proof.Machine
end

section
/-! PROOF. The attention registers, the host's writes into the window, and the port registers (08 R144, R158, R159;
11, Port Registers, Codes). -/

namespace Sys2Proof.Machine

open Sys2Proof

/-! ## The window -/

theorem inUnused_iff (o : Nat) : inUnused o = true ↔
    (0x300 ≤ o ∧ o < 0x400) ∨ (0x600 ≤ o ∧ o < 0x800) ∨ (0x3800 ≤ o ∧ o < 0x4000) := by
  simp [inUnused, or_assoc]

theorem namesWord_iff (o : Nat) : namesWord o = true ↔ o < 0x8000 ∧ o % 4 = 0 := by
  simp [namesWord]

theorem powered_iff (s : State) : powered s = true ↔ s.power ≠ .off := by
  unfold powered
  cases s.power <;> simp

theorem readWindow_of_some {s : State} {o : Nat} (hname : namesWord o = true) (hpower : powered s = true) :
    s.readWindow o = some (if inUnused o = true then 0 else readWord s.window o) := by
  simp [State.readWindow, hname, hpower]

theorem readWindow_of_nameless {s : State} {o : Nat} (h : ¬ namesWord o = true) : s.readWindow o = none := by
  simp [State.readWindow, h]

theorem hostWrite_of_unused {o : Nat} (h : inUnused o = true) (value : Word) (s : State) : hostWrite o value s = s := if_pos h

theorem hostWrite_of_used {o : Nat} (h : ¬ inUnused o = true) (value : Word) (s : State) :
    hostWrite o value s = { s with window := writeWord s.window o value } := if_neg h

theorem hostWrite_rest (o : Nat) (value : Word) (s : State) :
    hostWrite o value s = { s with window := (hostWrite o value s).window } := by
  by_cases h : inUnused o = true
  · rw [hostWrite_of_unused h]
  · rw [hostWrite_of_used h]

/-- The written word reads back. -/
theorem readWindow_hostWrite {s : State} (hs : windowCanonical s) {o : Nat} (hname : namesWord o = true)
    (hpower : powered s = true) (h : ¬ inUnused o = true) (value : Word) : (hostWrite o value s).readWindow o = some value := by
  rw [hostWrite_of_used h, readWindow_of_some hname (by exact hpower), if_neg h, readWord_writeWord hs]

/-- Every other word reads as before. -/
theorem readWindow_hostWrite_other {s : State} (hs : windowCanonical s) {o x : Nat} (hname : namesWord o = true)
    (hpower : powered s = true) (hx : x ≠ o) (value : Word) : (hostWrite o value s).readWindow x = s.readWindow x := by
  by_cases h : inUnused o = true
  · rw [hostWrite_of_unused h]
  rw [hostWrite_of_used h]
  by_cases hxname : namesWord x = true
  · rw [readWindow_of_some hxname (by exact hpower), readWindow_of_some hxname hpower]
    rw [namesWord_iff] at hname hxname
    rw [readWord_writeWord_other hs value (by omega)]
  · rw [readWindow_of_nameless hxname, readWindow_of_nameless hxname]

/-! ## The layouts of the port registers -/

/-- A word laid out of two parts is their sum, the upper one shifted. -/
theorem toNat_append_eq {m n : Nat} (x : BitVec m) (y : BitVec n) : (x ++ y).toNat = x.toNat * 2 ^ n + y.toNat := by
  rw [BitVec.toNat_append, ← Nat.shiftLeft_add_eq_or_of_lt y.isLt, Nat.shiftLeft_eq]

/-- A flag as the register layouts count it. -/
theorem toNat_ofBool_eq (b : Bool) : (BitVec.ofBool b).toNat = if b = true then 1 else 0 := by
  cases b <;> rfl

theorem flag_lt (b : Bool) : (if b = true then 1 else 0) < 2 := by cases b <;> decide
theorem partStateCode_lt (p : PartState) : partStateCode p < 256 := by cases p <;> decide
theorem climbCode_lt (c : Climb) : climbCode c < 256 := by cases c <;> decide
theorem benchCode_lt (b : BenchResult) : benchCode b < 256 := by cases b <;> decide
theorem commandOutcomeCode_lt (o : CommandOutcome) : commandOutcomeCode o < 256 := by cases o <;> decide
theorem haltCode_lt (f : Option StoreFailure) : haltCode f < 16 := by rcases f with _ | _ | _ <;> decide

theorem toNat_idWord : idWord.toNat = (0x3C71 * 2 ^ 8 + 0x40) * 2 ^ 8 + Config.revision.toNat := by
  have hvendor : Config.vendorCode.toNat = 0x3C71 := rfl
  have hpart : Config.partCode.toNat = 0x40 := rfl
  unfold idWord
  simp only [toNat_append_eq, hvendor, hpart]

theorem toNat_controlWord (c : Control) : (controlWord c).toNat =
    c.code.toNat + 2 ^ 8 * commandOutcomeCode c.outcome + 2 ^ 16 * (c.detail % 4096)
      + 2 ^ 30 * (if c.dropped = true then 1 else 0) + 2 ^ 31 * (if c.waiting = true then 1 else 0) := by
  have houtcome := Nat.mod_eq_of_lt (commandOutcomeCode_lt c.outcome)
  simp only [controlWord, toNat_append_eq, toNat_ofBool_eq, BitVec.toNat_ofNat, Nat.reducePow, houtcome]
  omega

theorem toNat_stateWord (s : State) : (stateWord s).toNat =
    partStateCode s.psv.state + 2 ^ 8 * climbCode s.wvc.climb + 2 ^ 16 * benchCode s.psv.bench
      + 2 ^ 24 * haltCode s.psv.haltCause + 2 ^ 28 * (if s.tmb.clockValid = true then 1 else 0)
      + 2 ^ 29 * (if decide (s.psv.lineMode = .hold) = true then 1 else 0) := by
  have hstate := Nat.mod_eq_of_lt (partStateCode_lt s.psv.state)
  have hclimb := Nat.mod_eq_of_lt (climbCode_lt s.wvc.climb)
  have hbench := Nat.mod_eq_of_lt (benchCode_lt s.psv.bench)
  have hhalt := Nat.mod_eq_of_lt (haltCode_lt s.psv.haltCause)
  simp only [stateWord, toNat_append_eq, toNat_ofBool_eq, BitVec.toNat_ofNat, Nat.reducePow, hstate, hclimb, hbench, hhalt]
  omega

/-- A set of six bits fills the lowest six of its register. -/
theorem sixBits_shows (a : BitVec 6) (low width value : Nat) (h : (low, width, value) ∈ [(0, 6, a.toNat), (6, 26, 0)]) :
    (a.setWidth 32).toNat / 2 ^ low % 2 ^ width = value := by
  have ha := a.isLt
  simp only [List.mem_cons, Prod.mk.injEq, List.not_mem_nil, or_false] at h
  rw [BitVec.toNat_setWidth]
  rcases h with ⟨rfl, rfl, rfl⟩ | ⟨rfl, rfl, rfl⟩ <;> omega

theorem readPort_of_dead {s : State} (h : s.power = .off) (offset : Nat) : s.readPort offset = none := by
  have hpowered : powered s = false := by simp [powered, h]
  simp [State.readPort, hpowered]

section
variable {s : State} (h : powered s = true)
include h

theorem readPort_elsewhere {offset : Nat} (ho : offset ∉ [0x00, 0x04, 0x08, 0x0C, 0x10, 0x14]) : s.readPort offset = none := by
  unfold State.readPort
  rw [if_pos h]
  split <;> simp_all

theorem readPort_id : s.readPort 0x00 = some idWord := by simp [State.readPort, h]
theorem readPort_control : s.readPort 0x04 = some (controlWord s.psv.control) := by simp [State.readPort, h]
theorem readPort_state : s.readPort 0x08 = some (if acting s then stateWord s else Config.stateInReset) := by
  simp [State.readPort, h]
theorem readPort_attn : s.readPort 0x0C = some (s.exc.attn.setWidth 32) := by simp [State.readPort, h]
theorem readPort_attnMask : s.readPort 0x10 = some (s.exc.attnMask.setWidth 32) := by simp [State.readPort, h]
theorem readPort_attnPace : s.readPort 0x14 = some (natWord s.exc.attnPace) := by simp [State.readPort, h]

end

/-- Settles O57. -/
theorem registerAndWindowWritesTakeEffect : Obligations.RegisterAndWindowWritesTakeEffect := by
  refine ⟨?_, ?_, ?_, by decide⟩
  · intro s value hacting attn
    refine ⟨leadsTo_of_whileActing (exec_attnWrite value s) hacting rfl,
      leadsTo_of_whileActing (exec_attnMaskWrite value s) hacting rfl,
      leadsTo_of_whileActing (exec_attnPaceWrite value s) hacting ?_, fun source position hsource => ?_, fun offset => rfl,
      fun mask hview => leadsTo_of_taking (exec_feedMaskDirective mask s) hacting (if_neg hview)⟩
    · simp only [writeAttnPace, onExc, paceOf, BitVec.toNat_setWidth]
    · refine leadsTo_of_taking (exec_attentionSetRequest source s) hacting ?_
      simp only [List.mem_cons, Prod.mk.injEq, List.not_mem_nil, or_false] at hsource
      rcases hsource with ⟨rfl, rfl⟩ | ⟨rfl, rfl⟩ | ⟨rfl, rfl⟩ | ⟨rfl, rfl⟩ | ⟨rfl, rfl⟩ | ⟨rfl, rfl⟩ <;> rfl
  · intro s offset value hs unused
    have hpowered := powered_iff s
    refine ⟨fun o hunused haligned hpower => ?_, fun hname => ?_, fun hlow haligned hdead => ?_, fun hlow haligned hpower => ?_⟩
    · have hlow : o < 0x8000 := by rcases hunused with h | h | h <;> omega
      rw [readWindow_of_some ((namesWord_iff o).mpr ⟨hlow, haligned⟩) (hpowered.mpr hpower),
        if_pos ((inUnused_iff o).mpr hunused)]
    · exact if_neg fun h => by rw [namesWord_iff] at h; omega
    · exact (if_pos ((namesWord_iff offset).mpr ⟨hlow, haligned⟩)).trans
        (congrArg Host.Outcome.next (if_neg fun h => hpowered.mp h hdead))
    · have hname := (namesWord_iff offset).mpr ⟨hlow, haligned⟩
      have hpower := hpowered.mpr hpower
      refine ⟨hostWrite offset value s, (if_pos hname).trans (congrArg Host.Outcome.next (if_pos hpower)), hostWrite_rest _ _ _,
        fun hunused => hostWrite_of_unused ((inUnused_iff offset).mpr hunused) value s,
        fun hused => readWindow_hostWrite hs hname hpower (fun h => hused ((inUnused_iff offset).mp h)) value,
        fun o ho => readWindow_hostWrite_other hs hname hpower ho value⟩
  · intro s one shows
    refine ⟨readPort_of_dead, fun hpower => ?_, fun hon => ?_, fun cause hheld => ?_⟩
    · have hpower := (powered_iff s).mpr hpower
      refine ⟨fun offset ho => readPort_elsewhere hpower ho, ⟨_, readPort_id hpower, ?_⟩,
        ⟨_, readPort_control hpower, ?_⟩, ⟨_, readPort_attn hpower, ?_⟩, ⟨_, readPort_attnMask hpower, ?_⟩,
        fun hsound => ⟨_, readPort_attnPace hpower, ?_⟩⟩
      · have hrevision := Config.revision.isLt
        rintro low width value hfield
        simp only [List.mem_cons, Prod.mk.injEq, List.not_mem_nil, or_false] at hfield
        rw [toNat_idWord]
        rcases hfield with ⟨rfl, rfl, rfl⟩ | ⟨rfl, rfl, rfl⟩ | ⟨rfl, rfl, rfl⟩ <;> omega
      · have hcode := s.psv.control.code.isLt
        have houtcome := commandOutcomeCode_lt s.psv.control.outcome
        have hdropped := flag_lt s.psv.control.dropped
        have hwaiting := flag_lt s.psv.control.waiting
        simp only [one]
        rintro low width value hfield
        simp only [List.mem_cons, Prod.mk.injEq, List.not_mem_nil, or_false] at hfield
        rw [toNat_controlWord]
        rcases hfield with ⟨rfl, rfl, rfl⟩ | ⟨rfl, rfl, rfl⟩ | ⟨rfl, rfl, rfl⟩ | ⟨rfl, rfl, rfl⟩ | ⟨rfl, rfl, rfl⟩ | ⟨rfl, rfl, rfl⟩ <;>
          omega
      · exact sixBits_shows _
      · exact sixBits_shows _
      · obtain ⟨hpace, -⟩ := hsound
        rintro low width value hfield
        simp only [List.mem_cons, Prod.mk.injEq, List.not_mem_nil, or_false] at hfield
        rw [natWord, BitVec.toNat_ofNat]
        rcases hfield with ⟨rfl, rfl, rfl⟩ | ⟨rfl, rfl, rfl⟩ <;> omega
    · have hpower : powered s = true := (powered_iff s).mpr (by rw [hon]; decide)
      have hstate := partStateCode_lt s.psv.state
      have hclimb := climbCode_lt s.wvc.climb
      have hbench := benchCode_lt s.psv.bench
      have hhalt := haltCode_lt s.psv.haltCause
      have hclock := flag_lt s.tmb.clockValid
      have hline := flag_lt (decide (s.psv.lineMode = .hold))
      simp only [one]
      refine ⟨stateWord s, (readPort_state hpower).trans (congrArg some (if_pos (by simp [acting, hon]))), ?_⟩
      rintro low width value hfield
      simp only [List.mem_cons, Prod.mk.injEq, List.not_mem_nil, or_false] at hfield
      rw [toNat_stateWord]
      rcases hfield with ⟨rfl, rfl, rfl⟩ | ⟨rfl, rfl, rfl⟩ | ⟨rfl, rfl, rfl⟩ | ⟨rfl, rfl, rfl⟩ | ⟨rfl, rfl, rfl⟩ | ⟨rfl, rfl, rfl⟩ |
        ⟨rfl, rfl, rfl⟩ <;> omega
    · have hpower : powered s = true := (powered_iff s).mpr (by rw [hheld]; exact fun h => by cases h)
      exact (readPort_state hpower).trans (congrArg some (if_neg (by simp [acting, hheld])))

end Sys2Proof.Machine
end

section
/-! PROOF. What a slot write puts into the window and into the images (08 R148, R150; 11, Order Slot, Batch Slot). -/

namespace Sys2Proof.Machine

open Sys2Proof

/-! ## Records of words, by their places -/

/-- A word of a record: the given one, 0 behind the given ones. -/
theorem getElem?_recordWords {n : Nat} (ws : List Word) {i : Nat} (h : i < n) :
    (recordWords n ws)[i]? = some (ws[i]?.getD 0) := by
  rw [recordWords, List.getElem?_take_of_lt h]
  rcases Nat.lt_or_ge i ws.length with hi | hi
  · rw [List.getElem?_append_left hi, List.getElem?_eq_getElem hi]
    rfl
  · rw [List.getElem?_append_right hi, List.getElem?_eq_none hi, List.getElem?_replicate, if_pos (by omega)]
    rfl

/-- Of records of one length laid one behind the other each is found by its number. -/
theorem getElem?_flatMap_const {ι : Type} {n : Nat} {f : ι → List Word} (h : ∀ x, (f x).length = n) (l : List ι) (j : Nat)
    {i : Nat} (hi : i < n) : (l.flatMap f)[n * j + i]? = l[j]?.bind fun x => (f x)[i]? := by
  induction l generalizing j with
  | nil => simp
  | cons x l ih =>
    rw [List.flatMap_cons]
    cases j with
    | zero =>
      rw [List.getElem?_append_left (by rw [h]; omega), Nat.mul_zero, Nat.zero_add]
      rfl
    | succ j =>
      rw [List.getElem?_append_right (by rw [h, Nat.mul_succ]; omega), h, List.getElem?_cons_succ, ← ih j]
      congr 1
      rw [Nat.mul_succ]
      omega

theorem length_reportWords (r : BatchReport) : (reportWords r).length = 48 := length_recordWords _ _

/-- The eight words before the portion entries. -/
def reportHead (r : BatchReport) : List Word :=
  [reasonCode r.reason, r.takeTime, natWord r.delivered, natWord r.wasted, natWord r.remaining,
    wasteCauseCode r.cause, natWord (flagNat r.toWaste), natWord r.entries.length]

theorem reportWords_eq (r : BatchReport) : reportWords r = recordWords 48 (reportHead r ++ r.entries.flatMap entryWords) := rfl

theorem reportWords_head (r : BatchReport) {i : Nat} (h : i < 8) : (reportWords r)[i]? = (reportHead r)[i]? := by
  have hi : i < (reportHead r).length := h
  rw [reportWords_eq, getElem?_recordWords _ (by omega), List.getElem?_append_left hi, List.getElem?_eq_getElem hi]
  rfl

theorem reportWords_entry (r : BatchReport) {j i : Nat} (hj : j < 8) (hi : i < 5) :
    (reportWords r)[8 + (5 * j + i)]? = some ((r.entries[j]?.bind fun e => (entryWords e)[i]?).getD 0) := by
  have hhead : (reportHead r).length = 8 := rfl
  rw [reportWords_eq, getElem?_recordWords _ (by omega), List.getElem?_append_right (by omega), hhead,
    Nat.add_sub_cancel_left, getElem?_flatMap_const (f := entryWords) (fun _ => rfl) r.entries j hi]

/-- The disposition and the exit mark of a portion, in one word. -/
theorem dispositionWord_eq (d : Disposition) (b : Bool) :
    bytesWord (dispositionCode d) (flagNat b) 0 0 = natWord (dispositionCode d + 256 * flagNat b) := by
  cases d <;> cases b <;> decide

/-! ## Batch slots -/

/-- The window with a batch slot's report fields written. -/
def withReport (slot : BatchSlot) (r : BatchReport) (m : Memory) : Memory := writeWords m (batchBase slot + 0x20) (reportWords r)

theorem writeBatchSlot_none (slot : BatchSlot) (r : BatchReport) (s : State) :
    writeBatchSlot slot none r s = { s with window := withReport slot r s.window } := rfl

theorem writeBatchSlot_some (slot : BatchSlot) (st : BatchState) (r : BatchReport) (s : State) :
    writeBatchSlot slot (some st) r s = when (decide (st = .spent) || decide (st = .refused)) (setAttn .batch)
      (setBatchImage slot st { s with window := writeWord (withReport slot r s.window) (batchBase slot) (batchStateCode st) }) := rfl

theorem when_setAttn_rest (b : Bool) (source : AttnSource) (s : State) :
    when b (setAttn source) s = { s with exc := (when b (setAttn source) s).exc } := by
  cases b <;> rfl

theorem when_setAttn_exc (b : Bool) (source : AttnSource) (s : State) :
    (when b (setAttn source) s).exc = { s.exc with
      attn := if b = true then setBit s.exc.attn (attnPosition source) else s.exc.attn
      attnLine := (when b (setAttn source) s).exc.attnLine } := by
  cases b <;> rfl

theorem writeBatchSlot_rest (slot : BatchSlot) (state : Option BatchState) (r : BatchReport) (s : State) :
    writeBatchSlot slot state r s =
      { s with exc := (writeBatchSlot slot state r s).exc, window := (writeBatchSlot slot state r s).window } := by
  cases state with
  | none => rfl
  | some st =>
    rw [writeBatchSlot_some, when_setAttn_rest]
    rfl

theorem writeBatchSlot_window_some (slot : BatchSlot) (st : BatchState) (r : BatchReport) (s : State) :
    (writeBatchSlot slot (some st) r s).window =
      writeWord (withReport slot r s.window) (batchBase slot) (batchStateCode st) := by
  rw [writeBatchSlot_some, when_setAttn_rest]
  rfl

section
variable {s : State} (hs : windowCanonical s) (slot : BatchSlot) (state : Option BatchState) (r : BatchReport)
include hs

theorem readWord_writeBatchSlot {o : Nat} (h : batchBase slot + 4 ≤ o) :
    readWord (writeBatchSlot slot state r s).window o = readWord (withReport slot r s.window) o := by
  cases state with
  | none => rfl
  | some st =>
    rw [writeBatchSlot_window_some]
    exact readWord_writeWord_other (wf_writeWords _ _ hs) _ (.inr h)

/-- The report fields hold the words of the report. -/
theorem readWord_writeBatchSlot_report {i : Nat} {w : Word} (h : (reportWords r)[i]? = some w) :
    readWord (writeBatchSlot slot state r s).window (batchBase slot + 0x20 + 4 * i) = w := by
  rw [readWord_writeBatchSlot hs slot state r (by omega)]
  exact readWord_writeWords _ _ h

theorem readByte_writeBatchSlot {a : Nat}
    (h : a < batchBase slot ∨ (batchBase slot + 4 ≤ a ∧ a < batchBase slot + 0x20) ∨ batchBase slot + 0xE0 ≤ a) :
    readByte (writeBatchSlot slot state r s).window a = readByte s.window a := by
  have hreport : readByte (withReport slot r s.window) a = readByte s.window a :=
    readByte_writeWords_other _ _ (by rw [length_reportWords]; omega)
  cases state with
  | none => exact hreport
  | some st =>
    rw [writeBatchSlot_window_some, readByte_writeWord (m := withReport slot r s.window) (wf_writeWords _ _ hs),
      if_neg (by omega), hreport]

theorem readWord_writeBatchSlot_state (st : BatchState) :
    readWord (writeBatchSlot slot (some st) r s).window (batchBase slot) = batchStateCode st := by
  rw [writeBatchSlot_window_some]
  exact readWord_writeWord (wf_writeWords _ _ hs) _ _

end

theorem writeBatchSlot_exc_some (slot : BatchSlot) (st : BatchState) (r : BatchReport) (s : State) :
    (writeBatchSlot slot (some st) r s).exc = { s.exc with
      batchImages := put s.exc.batchImages slot st
      batchHanded := put s.exc.batchHanded slot false
      attn := if (decide (st = .spent) || decide (st = .refused)) = true then setBit s.exc.attn 0 else s.exc.attn
      attnLine := (writeBatchSlot slot (some st) r s).exc.attnLine } := by
  rw [writeBatchSlot_some, when_setAttn_exc]
  rfl

/-! ## Order slots -/

/-- The window with an order slot's outcome and detail written. -/
def answeredIn (slot : OrderSlot) (result : Option OrderOutcome) (detail : Word) (m : Memory) : Memory :=
  writeWord (writeWord m (orderBase slot + 0x14) (orderOutcomeCode result)) (orderBase slot + 0x18) detail

theorem writeOrderSlot_none (slot : OrderSlot) (result : Option OrderOutcome) (detail : Word) (s : State) :
    writeOrderSlot slot none result detail s = { s with window := answeredIn slot result detail s.window } := rfl

theorem writeOrderSlot_some (slot : OrderSlot) (st : OrderState) (result : Option OrderOutcome) (detail : Word) (s : State) :
    writeOrderSlot slot (some st) result detail s = when (decide (st = .answered)) (setAttn .order)
      (setOrderImage slot st
        { s with window := writeWord (answeredIn slot result detail s.window) (orderBase slot) (orderStateCode st) }) := rfl

theorem writeOrderSlot_rest (slot : OrderSlot) (state : Option OrderState) (result : Option OrderOutcome) (detail : Word)
    (s : State) : writeOrderSlot slot state result detail s = { s with
      exc := (writeOrderSlot slot state result detail s).exc
      window := (writeOrderSlot slot state result detail s).window } := by
  cases state with
  | none => rfl
  | some st =>
    rw [writeOrderSlot_some, when_setAttn_rest]
    rfl

theorem writeOrderSlot_window_some (slot : OrderSlot) (st : OrderState) (result : Option OrderOutcome) (detail : Word)
    (s : State) : (writeOrderSlot slot (some st) result detail s).window =
      writeWord (answeredIn slot result detail s.window) (orderBase slot) (orderStateCode st) := by
  rw [writeOrderSlot_some, when_setAttn_rest]
  rfl

theorem writeOrderSlot_exc_some (slot : OrderSlot) (st : OrderState) (result : Option OrderOutcome) (detail : Word)
    (s : State) : (writeOrderSlot slot (some st) result detail s).exc = { s.exc with
      orderImages := put s.exc.orderImages slot st
      orderHanded := put s.exc.orderHanded slot false
      attn := if decide (st = .answered) = true then setBit s.exc.attn 1 else s.exc.attn
      attnLine := (writeOrderSlot slot (some st) result detail s).exc.attnLine } := by
  rw [writeOrderSlot_some, when_setAttn_exc]
  rfl

section
variable {s : State} (hs : windowCanonical s) (slot : OrderSlot) (state : Option OrderState) (result : Option OrderOutcome)
  (detail : Word)
include hs

theorem wf_answeredIn : Memory.wf (answeredIn slot result detail s.window) := wf_writeWord _ _ (wf_writeWord _ _ hs)

theorem readWord_writeOrderSlot {o : Nat} (h : orderBase slot + 4 ≤ o) :
    readWord (writeOrderSlot slot state result detail s).window o = readWord (answeredIn slot result detail s.window) o := by
  cases state with
  | none => rfl
  | some st =>
    rw [writeOrderSlot_window_some]
    exact readWord_writeWord_other (wf_answeredIn hs _ _ _) _ (.inr h)

theorem readWord_writeOrderSlot_outcome :
    readWord (writeOrderSlot slot state result detail s).window (orderBase slot + 0x14) = orderOutcomeCode result := by
  rw [readWord_writeOrderSlot hs _ _ _ _ (by omega), answeredIn,
    readWord_writeWord_other (wf_writeWord _ _ hs) _ (.inl (by omega)), readWord_writeWord hs]

theorem readWord_writeOrderSlot_detail :
    readWord (writeOrderSlot slot state result detail s).window (orderBase slot + 0x18) = detail := by
  rw [readWord_writeOrderSlot hs _ _ _ _ (by omega), answeredIn, readWord_writeWord (wf_writeWord _ _ hs)]

theorem readByte_writeOrderSlot {a : Nat}
    (h : a < orderBase slot ∨ (orderBase slot + 4 ≤ a ∧ a < orderBase slot + 0x14) ∨ orderBase slot + 0x1C ≤ a) :
    readByte (writeOrderSlot slot state result detail s).window a = readByte s.window a := by
  have hanswer : readByte (answeredIn slot result detail s.window) a = readByte s.window a := by
    rw [answeredIn, readByte_writeWord (wf_writeWord _ _ hs), if_neg (by omega), readByte_writeWord hs, if_neg (by omega)]
  cases state with
  | none => exact hanswer
  | some st =>
    rw [writeOrderSlot_window_some, readByte_writeWord (wf_answeredIn hs _ _ _), if_neg (by omega), hanswer]

theorem readWord_writeOrderSlot_state (st : OrderState) :
    readWord (writeOrderSlot slot (some st) result detail s).window (orderBase slot) = orderStateCode st := by
  rw [writeOrderSlot_window_some]
  exact readWord_writeWord (wf_answeredIn hs _ _ _) _ _

/-- Where no state word is written the old one stands. -/
theorem readWord_writeOrderSlot_kept :
    readWord (writeOrderSlot slot none result detail s).window (orderBase slot) = readWord s.window (orderBase slot) := by
  rw [writeOrderSlot_none, answeredIn, readWord_writeWord_other (wf_writeWord _ _ hs) _ (.inl (by omega)),
    readWord_writeWord_other hs _ (.inl (by omega))]

end

theorem takeSlotWrite_batch {s : State} (h : s.exc.view ≠ .halted) (slot : BatchSlot) (state : Option BatchState)
    (r : BatchReport) : takeSlotWrite (.batch slot state r) s = writeBatchSlot slot state r s := if_neg h

theorem takeSlotWrite_order {s : State} (h : s.exc.view ≠ .halted) (slot : OrderSlot) (state : Option OrderState)
    (result : Option OrderOutcome) (detail : Word) :
    takeSlotWrite (.order slot state result detail) s = writeOrderSlot slot state result detail s := if_neg h

theorem takeOrderOutcome_outcome {s : State} (h : s.exc.view ≠ .halted) (slot : OrderSlot) (result : OrderOutcome)
    (detail : Word) : takeOrderOutcome slot (.outcome result detail) s =
      writeOrderSlot slot (some .answered) (some result) detail s := if_neg h

theorem takeOrderOutcome_taken {s : State} (h : s.exc.view ≠ .halted) (slot : OrderSlot) :
    takeOrderOutcome slot .taken s = writeOrderSlot slot (some .taken) none 0 s := if_neg h

/-- Settles O58. -/
theorem slotWritesFillTheSlot : Obligations.SlotWritesFillTheSlot := by
  intro s hacting hview hs batchCode orderCode outcomeCode number flag
  refine ⟨?_, ?_, ?_, ?_⟩
  · intro slot state report c base reason cause disposition
    have hwindow : windowCanonical (took c s) := hs
    refine ⟨writeBatchSlot slot state report (took c s),
      leadsTo_of_taking (exec_slotWriteRequest _ s) hacting (takeSlotWrite_batch (by exact hview) _ _ _),
      writeBatchSlot_rest _ _ _ _, ⟨?_, fun j e hj he => ?_, fun j i hj hlength hi => ?_⟩,
      fun a ha => readByte_writeBatchSlot hwindow slot state report ha, ?_, ?_⟩
    · have hword (o i : Nat) {w : Word} (ho : o = 0x20 + 4 * i) (hi : i < 8) (h : (reportHead report)[i]? = some w) :
          readWord (writeBatchSlot slot state report (took c s)).window (base + o) = w := by
        rw [ho, ← Nat.add_assoc]
        exact readWord_writeBatchSlot_report hwindow slot state report ((reportWords_head report hi).trans h)
      beta_reduce
      rw [hword 0x20 0 rfl (by omega) rfl, hword 0x24 1 rfl (by omega) rfl, hword 0x28 2 rfl (by omega) rfl,
        hword 0x2C 3 rfl (by omega) rfl, hword 0x30 4 rfl (by omega) rfl, hword 0x34 5 rfl (by omega) rfl,
        hword 0x38 6 rfl (by omega) rfl, hword 0x3C 7 rfl (by omega) rfl]
      rfl
    · have hword (o i : Nat) {w : Word} (ho : o = 0x40 + 20 * j + 4 * i) (hi : i < 5) (h : (entryWords e)[i]? = some w) :
          readWord (writeBatchSlot slot state report (took c s)).window (base + o) = w := by
        have hreport := readWord_writeBatchSlot_report hwindow slot state report (reportWords_entry report hj hi)
        rw [he, Option.bind_some, h] at hreport
        rw [ho, show base + (0x40 + 20 * j + 4 * i) = batchBase slot + 0x20 + 4 * (8 + (5 * j + i)) by
          unfold base batchBase; omega]
        exact hreport
      beta_reduce
      rw [hword (0x40 + 20 * j) 0 (by omega) (by omega) rfl, hword (0x44 + 20 * j) 1 (by omega) (by omega) rfl,
        hword (0x48 + 20 * j) 2 (by omega) (by omega) rfl, hword (0x4C + 20 * j) 3 (by omega) (by omega) rfl,
        hword (0x50 + 20 * j) 4 (by omega) (by omega) rfl, dispositionWord_eq]
      rfl
    · have hreport := readWord_writeBatchSlot_report hwindow slot state report (reportWords_entry report hj hi)
      rw [List.getElem?_eq_none hlength] at hreport
      beta_reduce
      rw [show base + (0x40 + 20 * j + 4 * i) = batchBase slot + 0x20 + 4 * (8 + (5 * j + i)) by
        unfold base batchBase; omega]
      exact hreport
    · rintro st rfl
      have hexc := writeBatchSlot_exc_some slot st report (took c s)
      have hattn := congrArg Exc.attn hexc
      refine ⟨readWord_writeBatchSlot_state hwindow slot report st, ?_, fun x hx => ?_, fun hend => ?_, fun hspent hrefused => ?_⟩
      · rw [hexc]
        exact put_same _ _ _
      · rw [hexc]
        exact put_other _ _ (Ne.symm hx)
      · rw [hattn]
        rcases hend with rfl | rfl <;> rfl
      · rw [hattn]
        exact if_neg (by simp [hspent, hrefused])
    · rintro rfl
      refine ⟨rfl, ?_⟩
      rw [writeBatchSlot_none]
      exact readWord_congr fun a hlow hhigh =>
        readByte_writeWords_other _ _ (.inl (by unfold base at hhigh; unfold batchBase; omega))
  · intro slot result detail c base
    have hwindow : windowCanonical (took c s) := hs
    have hexc := writeOrderSlot_exc_some slot .answered (some result) detail (took c s)
    refine ⟨_, leadsTo_of_taking (exec_orderOutcome slot _ s) hacting (takeOrderOutcome_outcome (by exact hview) _ _ _), ?_, ?_,
      readWord_writeOrderSlot_state hwindow slot _ _ _, ?_, readWord_writeOrderSlot_detail hwindow slot _ _ _,
      fun a ha => readByte_writeOrderSlot hwindow slot _ _ _ ha⟩
    · rw [hexc]
      exact put_same _ _ _
    · rw [hexc]
      rfl
    · refine (readWord_writeOrderSlot_outcome hwindow slot _ _ _).trans ?_
      cases result <;> rfl
  · intro slot base
    have hwindow : windowCanonical (took (.orderOutcome slot .taken) s) := hs
    have hexc := writeOrderSlot_exc_some slot .taken none 0 (took (.orderOutcome slot .taken) s)
    refine ⟨_, leadsTo_of_taking (exec_orderOutcome slot _ s) hacting (takeOrderOutcome_taken (by exact hview) _), ?_, ?_,
      readWord_writeOrderSlot_state hwindow slot _ _ _, readWord_writeOrderSlot_outcome hwindow slot _ _ _,
      readWord_writeOrderSlot_detail hwindow slot _ _ _, fun a ha => readByte_writeOrderSlot hwindow slot _ _ _ ha⟩
    · rw [hexc]
      exact put_same _ _ _
    · rw [hexc]
      rfl
  · intro slot state result detail c base
    have hwindow : windowCanonical (took c s) := hs
    refine ⟨_, leadsTo_of_taking (exec_slotWriteRequest _ s) hacting (takeSlotWrite_order (by exact hview) _ _ _ _),
      writeOrderSlot_rest _ _ _ _ _, ?_, readWord_writeOrderSlot_detail hwindow slot _ _ _,
      fun a ha => readByte_writeOrderSlot hwindow slot _ _ _ ha, ?_, ?_⟩
    · refine (readWord_writeOrderSlot_outcome hwindow slot _ _ _).trans ?_
      rcases result with _ | result
      · rfl
      · cases result <;> rfl
    · rintro st rfl
      have hexc := writeOrderSlot_exc_some slot st result detail (took c s)
      have hattn := congrArg Exc.attn hexc
      refine ⟨readWord_writeOrderSlot_state hwindow slot _ _ _, ?_, ?_, fun x hx => ?_, fun hend => ?_, fun hend => ?_⟩
      · rw [hexc]
        exact put_same _ _ _
      · rw [hexc]
        exact put_same _ _ _
      · rw [hexc]
        exact put_other _ _ (Ne.symm hx)
      · rw [hattn, hend]
        rfl
      · rw [hattn]
        exact if_neg (by simp [hend])
    · rintro rfl
      exact ⟨rfl, readWord_writeOrderSlot_kept hwindow slot _ _⟩

end Sys2Proof.Machine
end

section
/-! SUPPORT. The bits of a set built position by position, and the words that name a station or a sector (11 R190, R191). -/

namespace Sys2Proof.Machine

open Sys2Proof

theorem getLsbD_bit {w : Nat} (i : Nat) {j : Nat} (hj : j < w) : (bit w i).getLsbD j = decide (j = i) := by
  rw [bit, BitVec.getLsbD_shiftLeft, BitVec.getLsbD_one, Bool.eq_iff_iff]
  simp only [Bool.and_eq_true, decide_eq_true_eq, Bool.not_eq_true', decide_eq_false_iff_not]
  omega

theorem getLsbD_setBit {w : Nat} (m : BitVec w) (i : Nat) {j : Nat} (hj : j < w) :
    (setBit m i).getLsbD j = (m.getLsbD j || decide (j = i)) := by
  rw [setBit, BitVec.getLsbD_or, getLsbD_bit i hj]

theorem getLsbD_clearBit {w : Nat} (m : BitVec w) (i : Nat) {j : Nat} (hj : j < w) :
    (clearBit m i).getLsbD j = (m.getLsbD j && !decide (j = i)) := by
  rw [clearBit, BitVec.getLsbD_and, BitVec.getLsbD_not, getLsbD_bit i hj, decide_eq_true hj, Bool.true_and]

theorem getLsbD_assignBit {w : Nat} (m : BitVec w) (i : Nat) (b : Bool) {j : Nat} (hj : j < w) :
    (assignBit m i b).getLsbD j = if j = i then b else m.getLsbD j := by
  cases b
  · refine (getLsbD_clearBit m i hj).trans ?_
    by_cases h : j = i <;> simp [h]
  · refine (getLsbD_setBit m i hj).trans ?_
    by_cases h : j = i <;> simp [h]

theorem namesOnly_iff (w : Nat) (events : Word) : namesOnly w events = true ↔ events.toNat < 2 ^ w := decide_eq_true_iff

theorem stationOf_of_eq {w : Word} {st : Station} (h : st.1 = w.toNat) : stationOf w = some st := by
  have hw : w.toNat < 64 := h ▸ st.2
  rw [stationOf, dif_pos hw]
  exact congrArg some (Fin.ext h.symm)

theorem stationOf_of_ge {w : Word} (h : 64 ≤ w.toNat) : stationOf w = none := dif_neg (Nat.not_lt.mpr h)

theorem sectorOfWord_of_eq {w : Word} {k : Sector} (h : k.1 = w.toNat) : sectorOfWord w = some k := by
  have hw : w.toNat < 16 := h ▸ k.2
  rw [sectorOfWord, dif_pos hw]
  exact congrArg some (Fin.ext h.symm)

theorem sectorOfWord_of_ge {w : Word} (h : 16 ≤ w.toNat) : sectorOfWord w = none := dif_neg (Nat.not_lt.mpr h)

end Sys2Proof.Machine
end

section
/-! PROOF. CLIMB_DIRECTIVE, and CLEAR_EVENTS of the three scopes (04 R53, R83; 06 R113; 08 R152). -/

namespace Sys2Proof.Machine

open Sys2Proof

/-! ## CLIMB_DIRECTIVE -/

/-- The Wave Controller under the new directive values. -/
def directed (values : ClimbValues) (w : Wvc) : Wvc := { w with values := values, holds := clearBit w.holds holdResume }

theorem takeClimbDirective_of_silent {s : State} (hview : s.wvc.view ≠ .halted)
    (h : ¬ (resumeHeld s = true ∧ (s.psv.state = .run ∨ s.psv.state = .stopping))) (values : ClimbValues) :
    takeClimbDirective values s = { s with wvc := directed values s.wvc } := (if_neg hview).trans (if_neg h)

theorem takeClimbDirective_of_waking {s : State} (hview : s.wvc.view ≠ .halted) (hresume : resumeHeld s = true)
    (hstate : s.psv.state = .run ∨ s.psv.state = .stopping) (values : ClimbValues) :
    takeClimbDirective values s = { s with
      wvc := directed values s.wvc
      mail := s.mail ++ .wake :: ((activeStations s).filter fun st => !isParticipant s st).map Instr.restValve } :=
  (if_neg hview).trans (if_pos ⟨hresume, hstate⟩)

/-- Settles O40. -/
theorem climbDirectivesReplaceTheValues : Obligations.ClimbDirectivesReplaceTheValues := by
  intro s values hacting hview c w standing
  refine ⟨fun hsilent => ?_, fun hresume hstate => ?_⟩
  · refine leadsTo_of_taking (exec_climbDirective values s) hacting (takeClimbDirective_of_silent (by exact hview) ?_ values)
    rintro ⟨hresume, hstate⟩
    rcases hsilent with h | ⟨hrun, hstopping⟩
    · exact absurd hresume (by rw [show resumeHeld (took c s) = false from h]; decide)
    · exact hstate.elim hrun hstopping
  · have hstanding : (activeStations s).filter (fun st => !isParticipant s st) = standing := by
      rw [activeStations, List.filter_filter]
      exact List.filter_congr fun st _ => Bool.and_comm _ _
    refine leadsTo_of_taking (exec_climbDirective values s) hacting
      ((takeClimbDirective_of_waking (s := took c s) hview hresume hstate values).trans ?_)
    rw [← hstanding]
    rfl

/-! ## CLEAR_EVENTS of a station and of a sector -/

theorem takeClearStation_of_nameless {s : State} (hview : s.wvc.view ≠ .halted) (slot : OrderSlot) {index events : Word}
    (h : 64 ≤ index.toNat ∨ 512 ≤ events.toNat) :
    takeClearStation slot index events s = answerOrder slot .badArgument s := by
  refine (if_neg hview).trans ?_
  by_cases hindex : 64 ≤ index.toNat
  · rw [stationOf_of_ge hindex]
  · rw [stationOf_of_eq (st := ⟨index.toNat, by omega⟩) rfl]
    exact if_neg (by rw [namesOnly_iff]; omega)

theorem takeClearStation_of_named {s : State} (hview : s.wvc.view ≠ .halted) (slot : OrderSlot) {index events : Word}
    {st : Station} (hst : st.1 = index.toNat) (h : events.toNat < 512) :
    takeClearStation slot index events s = answerOrder slot .done
      (setRecord s st { recordOf s st with events := (recordOf s st).events &&& ~~~ events.setWidth 9 }) := by
  refine (if_neg hview).trans ?_
  rw [stationOf_of_eq hst]
  exact if_pos ((namesOnly_iff 9 events).mpr h)

theorem takeClearSector_of_nameless {s : State} (hview : s.ltr.view ≠ .halted) (slot : OrderSlot) {index events : Word}
    (h : 16 ≤ index.toNat ∨ 16 ≤ events.toNat) :
    takeClearSector slot index events s = answerOrder slot .badArgument s := by
  refine (if_neg hview).trans ?_
  by_cases hindex : 16 ≤ index.toNat
  · rw [sectorOfWord_of_ge hindex]
  · rw [sectorOfWord_of_eq (k := ⟨index.toNat, by omega⟩) rfl]
    exact if_neg (by rw [namesOnly_iff]; omega)

theorem takeClearSector_of_named {s : State} (hview : s.ltr.view ≠ .halted) (slot : OrderSlot) {index events : Word}
    {k : Sector} (hk : k.1 = index.toNat) (h : events.toNat < 16) :
    takeClearSector slot index events s = answerOrder slot .done
      { s with ltr := { s.ltr with events := put s.ltr.events k (s.ltr.events[k] &&& ~~~ events.setWidth 4) } } := by
  refine (if_neg hview).trans ?_
  rw [sectorOfWord_of_eq hk]
  exact if_pos ((namesOnly_iff 4 events).mpr h)

/-! ## CLEAR_EVENTS of the rig -/

theorem takeClearRig_of_nameless {s : State} (hview : s.exc.view ≠ .halted) (slot : OrderSlot) {events : Word}
    (h : 32 ≤ events.toNat) :
    takeClearRig slot events s = writeOrderSlot slot (some .answered) (some .badArgument) 0 s :=
  (if_neg hview).trans (if_neg (by rw [namesOnly_iff]; omega))

theorem takeClearRig_of_named {s : State} (hview : s.exc.view ≠ .halted) (slot : OrderSlot) {events : Word}
    (h : events.toNat < 32) : takeClearRig slot events s =
      writeOrderSlot slot (some .answered) (some .done) 0 (clearRigEvents events s) :=
  (if_neg hview).trans (if_pos ((namesOnly_iff 5 events).mpr h))

/-- The rig events by their positions. -/
theorem getLsbD_rigEvents (s : State) {j : Nat} (hj : j < 5) : (rigEvents s).getLsbD j =
    if j = 4 then s.psv.repeatedOutage else if j = 3 then s.lbp.probeBus else if j = 2 then s.tmb.clockLost
    else if j = 1 then s.exc.directiveBad else s.exc.misuseEvent := by
  simp only [rigEvents, getLsbD_assignBit _ _ _ hj]
  by_cases h : j = 0
  · rw [if_pos h, h]
  · simp only [if_neg h]
    split_ifs <;> first | rfl | omega

theorem rigEvents_clearRigEvents (events : Word) (s : State) :
    rigEvents (clearRigEvents events s) = rigEvents s &&& ~~~ events.setWidth 5 := by
  refine BitVec.eq_of_getLsbD_eq fun j hj => ?_
  rw [BitVec.getLsbD_and, BitVec.getLsbD_not, BitVec.getLsbD_setWidth, getLsbD_rigEvents _ hj, getLsbD_rigEvents _ hj]
  simp only [hj, decide_true, Bool.true_and]
  interval_cases j <;> rfl

/-- What a rig order answered leaves, but for the rig events. -/
def rigAnswered (slot : OrderSlot) (r : OrderOutcome) (s u : State) : Prop :=
  u.exc.orderImages[slot] = .answered ∧ u.exc.attn = s.exc.attn ||| 2#6 ∧ u.exc.misuse = s.exc.misuse
    ∧ u.exc.lastRejected = s.exc.lastRejected
    ∧ (windowCanonical s → readWord u.window (orderBase slot) = 3
      ∧ readWord u.window (orderBase slot + 0x14) = orderOutcomeCode (some r)
      ∧ readWord u.window (orderBase slot + 0x18) = 0
      ∧ ∀ a, a < orderBase slot ∨ (orderBase slot + 4 ≤ a ∧ a < orderBase slot + 0x14) ∨ orderBase slot + 0x1C ≤ a →
          readByte u.window a = readByte s.window a)

theorem rigAnswered_writeOrderSlot (slot : OrderSlot) (r : OrderOutcome) (s : State) :
    rigAnswered slot r s (writeOrderSlot slot (some .answered) (some r) 0 s) := by
  have hexc := writeOrderSlot_exc_some slot .answered (some r) 0 s
  refine ⟨?_, ?_, ?_, ?_, fun hs => ⟨readWord_writeOrderSlot_state hs _ _ _ _, readWord_writeOrderSlot_outcome hs _ _ _ _,
    readWord_writeOrderSlot_detail hs _ _ _ _, fun a ha => readByte_writeOrderSlot hs _ _ _ _ ha⟩⟩
  · rw [hexc]
    exact put_same _ _ _
  · rw [hexc]
    rfl
  · rw [hexc]
  · rw [hexc]

/-- An order slot's writing shows nothing of the rig. -/
theorem rigEvents_writeOrderSlot (slot : OrderSlot) (r : OrderOutcome) (s : State) :
    rigEvents (writeOrderSlot slot (some .answered) (some r) 0 s) = rigEvents s := by
  rw [writeOrderSlot_rest, writeOrderSlot_exc_some]
  rfl

/-- Settles O42. -/
theorem clearEventsClearsWhatItNames : Obligations.ClearEventsClearsWhatItNames := by
  intro s slot index events hacting station sector rig answer
  refine ⟨fun hview => ⟨fun h => ?_, fun st hst h => ?_⟩, fun hview => ⟨fun h => ?_, fun k hk h => ?_⟩, ?_⟩
  · exact leadsTo_of_taking (exec_clearEventsStation slot index events s) hacting
      (takeClearStation_of_nameless (by exact hview) slot h)
  · exact leadsTo_of_taking (exec_clearEventsStation slot index events s) hacting
      (takeClearStation_of_named (by exact hview) slot hst h)
  · exact leadsTo_of_taking (exec_clearEventsSector slot index events s) hacting
      (takeClearSector_of_nameless (by exact hview) slot h)
  · exact leadsTo_of_taking (exec_clearEventsSector slot index events s) hacting
      (takeClearSector_of_named (by exact hview) slot hk h)
  intro hview answers
  refine ⟨fun h => ?_, fun h => ?_⟩
  · have hrest := writeOrderSlot_rest slot (some .answered) (some .badArgument) 0 (took rig s)
    obtain ⟨himage, hattn, hmisuse, hrejected, hwindow⟩ := rigAnswered_writeOrderSlot slot .badArgument (took rig s)
    refine ⟨_, ⟨leadsTo_of_taking (exec_clearEventsRig slot events s) hacting
      (takeClearRig_of_nameless (by exact hview) slot h), himage, hattn, congrArg State.mail hrest, hmisuse, hrejected,
      hwindow⟩, rigEvents_writeOrderSlot slot _ _, (congrArg State.tmb hrest).trans rfl⟩
  · have hrest := writeOrderSlot_rest slot (some .answered) (some .done) 0 (clearRigEvents events (took rig s))
    obtain ⟨himage, hattn, hmisuse, hrejected, hwindow⟩ :=
      rigAnswered_writeOrderSlot slot .done (clearRigEvents events (took rig s))
    refine ⟨_, ⟨leadsTo_of_taking (exec_clearEventsRig slot events s) hacting
      (takeClearRig_of_named (by exact hview) slot h), himage, hattn, congrArg State.mail hrest, hmisuse, hrejected,
      hwindow⟩, (rigEvents_writeOrderSlot slot _ _).trans (rigEvents_clearRigEvents _ _), (congrArg State.tmb hrest).trans rfl⟩

end Sys2Proof.Machine
end

section
/-! PROOF. The Level Bus Poller: motion marks, the polls going round, replies and misses, and the deviation check (05). -/

namespace Sys2Proof.Machine

open Sys2Proof

/-! ## The check byte (05 R84) -/

theorem crc8_append (bytes : List Byte) (b : Byte) : crc8 (bytes ++ [b]) = crcByte (crc8 bytes) b := by
  rw [crc8, List.foldl_append]
  rfl

theorem isCrc8_crc8 : isCrc8 crc8 := by
  refine ⟨rfl, fun bytes b r hstart hshift => ?_⟩
  have hbit {i : Nat} (hi : i < 8) : r (i + 1) = crcBit (r i) := by
    obtain ⟨hone, hzero⟩ := hshift i hi
    cases hmsb : (r i).msb
    · rw [hzero hmsb, crcBit, if_neg (by simp [hmsb])]
    · rw [hone hmsb, crcBit, if_pos hmsb]
  rw [crc8_append, hbit (i := 7) (by omega), hbit (i := 6) (by omega), hbit (i := 5) (by omega), hbit (i := 4) (by omega),
    hbit (i := 3) (by omega), hbit (i := 2) (by omega), hbit (i := 1) (by omega), hbit (i := 0) (by omega), hstart, crcByte]

theorem crc8_zero_one : crc8 [0x00#8, 0x01#8] = 0x07#8 := by simp [crc8, crcByte, crcBit, BitVec.msb_eq_decide]

theorem crc8_one_one : crc8 [0x01#8, 0x01#8] = 0x12#8 := by simp [crc8, crcByte, crcBit, BitVec.msb_eq_decide]

/-! ## The polls go round (05 R86) -/

/-- The first of all numbers with a property. -/
theorem head?_filter_finRange {n : Nat} {p : Fin n → Bool} {x : Fin n} (h : ((List.finRange n).filter p).head? = some x) :
    p x = true ∧ ∀ y, y < x → p y = false := by
  rw [List.head?_filter, List.find?_eq_some_iff_append] at h
  obtain ⟨hx, before, after, hall, hbefore⟩ := h
  refine ⟨hx, fun y hy => ?_⟩
  have hsorted : (before ++ x :: after).Pairwise (· < ·) := hall ▸ List.pairwise_lt_finRange n
  have hmem : y ∈ before ++ x :: after := hall ▸ List.mem_finRange y
  rcases List.mem_append.mp hmem with hy' | hy'
  · simpa using hbefore y hy'
  · rcases List.mem_cons.mp hy' with rfl | hy'
    · exact absurd hy (lt_irrefl _)
    · have hafter := (List.pairwise_cons.mp (List.pairwise_append.mp hsorted).2.1).1 y hy'
      exact absurd hafter (lt_asymm hy)

theorem head_fittedStations {s : State} {st : Station} (h : (fittedStations s).head? = some st) :
    fitted s st = true ∧ ∀ x, x < st → fitted s x = false := head?_filter_finRange h

/-- The next station polled: the next fitted one above the present position, or else the lowest fitted one. -/
theorem nextPoll_some {s : State} {st : Station} (h : nextPoll s = some st) : fitted s st = true ∧
    ((∃ p, s.lbp.pollPosition = some p ∧ p < st ∧ ∀ x, p < x → x < st → fitted s x = false)
      ∨ ((∀ p, s.lbp.pollPosition = some p → ∀ x, p < x → fitted s x = false) ∧ ∀ x, x < st → fitted s x = false)) := by
  unfold nextPoll at h
  cases hposition : s.lbp.pollPosition with
  | none =>
    simp only [hposition] at h
    obtain ⟨hfitted, hlow⟩ := head_fittedStations h
    exact ⟨hfitted, .inr ⟨fun p hp => (nomatch hp), hlow⟩⟩
  | some p =>
    simp only [hposition, fittedStations, List.filter_filter] at h
    cases habove : (allStations.filter fun x => decide (p < x) && fitted s x).head? with
    | some x =>
      simp only [habove, Option.some.injEq] at h
      obtain rfl := h
      obtain ⟨hx, hlow⟩ := head?_filter_finRange habove
      obtain ⟨hlt, hfitted⟩ := (Bool.and_eq_true _ _).mp hx
      refine ⟨hfitted, .inl ⟨p, rfl, of_decide_eq_true hlt, fun y hpy hy => ?_⟩⟩
      simpa [hpy] using hlow y hy
    | none =>
      simp only [habove] at h
      obtain ⟨hfitted, hlow⟩ := head_fittedStations (s := s) h
      refine ⟨hfitted, .inr ⟨fun q hq x hx => ?_, hlow⟩⟩
      obtain rfl : p = q := Option.some.inj hq
      rw [List.head?_eq_none_iff, List.filter_eq_nil_iff] at habove
      simpa [hx] using habove x (List.mem_finRange x)

theorem takeTransactionBegin_of_idle {s : State} {st : Station} (hidle : s.lbp.transaction = .idle)
    (hnext : nextPoll s = some st) (hpolls : polls s.lbp.view = true) : takeTransactionBegin s = { s with lbp := { s.lbp with
      transaction := .query st, pollPosition := some st, lastEnd := none, bus := queryFrame st
      roundHeard := s.lbp.roundHeard && !decide ((fittedStations s).head? = some st) } } := by
  simp [takeTransactionBegin, hidle, hnext, hpolls, onLbp]

theorem takeTransactionBegin_of_not {s : State}
    (h : s.lbp.transaction ≠ .idle ∨ nextPoll s = none ∨ polls s.lbp.view = false) : takeTransactionBegin s = s := by
  unfold takeTransactionBegin
  split
  case h_1 hidle hnext =>
    rcases h with h | h | h
    · exact absurd hidle h
    · rw [h] at hnext
      cases hnext
    · exact if_neg (by rw [h]; decide)
  case h_2 => rfl

/-- Settles O43. -/
theorem motionMarksReadingsAndPollsGoRound : Obligations.MotionMarksReadingsAndPollsGoRound := by
  refine ⟨?_, ?_, isCrc8_crc8⟩
  · intro s st hacting
    refine ⟨fun hview => ?_, fun hview => ?_, leadsTo_of_whileActing (exec_readingMadeAbsent st s) hacting rfl,
      leadsTo_of_whileActing (exec_settleHoldEnd s) hacting rfl⟩
    · exact ⟨_, leadsTo_of_taking (exec_motionOnNotice s) hacting (if_neg hview), rfl, rfl, fun x => mapAll_get _ _ x⟩
    · exact leadsTo_of_taking (exec_motionOffNotice s) hacting (if_neg hview)
  · intro s st hacting frame
    refine ⟨fun h => ?_, fun h => ?_, nextPoll_none_iff s, nextPoll_some, fun hidle hnext hpolls => ?_, fun h => ?_, fun h => ?_,
      fun h => ?_, fun h => ?_⟩
    · unfold frame
      rw [h, crc8_zero_one]
    · unfold frame
      rw [h, crc8_one_one]
    · exact leadsTo_of_whileActing (exec_transactionBegin s) hacting (takeTransactionBegin_of_idle hidle hnext hpolls)
    · exact leadsTo_of_whileActing (exec_transactionBegin s) hacting (takeTransactionBegin_of_not h)
    · refine leadsTo_of_whileActing (exec_querySent s) hacting ?_
      simp only [takeQuerySent, h]
      rfl
    · refine leadsTo_of_whileActing (exec_querySent s) hacting ?_
      simp only [takeQuerySent, h]
      rfl
    · refine leadsTo_of_whileActing (exec_querySent s) hacting ?_
      unfold takeQuerySent
      split
      case h_1 x hx => exact absurd hx (h x).1
      case h_2 x hx => exact absurd hx (h x).2
      case h_3 => rfl

/-! ## The deviation check (05 R93 to R95) -/

theorem mem_comparedStations (s : State) (x : Station) : x ∈ comparedStations s ↔
    (recordOf s x).service = .active ∧ ∃ r, readingOf s x = some r ∧ r.status = .good
      ∧ r.inMotion = false ∧ (s.tmb.fineTime - r.taken).toNat < 1000 * s.psv.rig.freshnessLimit := by
  have hfresh : isFresh s x = true ↔ ∃ r, readingOf s x = some r ∧ r.status = .good
      ∧ r.inMotion = false ∧ (s.tmb.fineTime - r.taken).toNat < 1000 * s.psv.rig.freshnessLimit := by
    unfold isFresh
    cases readingOf s x with
    | none => simp
    | some r =>
      simp only [isFreshReading, Bool.and_eq_true, decide_eq_true_iff, Bool.not_eq_true', and_assoc, Option.some.injEq,
        exists_eq_left']
      rfl
  rw [comparedStations, List.mem_filter, hfresh, activeStations, List.mem_filter, isActive, decide_eq_true_iff]
  simp [mem_allStations]

theorem nodup_comparedStations (s : State) : (comparedStations s).Nodup :=
  ((List.nodup_finRange 64).filter _).filter _

/-- The elevation of a station, 0 with no reading. -/
theorem elevationOf_eq (s : State) (x : Station) :
    elevationOf s x = ((readingOf s x).map fun r => r.elevation.toInt).getD 0 := by
  unfold elevationOf
  cases readingOf s x <;> rfl

theorem scaledDifference_eq (s : State) (S : List Station) (x : Station) : scaledDifference s S x =
    ((S.length : Int) * ((readingOf s x).map fun r => r.elevation.toInt).getD 0
      - (S.map fun y => ((readingOf s y).map fun r => r.elevation.toInt).getD 0).sum)
    - (s.psv.rig.strokeLength : Int) * ((S.length : Int) * (recordOf s x).count
      - (S.map fun y => ((recordOf s y).count : Int)).sum) := by
  have hheights : elevationOf s = fun y => ((readingOf s y).map fun r => r.elevation.toInt).getD 0 :=
    funext (elevationOf_eq s)
  unfold scaledDifference
  rw [hheights]

section
variable {s : State} {st : Station} (hfresh : isFresh s st = true)
include hfresh

theorem checkDeviation_of_inactive (h : isActive s st = false) : checkDeviation st s = setEpisode st false s :=
  (if_pos hfresh).trans (if_neg (by rw [h]; decide))

theorem checkDeviation_of_unchecked (h : isActive s st = true)
    (hnot : s.psv.state ≠ .run ∨ (comparedStations s).length < 4) : checkDeviation st s = s :=
  (if_pos hfresh).trans ((if_pos h).trans (if_neg fun hp => hnot.elim (fun hstate => hstate hp.1)
    fun hfew => absurd hp.2 (Nat.not_le.mpr hfew)))

theorem checkDeviation_of_checked (h : isActive s st = true) (hrun : s.psv.state = .run)
    (hmany : 4 ≤ (comparedStations s).length) :
    checkDeviation st s = actOnCheck st (outOfTolerance s (comparedStations s) st) s :=
  (if_pos hfresh).trans ((if_pos h).trans (if_pos ⟨hrun, hmany⟩))

end

theorem actOnCheck_within (st : Station) (s : State) : actOnCheck st false s = setEpisode st false s := rfl

theorem actOnCheck_opens {st : Station} {s : State} (h : s.lbp.episodes[st] = false) :
    actOnCheck st true s = send (.markRequest st .deviation) (setEpisode st true s) := by
  simp [actOnCheck, h]

theorem actOnCheck_open {st : Station} {s : State} (h : s.lbp.episodes[st] = true) : actOnCheck st true s = s := by
  simp [actOnCheck, h]

/-- Settles O45. -/
theorem deviationChecksOpenOneEpisode : Obligations.DeviationChecksOpenOneEpisode := by
  intro s st hfresh out episode
  refine ⟨checkDeviation_of_inactive hfresh, checkDeviation_of_unchecked hfresh, fun hactive hrun hmany => ?_,
    mem_comparedStations s, nodup_comparedStations s, scaledDifference_eq s (comparedStations s)⟩
  rw [checkDeviation_of_checked hfresh hactive hrun hmany]
  have hwithin (h : ¬out) : outOfTolerance s (comparedStations s) st = false := decide_eq_false h
  have hout (h : out) : outOfTolerance s (comparedStations s) st = true := decide_eq_true h
  refine ⟨fun h => ?_, fun h hclosed => ?_, fun h hopen => ?_⟩
  · rw [hwithin h, actOnCheck_within]
    rfl
  · rw [hout h, actOnCheck_opens hclosed]
    rfl
  · rw [hout h, actOnCheck_open hopen]

/-- The check changes the episodes and sends marks. -/
theorem checkDeviation_rest (st : Station) (s : State) :
    ∃ episodes mail, checkDeviation st s = { s with lbp := { s.lbp with episodes := episodes }, mail := mail } := by
  have hsame : ∃ episodes mail, s = { s with lbp := { s.lbp with episodes := episodes }, mail := mail } := ⟨_, _, rfl⟩
  unfold checkDeviation actOnCheck
  split_ifs
  · exact ⟨_, _, rfl⟩
  · exact ⟨_, _, rfl⟩
  · exact hsame
  · exact hsame
  · exact ⟨_, _, rfl⟩
  · exact hsame

theorem checkDeviation_roundHeard (st : Station) (s : State) :
    (checkDeviation st s).lbp.roundHeard = s.lbp.roundHeard := by
  obtain ⟨episodes, mail, h⟩ := checkDeviation_rest st s
  rw [h]

/-! ## Replies (05 R85, R87 to R90) -/

/-- A frame that the station's cell sends. -/
def validReply (st : Station) (frame : List Byte) : Prop :=
  ∃ status e2 e1 e0, frame = [0xA5#8, BitVec.ofNat 8 st.1, status, e2, e1, e0,
    crc8 [BitVec.ofNat 8 st.1, status, e2, e1, e0]]

theorem judgeReply_of_valid (st : Station) (status e2 e1 e0 : Byte) :
    judgeReply st [0xA5#8, BitVec.ofNat 8 st.1, status, e2, e1, e0, crc8 [BitVec.ofNat 8 st.1, status, e2, e1, e0]] false =
      some ⟨e2 ++ e1 ++ e0, if status = 0 then .good else .cellFault⟩ := by
  simp [judgeReply, cellAddress]

theorem judgeReply_none_iff (st : Station) (frame : List Byte) : judgeReply st frame false = none ↔ ¬validReply st frame := by
  constructor
  · rintro h ⟨status, e2, e1, e0, rfl⟩
    rw [judgeReply_of_valid] at h
    cases h
  · intro h
    unfold judgeReply
    split
    case h_1 b1 b2 b3 b4 b5 b6 b7 =>
      refine if_neg fun hp => h ?_
      simp only [Bool.not_false, Bool.true_and, Bool.and_eq_true, beq_iff_eq] at hp
      obtain ⟨⟨rfl, rfl⟩, rfl⟩ := hp
      exact ⟨b3, b4, b5, b6, rfl⟩
    case h_2 => rfl

/-- The bytes of the reply in progress. -/
def heardBytes (s : State) : List Byte := (s.lbp.incoming.map Incoming.bytes).getD []

theorem arrived_bytes (bytes : List Byte) (s : State) : (arrived bytes s).bytes = heardBytes s ++ bytes := by
  unfold arrived heardBytes
  cases s.lbp.incoming <;> rfl

theorem replyInTime_of_late {s : State} {query : Word} (h : (s.lbp.incoming = none ∧ 4 < (s.tmb.fineTime - query).toNat)
    ∨ ∃ r, s.lbp.incoming = some r ∧ 2 < (s.tmb.fineTime - r.begun).toNat) : replyInTime query s = false := by
  unfold replyInTime
  rcases h with ⟨hnone, hlate⟩ | ⟨r, hsome, hlate⟩
  · rw [hnone]
    exact decide_eq_false (Nat.not_le.mpr hlate)
  · rw [hsome]
    exact decide_eq_false (Nat.not_le.mpr hlate)

theorem takeReplyFrame_of_await {s : State} {st : Station} {attempt : Attempt} {query : Word}
    (h : s.lbp.transaction = .await st attempt query) (bytes : List Byte) (framing : Bool) :
    takeReplyFrame bytes framing s = receive st attempt query bytes framing s := by
  simp [takeReplyFrame, h]

theorem takeReplyFrame_of_not {s : State} (h : ∀ x b w, s.lbp.transaction ≠ .await x b w) (bytes : List Byte)
    (framing : Bool) : takeReplyFrame bytes framing s = s := by
  unfold takeReplyFrame
  split
  case h_1 x b w hx => exact absurd hx (h x b w)
  case h_2 => rfl

theorem takeReplyTimeout_of_await {s : State} {st : Station} {attempt : Attempt} {query : Word}
    (h : s.lbp.transaction = .await st attempt query) : takeReplyTimeout s = failReply st attempt s := by
  simp [takeReplyTimeout, h]

theorem takeReplyTimeout_of_not {s : State} (h : ∀ x b w, s.lbp.transaction ≠ .await x b w) : takeReplyTimeout s = s := by
  unfold takeReplyTimeout
  split
  case h_1 x b w hx => exact absurd hx (h x b w)
  case h_2 => rfl

section
variable (st : Station) (attempt : Attempt) {query : Word} (bytes : List Byte) {s : State}

theorem receive_of_bad {framing : Bool} (h : framing = true ∨ replyInTime query s = false) :
    receive st attempt query bytes framing s = failReply st attempt s := by
  refine if_pos ?_
  rcases h with rfl | h
  · rfl
  · rw [h, Bool.or_comm]
    rfl

variable (hintime : replyInTime query s = true)
include hintime

theorem receive_of_full (h : 7 ≤ (heardBytes s ++ bytes).length) :
    receive st attempt query bytes false s = judgeArrived st attempt (heardBytes s ++ bytes) s := by
  rw [← arrived_bytes] at h ⊢
  exact (if_neg (by rw [hintime]; decide)).trans (if_pos h)

theorem receive_of_short (h : (heardBytes s ++ bytes).length < 7) (hsome : bytes ≠ []) :
    receive st attempt query bytes false s = { s with lbp := { s.lbp with incoming := some (arrived bytes s) } } := by
  rw [← arrived_bytes] at h
  exact (if_neg (by rw [hintime]; decide)).trans ((if_neg (Nat.not_le.mpr h)).trans (if_neg hsome))

end

theorem judgeArrived_of_valid {st : Station} {attempt : Attempt} {bytes : List Byte} {s : State} {status e2 e1 e0 : Byte}
    (h : bytes.take 7 = [0xA5#8, BitVec.ofNat 8 st.1, status, e2, e1, e0, crc8 [BitVec.ofNat 8 st.1, status, e2, e1, e0]]) :
    judgeArrived st attempt bytes s = takeReply st ⟨e2 ++ e1 ++ e0, if status = 0 then .good else .cellFault⟩ s := by
  unfold judgeArrived
  rw [show bytes.take Config.replyLength = _ from h, judgeReply_of_valid]

theorem judgeArrived_of_invalid {st : Station} {attempt : Attempt} {bytes : List Byte} {s : State}
    (h : ¬validReply st (bytes.take 7)) : judgeArrived st attempt bytes s = failReply st attempt s := by
  unfold judgeArrived
  rw [show judgeReply st (bytes.take Config.replyLength) false = none from (judgeReply_none_iff st _).mpr h]

/-- A transaction ends without a silent round. -/
theorem endTransaction_of_heard {st : Station} {s : State}
    (h : ¬((fittedStations s).getLast? = some st ∧ s.lbp.roundHeard = false) ∨ s.lbp.probeBus = true) :
    endTransaction st s = { s with lbp := { s.lbp with
      transaction := .idle, lastEnd := some s.tmb.fineTime, incoming := none } } := by
  by_cases hsilent : (fittedStations s).getLast? = some st ∧ s.lbp.roundHeard = false
  · exact (if_pos hsilent).trans (if_pos (h.resolve_left fun hnot => hnot hsilent))
  · exact if_neg hsilent

theorem endTransaction_of_silent {st : Station} {s : State} (hlast : (fittedStations s).getLast? = some st)
    (hsilent : s.lbp.roundHeard = false) (hbus : s.lbp.probeBus = false) :
    endTransaction st s = { s with
      lbp := { s.lbp with transaction := .idle, lastEnd := some s.tmb.fineTime, incoming := none, probeBus := true }
      mail := s.mail ++ [.attentionSetRequest .event] } :=
  (if_pos ⟨hlast, hsilent⟩).trans (if_neg fun hset => Bool.false_ne_true (hbus.symm.trans hset))

/-- A miss counted, and PROBE_LOST asked for at the eighth. -/
theorem takeMiss_eq (st : Station) (s : State) : takeMiss st s = { s with
    lbp := { s.lbp with missRuns := put s.lbp.missRuns st (min 8 (s.lbp.missRuns[st] + 1)) }
    mail := s.mail ++ if s.lbp.missRuns[st] + 1 = 8 then [.eventRequest st] else [] } := by
  by_cases h : s.lbp.missRuns[st] + 1 = 8
  · refine (if_pos (decide_eq_true h)).trans ?_
    rw [if_pos h]
    rfl
  · refine (if_neg fun hp => h (of_decide_eq_true hp)).trans ?_
    rw [if_neg h, List.append_nil]
    rfl

/-- The reading a valid reply gives. -/
def Reply.reading (r : Reply) (s : State) : Reading := ⟨r.elevation, r.status, s.tmb.fineTime, s.lbp.motion⟩

/-- A round is heard and the station's miss run is over. -/
def stationHeard (st : Station) (s : State) : State :=
  { s with lbp := { s.lbp with missRuns := put s.lbp.missRuns st 0, roundHeard := true } }

/-- The transaction over in a round that has been heard. -/
def transactionOver (s : State) : State :=
  { s with lbp := { s.lbp with transaction := .idle, lastEnd := some s.tmb.fineTime, incoming := none } }

theorem endTransaction_of_roundHeard {st : Station} {s : State} (h : s.lbp.roundHeard = true) :
    endTransaction st s = transactionOver s :=
  endTransaction_of_heard (.inl fun hp => Bool.false_ne_true (hp.2.symm.trans h))

theorem takeReply_of_held {st : Station} {s : State} (h : s.lbp.settleHold ≠ none) (r : Reply) :
    takeReply st r s = transactionOver (stationHeard st s) := by
  have hheld : s.lbp.settleHold.isSome = true := Option.isSome_iff_ne_none.mpr h
  have htake : takeReply st r s = endTransaction st (stationHeard st s) := by simp [takeReply, hheld, onLbp, stationHeard]
  rw [htake, endTransaction_of_roundHeard rfl]

theorem takeReply_of_free {st : Station} {s : State} (h : s.lbp.settleHold = none) (r : Reply) :
    takeReply st r s = endTransaction st (replaceReading st r (stationHeard st s)) := by
  simp [takeReply, h, onLbp, stationHeard]

/-- The reading of a station replaced. -/
def readingStored (st : Station) (r : Reading) (notice : List Instr) (s : State) : State :=
  { s with lbp := { s.lbp with readings := put s.lbp.readings st (some r) }, mail := s.mail ++ notice }

theorem replaceReading_of_fault {st : Station} {r : Reply} (h : r.status ≠ .good) (s : State) :
    replaceReading st r s = readingStored st (r.reading s) [] s := by
  refine (if_neg h).trans ?_
  rw [readingStored, List.append_nil]
  rfl

theorem replaceReading_of_good {st : Station} {r : Reply} (h : r.status = .good) (s : State) :
    replaceReading st r s = checkDeviation st
      (readingStored st (r.reading s) (if s.psv.state = .recovery then [.readingNotice st] else []) s) := by
  refine (if_pos h).trans (congrArg (checkDeviation st) ?_)
  by_cases hstate : s.psv.state = .recovery
  · rw [if_pos hstate, decide_eq_true hstate]
    rfl
  · rw [if_neg hstate, decide_eq_false hstate, readingStored, List.append_nil]
    rfl

theorem failReply_second (st : Station) (s : State) : failReply st .second s = endTransaction st (takeMiss st s) := rfl

/-- Settles O44. -/
theorem repliesReplaceReadingsOrAreMissed : Obligations.RepliesReplaceReadingsOrAreMissed := by
  refine ⟨?_, ?_, isCrc8_crc8⟩
  · intro s st attempt query status e2 e1 e0 before bytes hacting a r c begins goesOn heard stored ended
    have hlead {t : State} (hawait : s.lbp.transaction = .await st attempt query)
        (e : receive st attempt query bytes false s = t) : leadsTo c s t :=
      leadsTo_of_whileActing (exec_replyFrame bytes false s) hacting ((takeReplyFrame_of_await hawait bytes false).trans e)
    have hbegins (h : begins) : replyInTime query s = true ∧ heardBytes s = before := by
      obtain ⟨hnone, hempty, htime⟩ := h
      simp only [replyInTime, heardBytes, hnone]
      exact ⟨decide_eq_true htime, hempty.symm⟩
    have hgoes {b : Word} (h : goesOn b) : replyInTime query s = true ∧ heardBytes s = before := by
      obtain ⟨hsome, htime⟩ := h
      simp only [replyInTime, heardBytes, hsome]
      exact ⟨decide_eq_true htime, rfl⟩
    refine ⟨fun hawait hframe htime => ?_, fun hawait hshort hsome => ?_, fun hnot bs f => ?_⟩
    · obtain ⟨hintime, hheard⟩ : replyInTime query s = true ∧ heardBytes s = before :=
        htime.elim hbegins fun ⟨_, h⟩ => hgoes h
      have hfull : 7 ≤ (before ++ bytes).length := by
        have hlength : ((before ++ bytes).take 7).length = 7 := congrArg List.length hframe
        rw [List.length_take] at hlength
        omega
      have hreceive : receive st attempt query bytes false s =
          takeReply st ⟨e2 ++ e1 ++ e0, if status = 0 then .good else .cellFault⟩ s := by
        rw [receive_of_full st attempt bytes hintime (hheard ▸ hfull), hheard, judgeArrived_of_valid hframe]
      refine ⟨fun hheld => ?_, fun hfree hbad => ?_, fun hfree hgood => ?_⟩
      · exact hlead hawait (hreceive.trans (takeReply_of_held hheld _))
      · refine hlead hawait (hreceive.trans ((takeReply_of_free hfree _).trans ?_))
        rw [if_neg hbad, replaceReading_of_fault (r := ⟨_, _⟩) CellStatus.noConfusion, endTransaction_of_roundHeard rfl]
        simp only [r, stored, ended, if_neg hbad]
        rfl
      · refine hlead hawait (hreceive.trans ((takeReply_of_free hfree _).trans ?_))
        rw [if_pos hgood, replaceReading_of_good (r := ⟨_, _⟩) rfl,
          endTransaction_of_roundHeard ((checkDeviation_roundHeard _ _).trans rfl)]
        obtain ⟨episodes, mail, hcheck⟩ := checkDeviation_rest st
          (stored (if s.psv.state = .recovery then [.readingNotice st] else []))
        simp only [r, stored, if_pos hgood] at hcheck ⊢
        rw [hcheck]
        exact congrArg transactionOver hcheck
    · refine ⟨fun h => ?_, fun b h => ?_⟩
      · obtain ⟨hintime, hheard⟩ := hbegins h
        refine hlead hawait ((receive_of_short st attempt bytes hintime (by rw [hheard]; exact hshort) hsome).trans ?_)
        simp only [arrived, h.1]
        rfl
      · obtain ⟨hintime, hheard⟩ := hgoes h
        refine hlead hawait ((receive_of_short st attempt bytes hintime (by rw [hheard]; exact hshort) hsome).trans ?_)
        simp only [arrived, h.1]
    · exact leadsTo_of_whileActing (exec_replyFrame bs f s) hacting (takeReplyFrame_of_not hnot bs f)
  · intro s st query bytes framing hacting before late a valid bad fails
    have hfails {c : Instr} (h : ∀ attempt, s.lbp.transaction = .await st attempt query → leadsTo c s (failReply st attempt s)) :
        fails c := by
      refine ⟨fun hfirst => h .first hfirst, fun hsecond hheard => ?_, fun hsecond hsilent hbus => ?_⟩
      · have hmiss := h .second hsecond
        rw [failReply_second, endTransaction_of_heard (by rw [takeMiss_eq]; exact hheard), takeMiss_eq] at hmiss
        exact hmiss
      · have hmiss := h .second hsecond
        rw [failReply_second, endTransaction_of_silent (by rw [takeMiss_eq]; exact hsilent.1)
          (by rw [takeMiss_eq]; exact hsilent.2) (by rw [takeMiss_eq]; exact hbus), takeMiss_eq] at hmiss
        exact hmiss
    have heardBytes_eq : heardBytes s = before := by
      unfold heardBytes before
      cases s.lbp.incoming <;> rfl
    refine ⟨hfails fun attempt hawait => ?_, fun hbad => hfails fun attempt hawait => ?_, fun frame => ?_, fun hnot => ?_⟩
    · exact leadsTo_of_whileActing (exec_replyTimeout s) hacting (takeReplyTimeout_of_await hawait)
    · refine leadsTo_of_whileActing (exec_replyFrame bytes framing s) hacting
        ((takeReplyFrame_of_await hawait bytes framing).trans ?_)
      by_cases hfaulty : framing = true ∨ replyInTime query s = false
      · exact receive_of_bad st attempt bytes hfaulty
      obtain ⟨hframing, hintime⟩ := not_or.mp hfaulty
      rcases hbad with h | h | ⟨hfull, hinvalid⟩
      · exact absurd h hframing
      · exact absurd (replyInTime_of_late h) hintime
      · rw [← heardBytes_eq] at hfull hinvalid
        rw [Bool.eq_false_iff.mpr hframing, receive_of_full st attempt bytes (Bool.eq_true_of_not_eq_false hintime) hfull,
          judgeArrived_of_invalid hinvalid]
    · exact judgeReply_none_iff st frame
    · exact leadsTo_of_whileActing (exec_replyTimeout s) hacting (takeReplyTimeout_of_not hnot)

end Sys2Proof.Machine
end

section
/-! SUPPORT. What the shared operations of the Wave Controller come to: the least effective count, counts told, SHORT, the
drains sent and a retirement carried out (04 R57, R59, R60, R70, R81). -/

namespace Sys2Proof.Machine

open Sys2Proof

/-! ## The least effective count (04 R60) -/

theorem leastOf_none_iff (l : List Int) : leastOf l = none ↔ l = [] := by
  cases l with
  | nil => simp [leastOf]
  | cons z l =>
    unfold leastOf
    cases leastOf l <;> simp

theorem leastOf_spec {l : List Int} {m : Int} (h : leastOf l = some m) : m ∈ l ∧ ∀ z ∈ l, m ≤ z := by
  induction l generalizing m with
  | nil => cases h
  | cons z l ih =>
    unfold leastOf at h
    cases hl : leastOf l with
    | none =>
      rw [hl] at h
      obtain rfl : z = m := Option.some.inj h
      rw [(leastOf_none_iff l).mp hl]
      simp
    | some n =>
      rw [hl] at h
      obtain rfl : min z n = m := Option.some.inj h
      obtain ⟨hmem, hle⟩ := ih hl
      refine ⟨?_, fun x hx => ?_⟩
      · rcases Int.le_total z n with hzn | hzn
        · rw [Int.min_eq_left hzn]
          exact List.mem_cons_self
        · rw [Int.min_eq_right hzn]
          exact List.mem_cons_of_mem _ hmem
      · rcases List.mem_cons.mp hx with rfl | hx
        · exact Int.min_le_left _ _
        · exact Int.le_trans (Int.min_le_right _ _) (hle x hx)

theorem mem_activeStations (s : State) (x : Station) : x ∈ activeStations s ↔ (recordOf s x).service = .active := by
  simp [activeStations, isActive, mem_allStations]

theorem minEffective_none_iff (s : State) : minEffective s = none ↔ ∀ x, (recordOf s x).service ≠ .active := by
  rw [minEffective, leastOf_none_iff, List.map_eq_nil_iff, List.eq_nil_iff_forall_not_mem]
  simp only [mem_activeStations]

theorem minEffective_some {s : State} {m : Int} (h : minEffective s = some m) :
    (∃ x, (recordOf s x).service = .active ∧ effectiveCount s x = m)
      ∧ ∀ x, (recordOf s x).service = .active → m ≤ effectiveCount s x := by
  obtain ⟨hmem, hle⟩ := leastOf_spec h
  obtain ⟨x, hx, hm⟩ := List.mem_map.mp hmem
  exact ⟨⟨x, (mem_activeStations s x).mp hx, hm⟩,
    fun y hy => hle _ (List.mem_map_of_mem ((mem_activeStations s y).mpr hy))⟩

/-! ## Counts told (04 R70) -/

theorem credits_eq (p : DrainPurpose) : p.credits = !decide (p = .discard) := by cases p <;> rfl

/-- An owed counts-changed notice goes out: no phase end and no drain that may credit is open. -/
def tellsCounts (s : State) : Bool :=
  s.wvc.countsDirty && decide (s.wvc.ending = none) && s.wvc.drains.all fun d => decide (d.purpose = .discard)

theorem flushCounts_eq (s : State) : flushCounts s = { s with
    wvc := { s.wvc with countsDirty := s.wvc.countsDirty && !tellsCounts s }
    mail := s.mail ++ if tellsCounts s = true then [.countsChanged] else [] } := by
  have hending : s.wvc.ending.isNone = decide (s.wvc.ending = none) := by cases s.wvc.ending <;> simp
  have hdrains : (!(s.wvc.drains.any fun d => d.purpose.credits)) = s.wvc.drains.all fun d => decide (d.purpose = .discard) := by
    simp only [credits_eq, List.not_any_eq_all_not, Bool.not_not]
  have htells : (s.wvc.countsDirty && s.wvc.ending.isNone && !(s.wvc.drains.any fun d => d.purpose.credits)) =
      tellsCounts s := by rw [hending, hdrains, tellsCounts]
  unfold flushCounts
  rw [htells]
  cases h : tellsCounts s
  · rw [if_neg (by decide), if_neg (by decide), Bool.not_false, Bool.and_true, List.append_nil]
  · rw [if_pos rfl, if_pos rfl, Bool.not_true, Bool.and_false]
    rfl

/-! ## SHORT (04 R57, R59) -/

/-- A station's sector is short, and the climb in DWELL falls to HELD. -/
def fallsShort (st : Station) (s : State) : Bool := shortIn s (sectorOf st) && decide (s.wvc.climb = .dwell)

theorem evaluateShort_eq (st : Station) (s : State) : evaluateShort st s = { s with
    wvc := { s.wvc with
      holds := if shortIn s (sectorOf st) = true then s.wvc.holds ||| 0x10#6 else s.wvc.holds
      climb := if fallsShort st s = true then .held else s.wvc.climb }
    mail := s.mail ++ if fallsShort st s = true then [.attentionSetRequest .hold] else [] } := by
  unfold evaluateShort fallsShort
  cases hshort : shortIn s (sectorOf st)
  · simp only [Bool.false_and, Bool.false_eq_true, if_false, List.append_nil]
    rfl
  · by_cases hdwell : s.wvc.climb = .dwell
    · have hset : setClimb .held { s with wvc := { s.wvc with holds := setBit s.wvc.holds holdShort } } = { s with
          wvc := { s.wvc with holds := setBit s.wvc.holds holdShort, climb := .held }
          mail := s.mail ++ [.attentionSetRequest .hold] } := by
        rw [setClimb_eq, if_neg (by simp [hdwell])]
        rfl
      simp only [hdwell, decide_true, Bool.and_self, if_true]
      exact (if_pos hdwell).trans hset
    · simp only [hdwell, decide_false, Bool.and_false, Bool.false_eq_true, if_false, if_true, List.append_nil]
      exact if_neg hdwell

/-- The station's sector is short once the station acts no more. -/
def shortWithout (s : State) (st : Station) : Bool :=
  used s (sectorOf st) && decide (((stationsOf (sectorOf st)).filter fun x =>
    decide (x ≠ st) && decide ((recordOf s x).service = .active)).length < s.psv.rig.minActive)

theorem isActive_setRecord {r : StationRecord} (h : r.service ≠ .active) (s : State) (st x : Station) :
    isActive (setRecord s st r) x = (decide (x ≠ st) && decide ((recordOf s x).service = .active)) := by
  rw [isActive, recordOf_setRecord_ite]
  by_cases hx : x = st
  · rw [if_pos hx, hx]
    simp [h]
  · rw [if_neg hx]
    simp [hx]

theorem shortIn_setRecord {r : StationRecord} (h : r.service ≠ .active) (s : State) (st : Station) :
    shortIn (setRecord s st r) (sectorOf st) = shortWithout s st := by
  have hactive : activeIn (setRecord s st r) (sectorOf st) = (stationsOf (sectorOf st)).filter fun x =>
      decide (x ≠ st) && decide ((recordOf s x).service = .active) :=
    List.filter_congr fun x _ => isActive_setRecord h s st x
  rw [shortIn, hactive]
  rfl

/-! ## A retirement carried out (04 R81) -/

/-- The record of a station retired. -/
def StationRecord.retire (r : StationRecord) : StationRecord := { r with service := .retired, marks := 0, cleanRun := 0 }

theorem carryOutRetire_of_active {s : State} {st : Station} (h : (recordOf s st).service = .active) :
    carryOutRetire st s = { s with
      wvc := { s.wvc with
        table := put s.wvc.table st (recordOf s st).retire
        drains := s.wvc.drains ++ [⟨st, .discard⟩]
        holds := if shortWithout s st = true then s.wvc.holds ||| 0x10#6 else s.wvc.holds
        climb := if (shortWithout s st && decide (s.wvc.climb = .dwell)) = true then .held else s.wvc.climb
        countsDirty := true }
      mail := s.mail ++ [.drainQueue st, .closeWindow st, .offValve st]
        ++ if (shortWithout s st && decide (s.wvc.climb = .dwell)) = true then [.attentionSetRequest .hold] else [] } := by
  refine (if_pos h).trans ?_
  rw [evaluateShort_eq]
  have hshort : shortIn (send (.offValve st) (sendDrainClose .discard st (setRecord s st (recordOf s st).retire)))
      (sectorOf st) = shortWithout s st := shortIn_setRecord (r := (recordOf s st).retire) ServiceState.noConfusion s st
  have hfalls : fallsShort st (send (.offValve st) (sendDrainClose .discard st (setRecord s st (recordOf s st).retire))) =
      (shortWithout s st && decide (s.wvc.climb = .dwell)) := by
    rw [fallsShort, hshort]
    rfl
  have hmail : (send (.offValve st) (sendDrainClose .discard st (setRecord s st (recordOf s st).retire))).mail =
      s.mail ++ [.drainQueue st, .closeWindow st, .offValve st] := by
    simp [send, sendDrainClose, sendDrain, setRecord]
  rw [show ({ recordOf s st with service := .retired, marks := 0, cleanRun := 0 } : StationRecord) =
    (recordOf s st).retire from rfl, hshort, hfalls, hmail]
  rfl

theorem carryOutRetire_of_inactive {s : State} {st : Station} (h : (recordOf s st).service ≠ .active) :
    carryOutRetire st s = { s with
      wvc := { s.wvc with
        table := put s.wvc.table st (recordOf s st).retire
        holds := if shortWithout s st = true then s.wvc.holds ||| 0x10#6 else s.wvc.holds
        climb := if (shortWithout s st && decide (s.wvc.climb = .dwell)) = true then .held else s.wvc.climb }
      mail := s.mail
        ++ if (shortWithout s st && decide (s.wvc.climb = .dwell)) = true then [.attentionSetRequest .hold] else [] } := by
  refine (if_neg h).trans ?_
  rw [evaluateShort_eq]
  have hshort : shortIn (setRecord s st (recordOf s st).retire) (sectorOf st) = shortWithout s st :=
    shortIn_setRecord (r := (recordOf s st).retire) ServiceState.noConfusion s st
  have hfalls : fallsShort st (setRecord s st (recordOf s st).retire) =
      (shortWithout s st && decide (s.wvc.climb = .dwell)) := by
    rw [fallsShort, hshort]
    rfl
  rw [show ({ recordOf s st with service := .retired, marks := 0, cleanRun := 0 } : StationRecord) =
    (recordOf s st).retire from rfl, hshort, hfalls]
  rfl

theorem carryOutRetire_eq (st : Station) (s : State) :
    let acts : Bool := decide ((recordOf s st).service = .active)
    let falls : Bool := shortWithout s st && decide (s.wvc.climb = .dwell)
    carryOutRetire st s = { s with
      wvc := { s.wvc with
        table := put s.wvc.table st (recordOf s st).retire
        drains := if acts = true then s.wvc.drains ++ [⟨st, .discard⟩] else s.wvc.drains
        holds := if shortWithout s st = true then s.wvc.holds ||| 0x10#6 else s.wvc.holds
        climb := if falls = true then .held else s.wvc.climb
        countsDirty := s.wvc.countsDirty || acts }
      mail := s.mail ++ (if acts = true then [.drainQueue st, .closeWindow st, .offValve st] else [])
        ++ if falls = true then [.attentionSetRequest .hold] else [] } := by
  intro acts falls
  by_cases h : (recordOf s st).service = .active
  · have hacts : acts = true := decide_eq_true h
    rw [carryOutRetire_of_active h, hacts, if_pos rfl, if_pos rfl, Bool.or_true]
  · have hacts : acts = false := decide_eq_false h
    rw [carryOutRetire_of_inactive h, hacts, if_neg Bool.false_ne_true, if_neg Bool.false_ne_true, Bool.or_false,
      List.append_nil]

end Sys2Proof.Machine
end

section
/-! PROOF. REQUALIFY and RETIRE (04 R79 to R82). -/

namespace Sys2Proof.Machine

open Sys2Proof

/-! ## REQUALIFY -/

theorem inBand_iff (s : State) (st : Station) (count : Nat) : inBand s st count = true ↔
    (∀ x, (recordOf s x).service = .active →
        (count : Int) - s.wvc.values.trims[st] < effectiveCount s x + s.psv.rig.levelBand)
      ∧ ((∃ x, (recordOf s x).service = .active) → ∃ x, (recordOf s x).service = .active
        ∧ effectiveCount s x ≤ (count : Int) - s.wvc.values.trims[st]) := by
  unfold inBand
  cases h : minEffective s with
  | none =>
    have hnone := (minEffective_none_iff s).mp h
    simp [hnone]
  | some m =>
    obtain ⟨⟨x, hx, rfl⟩, hle⟩ := minEffective_some h
    simp only [Bool.and_eq_true, decide_eq_true_eq]
    generalize (count : Int) - s.wvc.values.trims[st] = e
    constructor
    · rintro ⟨hlow, hhigh⟩
      refine ⟨fun y hy => ?_, fun _ => ⟨x, hx, hlow⟩⟩
      have := hle y hy
      omega
    · rintro ⟨hhigh, hlow⟩
      obtain ⟨y, hy, hye⟩ := hlow ⟨x, hx⟩
      have := hle y hy
      have := hhigh x hx
      omega

theorem takeRequalify_of_outcome {s : State} (hview : s.wvc.view ≠ .halted) {slot : OrderSlot} {station count : Word}
    {r : OrderOutcome} (h : requalifyOutcome s station count = r) (hr : r ≠ .done) :
    takeRequalify slot station count s = answerOrder slot r s := by
  refine (if_neg hview).trans ?_
  rw [h]
  split
  case h_1 => exact absurd rfl hr
  case h_2 => rfl

theorem takeRequalify_of_done {s : State} (hview : s.wvc.view ≠ .halted) {slot : OrderSlot} {station count : Word}
    {st : Station} (hst : stationOf station = some st) (h : requalifyOutcome s station count = .done) :
    takeRequalify slot station count s = answerOrder slot .done (carryOutRequalify st count.toNat s) := by
  refine (if_neg hview).trans ?_
  rw [h, hst]

theorem requalifyOutcome_of_bad {s : State} {station count : Word} (h : 64 ≤ station.toNat ∨ 65535 < count.toNat) :
    requalifyOutcome s station count = .badArgument := by
  unfold requalifyOutcome
  by_cases hstation : 64 ≤ station.toNat
  · rw [stationOf_of_ge hstation]
  · rw [stationOf_of_eq (st := ⟨station.toNat, by omega⟩) rfl]
    exact if_pos (h.resolve_left hstation)

section
variable {s : State} {station count : Word} {st : Station} (hst : st.1 = station.toNat) (hcount : count.toNat ≤ 65535)
include hst hcount

theorem requalifyOutcome_of_named : requalifyOutcome s station count =
    if (recordOf s st).service = .absent ∨ (recordOf s st).service = .active then .wrongState
    else if inWave s = true then .busy else if inBand s st count.toNat = true then .done else .badArgument := by
  unfold requalifyOutcome
  rw [stationOf_of_eq hst]
  refine (if_neg (Nat.not_lt.mpr hcount)).trans ?_
  cases hservice : (recordOf s st).service <;> simp

end

/-- The record of a station requalified at a count. -/
def StationRecord.requalify (r : StationRecord) (count : Nat) : StationRecord :=
  { r with service := .active, count := count, marks := 0, cleanRun := 0, inDoubt := false, retirePending := none }

theorem carryOutRequalify_eq (st : Station) (count : Nat) (s : State) :
    let tells : Bool := decide (s.wvc.ending = none) && s.wvc.drains.all fun d => decide (d.purpose = .discard)
    carryOutRequalify st count s = { s with
      wvc := { s.wvc with table := put s.wvc.table st ((recordOf s st).requalify count), countsDirty := !tells }
      mail := s.mail ++ [.strayReset st, .faultReset st, .restValve st] ++ if tells = true then [.countsChanged] else [] } := by
  intro tells
  have hunfold : carryOutRequalify st count s = flushCounts (oweCounts (sendAll [.strayReset st, .faultReset st, .restValve st]
      (setRecord s st ((recordOf s st).requalify count)))) := rfl
  rw [hunfold, flushCounts_eq]
  have htells : tellsCounts (oweCounts (sendAll [.strayReset st, .faultReset st, .restValve st]
      (setRecord s st ((recordOf s st).requalify count)))) = tells := by
    simp only [tellsCounts, oweCounts_wvc, Bool.true_and]
    rfl
  rw [htells]
  rfl

/-! ## RETIRE -/

section
variable {s : State} (hview : s.wvc.view ≠ .halted) {slot : OrderSlot} {station : Word}
include hview

theorem takeRetire_of_nameless (h : 64 ≤ station.toNat) :
    takeRetire slot station s = answerOrder slot .badArgument s := by
  refine (if_neg hview).trans ?_
  rw [stationOf_of_ge h]

variable {st : Station} (hst : st.1 = station.toNat)
include hst

theorem takeRetire_of_absent (h : (recordOf s st).service = .absent) :
    takeRetire slot station s = answerOrder slot .wrongState s := by
  refine (if_neg hview).trans ?_
  simp only [stationOf_of_eq hst, h]

theorem takeRetire_of_retired (h : (recordOf s st).service = .retired) :
    takeRetire slot station s = answerOrder slot .done s := by
  refine (if_neg hview).trans ?_
  simp only [stationOf_of_eq hst, h]

variable (h : (recordOf s st).service = .active ∨ (recordOf s st).service = .barred)
include h

theorem takeRetire_of_standing : takeRetire slot station s =
    if isParticipant s st = true then
      if (recordOf s st).retirePending.isSome = true then answerOrder slot .busy s
      else send (.orderOutcome slot .taken) (setRecord s st { recordOf s st with retirePending := some slot })
    else answerOrder slot .done (flushCounts (carryOutRetire st s)) := by
  refine (if_neg hview).trans ?_
  rcases h with h | h <;> simp only [stationOf_of_eq hst, h]

end

/-- Settles O41. -/
theorem stationsAreRequalifiedAndRetired : Obligations.StationsAreRequalifiedAndRetired := by
  refine ⟨?_, ?_⟩
  · intro s slot station count hacting hview c answered out
    have hanswered {r : OrderOutcome} (h : requalifyOutcome s station count = r) (hr : r ≠ .done) : answered r :=
      leadsTo_of_taking (exec_requalify slot station count s) hacting (takeRequalify_of_outcome (by exact hview) h hr)
    refine ⟨fun hbad => hanswered (requalifyOutcome_of_bad hbad) (by decide), fun st hst hcount => ?_⟩
    have houtcome := requalifyOutcome_of_named (s := s) hst hcount
    intro r e inBand
    have hstanding (h : r.service = .barred ∨ r.service = .retired) :
        ¬(r.service = .absent ∨ r.service = .active) := by
      rcases h with h | h <;> rw [h] <;> decide
    refine ⟨fun h => hanswered (houtcome.trans (if_pos h)) (by decide), fun h hwave => ?_, fun h hwave hband => ?_,
      fun h hwave hband => ?_⟩
    · exact hanswered (houtcome.trans ((if_neg (hstanding h)).trans (if_pos hwave))) (by decide)
    · refine hanswered (houtcome.trans ((if_neg (hstanding h)).trans ((if_neg (by rw [hwave]; decide)).trans (if_neg ?_))))
        (by decide)
      rw [inBand_iff]
      exact hband
    · have hdone : requalifyOutcome s station count = .done :=
        houtcome.trans ((if_neg (hstanding h)).trans ((if_neg (by rw [hwave]; decide)).trans
          (if_pos ((inBand_iff s st count.toNat).mpr hband))))
      intro tells
      refine leadsTo_of_taking (exec_requalify slot station count s) hacting
        ((takeRequalify_of_done (s := took c s) hview (stationOf_of_eq hst) hdone).trans ?_)
      rw [carryOutRequalify_eq]
      rfl
  · intro s slot station hacting hview c answered
    have hlead {t : State} (e : takeRetire slot station (took c s) = t) : leadsTo c s t :=
      leadsTo_of_taking (exec_retire slot station s) hacting e
    refine ⟨fun h => hlead (takeRetire_of_nameless (by exact hview) h), fun st hst => ?_⟩
    intro r
    refine ⟨fun h => hlead (takeRetire_of_absent (by exact hview) hst h),
      fun h => hlead (takeRetire_of_retired (by exact hview) hst h), fun h hpart => ⟨fun hpending => ?_, fun hfree => ?_⟩,
      fun h hpart => ?_⟩
    · exact hlead ((takeRetire_of_standing (s := took c s) hview hst h).trans
        ((if_pos hpart).trans (if_pos (Option.isSome_iff_ne_none.mpr hpending))))
    · exact hlead ((takeRetire_of_standing (s := took c s) hview hst h).trans
        ((if_pos hpart).trans (if_neg fun hp => Option.isSome_iff_ne_none.mp hp hfree)))
    · intro acts short falls owed tells
      refine hlead ((takeRetire_of_standing (s := took c s) hview hst h).trans
        ((if_neg fun hp => Bool.false_ne_true (hpart.symm.trans hp)).trans ?_))
      have htells : tellsCounts (carryOutRetire st (took c s)) = tells := by
        rw [carryOutRetire_eq]
        unfold tellsCounts tells
        refine congrArg (fun b => (owed && decide (s.wvc.ending = none)) && b) ?_
        change List.all (if acts = true then s.wvc.drains ++ [⟨st, .discard⟩] else s.wvc.drains) _ = _
        cases acts <;> simp
      rw [flushCounts_eq, htells, carryOutRetire_eq]
      rfl

end Sys2Proof.Machine
end

section
/-! SUPPORT. How the phases of a wave end: the drains of a phase end, what follows their last answer, and the deferred
RETIREs carried out at the end of the wave (04 R62 to R69, R72, R82). -/

namespace Sys2Proof.Machine

open Sys2Proof

/-! ## Who takes part -/

/-- The stations that take part, in ascending order. -/
def takingPart (s : State) : List Station := allStations.filter fun st => (itemOf s st).participant

theorem inWave_iff (s : State) : inWave s = true ↔ s.wvc.climb = .drive ∨ s.wvc.climb = .settle := by
  simp [inWave]

theorem participants_of_inWave {s : State} (h : inWave s = true) : participants s = takingPart s :=
  List.filter_congr fun st _ => by rw [isParticipant, h, Bool.true_and]

theorem participants_of_not_inWave {s : State} (h : inWave s = false) : participants s = [] := by
  unfold participants isParticipant
  simp [h]

theorem participants_of_settle {s : State} (h : s.wvc.climb = .settle) : participants s = takingPart s :=
  participants_of_inWave ((inWave_iff s).mpr (.inr h))

theorem participants_of_drive {s : State} (h : s.wvc.climb = .drive) : participants s = takingPart s :=
  participants_of_inWave ((inWave_iff s).mpr (.inl h))

theorem participants_congr {s t : State} (hclimb : t.wvc.climb = s.wvc.climb)
    (hitem : ∀ x, (itemOf t x).participant = (itemOf s x).participant) : participants t = participants s :=
  List.filter_congr fun x _ => by rw [isParticipant, isParticipant, inWave, inWave, hclimb, hitem]

theorem participants_mapItems {f : WaveItem → WaveItem} (hf : ∀ i, (f i).participant = i.participant) (s : State) :
    participants (mapItems f s) = participants s := by
  refine participants_congr ?_ fun x => by rw [itemOf_mapItems, hf]
  unfold mapItems
  generalize mapAll s.wvc.wave f = wave
  rfl

theorem mem_takingPart (s : State) (x : Station) : x ∈ takingPart s ↔ (itemOf s x).participant = true := by
  simp [takingPart, mem_allStations]

theorem nodup_takingPart (s : State) : (takingPart s).Nodup := (List.nodup_finRange 64).filter _

theorem awaitEmpty_iff (s : State) : awaitEmpty s = true ↔
    ∀ x, ¬((itemOf s x).participant = true ∧ (itemOf s x).awaited = true) := by
  rw [awaitEmpty, Bool.not_eq_true', anyOf_false_iff]
  refine forall_congr' fun x => ?_
  rw [← Bool.not_eq_true, Bool.and_eq_true]
  rfl

theorem noDrain_iff (p : DrainPurpose) (s : State) : noDrain p s = true ↔ ∀ d ∈ s.wvc.drains, d.purpose ≠ p := by
  simp [noDrain]

/-! ## The drains of a phase end -/

theorem forEach_sendDrain (p : DrainPurpose) (xs : List Station) (s : State) : forEach xs (sendDrain p) s = { s with
    wvc := { s.wvc with drains := s.wvc.drains ++ xs.map fun x => ⟨x, p⟩ }
    mail := s.mail ++ xs.map Instr.drainQueue } := by
  induction xs generalizing s with
  | nil => simp [forEach]
  | cons x xs ih =>
    have hstep : forEach (x :: xs) (sendDrain p) s = forEach xs (sendDrain p) (sendDrain p x s) := rfl
    rw [hstep, ih]
    simp [sendDrain, send]

theorem forEach_sendDrain_mapItems (p : DrainPurpose) (xs : List Station) (f : WaveItem → WaveItem) (s : State) :
    forEach xs (sendDrain p) (mapItems f s) = { s with
      wvc := { s.wvc with wave := mapAll s.wvc.wave f, drains := s.wvc.drains ++ xs.map fun x => ⟨x, p⟩ }
      mail := s.mail ++ xs.map Instr.drainQueue } := by
  rw [forEach_sendDrain]
  unfold mapItems
  generalize mapAll s.wvc.wave f = wave
  rfl

/-- A station's items as DRIVE ends: nobody is awaited, and a wind-down notes who has not reported (04 R63, R77). -/
def WaveItem.driveOver (woundDown : Bool) (i : WaveItem) : WaveItem :=
  { i with awaited := false, unreported := woundDown && i.participant && i.awaited }

/-- DRIVE over, its participants being drained for judgement. -/
def driveEnded (woundDown : Bool) (s : State) : State := { s with
  wvc := { s.wvc with
    climb := .settle, driveTimer := none, ending := some .driveEnd
    wave := mapAll s.wvc.wave (WaveItem.driveOver woundDown)
    drains := s.wvc.drains ++ (takingPart s).map fun x => ⟨x, .driveEnd⟩ }
  mail := s.mail ++ (takingPart s).map Instr.drainQueue }

theorem itemOf_driveEnded (woundDown : Bool) (s : State) (x : Station) :
    itemOf (driveEnded woundDown s) x = (itemOf s x).driveOver woundDown := mapAll_get _ _ x

theorem driveEnded_spec (woundDown : Bool) (s : State) : (driveEnded woundDown s).wvc.climb = .settle
    ∧ (driveEnded woundDown s).wvc.ending = some .driveEnd ∧ (driveEnded woundDown s).wvc.driveTimer = none
    ∧ (driveEnded woundDown s).wvc.table = s.wvc.table
    ∧ (driveEnded woundDown s).mail = s.mail ++ (takingPart s).map Instr.drainQueue := by
  unfold driveEnded
  generalize mapAll s.wvc.wave (WaveItem.driveOver woundDown) = wave
  exact ⟨rfl, rfl, rfl, rfl, rfl⟩

theorem takingPart_driveEnded (woundDown : Bool) (s : State) : takingPart (driveEnded woundDown s) = takingPart s :=
  List.filter_congr fun x _ => by rw [itemOf_driveEnded]; rfl

theorem noDrain_driveEnded_iff (woundDown : Bool) (s : State) : noDrain .driveEnd (driveEnded woundDown s) = true ↔
    takingPart s = [] ∧ ∀ d ∈ s.wvc.drains, d.purpose ≠ .driveEnd := by
  rw [noDrain_iff]
  constructor
  · intro h
    refine ⟨List.eq_nil_iff_forall_not_mem.mpr fun x hx => ?_, fun d hd => h d (List.mem_append_left _ hd)⟩
    exact h ⟨x, .driveEnd⟩ (List.mem_append_right _ (List.mem_map_of_mem hx)) rfl
  · rintro ⟨hnone, hdrains⟩ d hd
    have hd : d ∈ s.wvc.drains ++ (takingPart s).map fun x => ⟨x, .driveEnd⟩ := hd
    rw [hnone, List.map_nil, List.append_nil] at hd
    exact hdrains d hd

theorem beginDriveEnd_eq (woundDown : Bool) (s : State) : beginDriveEnd woundDown s =
    if noDrain .driveEnd (driveEnded woundDown s) = true then finishDriveEnd (driveEnded woundDown s)
    else driveEnded woundDown s := by
  have hparticipants : participants (mapItems (WaveItem.driveOver woundDown)
      { s with wvc := { s.wvc with climb := .settle, driveTimer := none, ending := some .driveEnd } }) = takingPart s := by
    refine (participants_of_settle rfl).trans (List.filter_congr fun x _ => ?_)
    rw [itemOf_mapItems]
    rfl
  have hdrained : forEach (takingPart s) (sendDrain .driveEnd) (mapItems (WaveItem.driveOver woundDown)
      { s with wvc := { s.wvc with climb := .settle, driveTimer := none, ending := some .driveEnd } }) =
        driveEnded woundDown s := forEach_sendDrain_mapItems _ _ _ _
  rw [← hdrained, ← hparticipants]
  rfl

theorem beginDriveEnd_of_drains {woundDown : Bool} {s : State}
    (h : takingPart s ≠ [] ∨ ∃ d ∈ s.wvc.drains, d.purpose = .driveEnd) :
    beginDriveEnd woundDown s = driveEnded woundDown s := by
  rw [beginDriveEnd_eq, if_neg]
  rw [noDrain_driveEnded_iff]
  rintro ⟨hnone, hdrains⟩
  exact h.elim (fun hsome => hsome hnone) fun ⟨d, hd, hp⟩ => hdrains d hd hp

theorem beginDriveEnd_of_none {woundDown : Bool} {s : State} (hnone : takingPart s = [])
    (hdrains : ∀ d ∈ s.wvc.drains, d.purpose ≠ .driveEnd) :
    beginDriveEnd woundDown s = finishDriveEnd (driveEnded woundDown s) := by
  rw [beginDriveEnd_eq, if_pos ((noDrain_driveEnded_iff _ _).mpr ⟨hnone, hdrains⟩)]

/-- SETTLE begun: its await set, its timers, and the valves of those who take part (04 R63, R65). -/
def settleBegun (s : State) : State := { s with
  wvc := { s.wvc with
    ending := none
    wave := mapAll s.wvc.wave WaveItem.awaitSettle
    settleTimer := some ⟨s.tmb.fineTime, 1000 * s.psv.rig.settleTimeout⟩
    fallTimer := some ⟨s.tmb.fineTime, s.psv.rig.fallRamp⟩ }
  mail := s.mail ++ (participants s).map Instr.closeValve }

theorem itemOf_settleBegun (s : State) (x : Station) : itemOf (settleBegun s) x = (itemOf s x).awaitSettle :=
  mapAll_get _ _ x

/-- The timers of SETTLE started. -/
def waitForFall (s : State) : State := { s with wvc := { s.wvc with
  settleTimer := some ⟨s.tmb.fineTime, 1000 * s.psv.rig.settleTimeout⟩
  fallTimer := some ⟨s.tmb.fineTime, s.psv.rig.fallRamp⟩ } }

theorem waitForFall_sendAll_mapItems (f : WaveItem → WaveItem) (cs : List Instr) (s : State) :
    waitForFall (sendAll cs (mapItems f s)) = { s with
      wvc := { s.wvc with
        wave := mapAll s.wvc.wave f
        settleTimer := some ⟨s.tmb.fineTime, 1000 * s.psv.rig.settleTimeout⟩
        fallTimer := some ⟨s.tmb.fineTime, s.psv.rig.fallRamp⟩ }
      mail := s.mail ++ cs } := by
  unfold mapItems
  generalize mapAll s.wvc.wave f = wave
  rfl

theorem finishDriveEnd_eq (s : State) : finishDriveEnd s = flushCounts (settleBegun s) := by
  have hparticipants : participants (mapItems WaveItem.awaitSettle { s with wvc := { s.wvc with ending := none } }) =
      participants s :=
    (participants_mapItems (f := WaveItem.awaitSettle) (fun _ => rfl) _).trans (participants_congr rfl fun _ => rfl)
  have hunfold : finishDriveEnd s = flushCounts (waitForFall (sendAll ((participants (mapItems WaveItem.awaitSettle
      { s with wvc := { s.wvc with ending := none } })).map Instr.closeValve) (mapItems WaveItem.awaitSettle
        { s with wvc := { s.wvc with ending := none } }))) := rfl
  rw [hunfold, hparticipants, waitForFall_sendAll_mapItems]
  rfl

/-- SETTLE over, its participants being drained for judgement. -/
def settleEnded (s : State) : State := { s with
  wvc := { s.wvc with
    settleTimer := none, fallTimer := none, ending := some .settleEnd
    drains := s.wvc.drains ++ (participants s).map fun x => ⟨x, .settleEnd⟩ }
  mail := s.mail ++ .motionOffNotice :: (participants s).map Instr.drainQueue }

theorem beginSettleEnd_eq (s : State) : beginSettleEnd s =
    if noDrain .settleEnd (settleEnded s) = true then finishSettleEnd (settleEnded s) else settleEnded s := by
  have hdrained : forEach (participants s) (sendDrain .settleEnd) (send .motionOffNotice { s with wvc := { s.wvc with
      settleTimer := none, fallTimer := none, ending := some .settleEnd } }) = settleEnded s := by
    rw [forEach_sendDrain, send, settleEnded, List.append_assoc]
    rfl
  rw [← hdrained]
  rfl

theorem noDrain_settleEnded_iff (s : State) : noDrain .settleEnd (settleEnded s) = true ↔
    participants s = [] ∧ ∀ d ∈ s.wvc.drains, d.purpose ≠ .settleEnd := by
  rw [noDrain_iff]
  constructor
  · intro h
    refine ⟨List.eq_nil_iff_forall_not_mem.mpr fun x hx => ?_, fun d hd => h d (List.mem_append_left _ hd)⟩
    exact h ⟨x, .settleEnd⟩ (List.mem_append_right _ (List.mem_map_of_mem hx)) rfl
  · rintro ⟨hnone, hdrains⟩ d hd
    have hd : d ∈ s.wvc.drains ++ (participants s).map fun x => ⟨x, .settleEnd⟩ := hd
    rw [hnone, List.map_nil, List.append_nil] at hd
    exact hdrains d hd

theorem beginSettleEnd_of_drains {s : State} (h : participants s ≠ [] ∨ ∃ d ∈ s.wvc.drains, d.purpose = .settleEnd) :
    beginSettleEnd s = settleEnded s := by
  rw [beginSettleEnd_eq, if_neg]
  rw [noDrain_settleEnded_iff]
  rintro ⟨hnone, hdrains⟩
  exact h.elim (fun hsome => hsome hnone) fun ⟨d, hd, hp⟩ => hdrains d hd hp

theorem beginSettleEnd_of_none {s : State} (hnone : participants s = [])
    (hdrains : ∀ d ∈ s.wvc.drains, d.purpose ≠ .settleEnd) : beginSettleEnd s = finishSettleEnd (settleEnded s) := by
  rw [beginSettleEnd_eq, if_pos ((noDrain_settleEnded_iff s).mpr ⟨hnone, hdrains⟩)]

/-! ## A phase that may end -/

theorem checkPhase_of_ending {s : State} (h : s.wvc.ending ≠ none) : checkPhase s = s :=
  if_pos (Option.isSome_iff_ne_none.mpr h)

section
variable {s : State} (hending : s.wvc.ending = none)
include hending

theorem checkPhase_of_drive (h : s.wvc.climb = .drive) :
    checkPhase s = if awaitEmpty s = true then beginDriveEnd false s else s := by
  simp [checkPhase, hending, h]

theorem checkPhase_of_settle (h : s.wvc.climb = .settle) : checkPhase s =
    if awaitEmpty s = true ∧ s.wvc.fallTimer = none then beginSettleEnd s else s := by
  simp [checkPhase, hending, h]

theorem checkPhase_of_calm (hdrive : s.wvc.climb ≠ .drive) (hsettle : s.wvc.climb ≠ .settle) : checkPhase s = s := by
  unfold checkPhase
  rw [hending]
  cases h : s.wvc.climb
  · rfl
  · rfl
  · exact absurd h hdrive
  · exact absurd h hsettle

end

/-! ## Deferred RETIREs carried out (04 R82) -/

/-- What a deferred RETIRE of a station has sent and left owing, once carried out. -/
def retireTold (x : Station) (r : StationRecord) (u : State) : Prop :=
  ∀ slot, r.retirePending = some slot → .orderOutcome slot (.outcome .done 0) ∈ u.mail
    ∧ (r.service = .active → [.drainQueue x, .closeWindow x, .offValve x] ⊆ u.mail ∧ u.wvc.countsDirty = true)

/-- Messages stay sent and counts stay owed. -/
structure TellsOn (s u : State) : Prop where
  mail : s.mail <+: u.mail
  owed : s.wvc.countsDirty = true → u.wvc.countsDirty = true

theorem TellsOn.refl (s : State) : TellsOn s s := ⟨List.prefix_rfl, id⟩

theorem TellsOn.trans {s t u : State} (h : TellsOn s t) (h' : TellsOn t u) : TellsOn s u :=
  ⟨h.mail.trans h'.mail, fun hd => h'.owed (h.owed hd)⟩

theorem retireTold.mono {x : Station} {r : StationRecord} {s u : State} (h : retireTold x r s) (hu : TellsOn s u) :
    retireTold x r u := fun slot hslot => by
  obtain ⟨hanswer, hactive⟩ := h slot hslot
  refine ⟨hu.mail.subset hanswer, fun ha => ?_⟩
  obtain ⟨hsent, howed⟩ := hactive ha
  exact ⟨fun c hc => hu.mail.subset (hsent hc), hu.owed howed⟩

theorem carryOutDeferred_of_none {s : State} {st : Station} (h : (recordOf s st).retirePending = none) :
    carryOutDeferred st s = s := by
  simp [carryOutDeferred, h]

theorem carryOutDeferred_of_some {s : State} {st : Station} {slot : OrderSlot}
    (h : (recordOf s st).retirePending = some slot) : carryOutDeferred st s = send (.orderOutcome slot (.outcome .done 0))
      (carryOutRetire st (setRecord s st { recordOf s st with retirePending := none })) := by
  simp [carryOutDeferred, h]

theorem tellsOn_carryOutRetire (st : Station) (s : State) : TellsOn s (carryOutRetire st s) := by
  rw [carryOutRetire_eq]
  refine ⟨?_, fun h => ?_⟩
  · exact (List.prefix_append _ _).trans (List.prefix_append _ _)
  · exact (Bool.or_eq_true _ _).mpr (.inl h)

theorem tellsOn_carryOutDeferred (st : Station) (s : State) : TellsOn s (carryOutDeferred st s) := by
  cases h : (recordOf s st).retirePending with
  | none =>
    rw [carryOutDeferred_of_none h]
    exact .refl s
  | some slot =>
    rw [carryOutDeferred_of_some h]
    obtain ⟨hmail, howed⟩ := tellsOn_carryOutRetire st (setRecord s st { recordOf s st with retirePending := none })
    exact ⟨hmail.trans (List.prefix_append _ _), howed⟩

theorem retireTold_carryOutDeferred (st : Station) (s : State) :
    retireTold st (recordOf s st) (carryOutDeferred st s) := fun slot hslot => by
  rw [carryOutDeferred_of_some hslot]
  refine ⟨List.mem_append_right _ List.mem_cons_self, fun hactive => ?_⟩
  have hrecord : (recordOf (setRecord s st { recordOf s st with retirePending := none }) st).service = .active := by
    rw [recordOf_setRecord_ite, if_pos rfl]
    exact hactive
  rw [carryOutRetire_of_active hrecord]
  refine ⟨fun c hc => List.mem_append_left _ (List.mem_append_left _ (List.mem_append_right _ hc)), rfl⟩

theorem recordOf_carryOutDeferred_other {st x : Station} (h : x ≠ st) (s : State) :
    recordOf (carryOutDeferred st s) x = recordOf s x := by
  obtain ⟨hrecords, -⟩ := carryOutDeferred_spec st s
  exact (hrecords x).trans (if_neg h)

theorem carryOutEach_tells (xs : List Station) (s : State) (hnodup : xs.Nodup) :
    TellsOn s (forEach xs carryOutDeferred s)
      ∧ ∀ x ∈ xs, retireTold x (recordOf s x) (forEach xs carryOutDeferred s) := by
  induction xs generalizing s with
  | nil => exact ⟨.refl s, nofun⟩
  | cons y xs ih =>
    obtain ⟨hy, hxs⟩ := List.nodup_cons.mp hnodup
    obtain ⟨htells, hrest⟩ := ih (carryOutDeferred y s) hxs
    have hstep : forEach (y :: xs) carryOutDeferred s = forEach xs carryOutDeferred (carryOutDeferred y s) := rfl
    rw [hstep]
    refine ⟨(tellsOn_carryOutDeferred y s).trans htells, fun x hx => ?_⟩
    obtain rfl | hx := List.mem_cons.mp hx
    · exact (retireTold_carryOutDeferred x s).mono htells
    · have hne : x ≠ y := fun h => hy (h ▸ hx)
      rw [← recordOf_carryOutDeferred_other hne s]
      exact hrest x hx

theorem carryOutAllDeferred_of_none {s : State} (h : ∀ x, (recordOf s x).retirePending = none) :
    carryOutAllDeferred s = s := by
  have hlist (xs : List Station) : forEach xs carryOutDeferred s = s := by
    induction xs with
    | nil => rfl
    | cons x xs ih =>
      have hstep : forEach (x :: xs) carryOutDeferred s = forEach xs carryOutDeferred (carryOutDeferred x s) := rfl
      rw [hstep, carryOutDeferred_of_none (h x), ih]
  exact hlist allStations

/-- The deferred RETIREs of all stations carried out. -/
structure AllRetired (s u : State) : Prop where
  records : ∀ x, recordOf u x = retiredRecord (recordOf s x)
  rest : ∃ T D H C DR M, u = { s with wvc := { s.wvc with table := T, countsDirty := D, holds := H, climb := C, drains := DR }
                                      mail := M }
  discards : (∀ d ∈ s.wvc.drains, d.purpose = .discard) → ∀ d ∈ u.wvc.drains, d.purpose = .discard
  tells : TellsOn s u
  told : ∀ x, retireTold x (recordOf s x) u

theorem allRetired_carryOutAllDeferred (s : State) : AllRetired s (carryOutAllDeferred s) := by
  have hnodup : allStations.Nodup := List.nodup_finRange 64
  unfold carryOutAllDeferred
  obtain ⟨hrecords, hrest, hdiscards, -⟩ := carryOutEach_spec allStations hnodup s
  obtain ⟨htells, htold⟩ := carryOutEach_tells allStations s hnodup
  exact ⟨fun x => by rw [hrecords, if_pos (mem_allStations x)], hrest, hdiscards, htells,
    fun x => htold x (mem_allStations x)⟩

theorem retiredRecord_of_none {r : StationRecord} (h : r.retirePending = none) : retiredRecord r = r := by
  simp [retiredRecord, h]

theorem retiredRecord_of_some {r : StationRecord} {slot : OrderSlot} (h : r.retirePending = some slot) :
    retiredRecord r = { r with service := .retired, marks := 0, cleanRun := 0, retirePending := none } := by
  simp [retiredRecord, h]

/-- Counts once owed are told, where nothing holds them back. -/
theorem mem_flushCounts {s : State} (howed : s.wvc.countsDirty = true) (hending : s.wvc.ending = none)
    (hdrains : ∀ d ∈ s.wvc.drains, d.purpose = .discard) : .countsChanged ∈ (flushCounts s).mail := by
  have htells : tellsCounts s = true := by
    simp only [tellsCounts, howed, hending, decide_true, Bool.true_and, List.all_eq_true, decide_eq_true_eq]
    exact hdrains
  rw [flushCounts_eq, htells]
  exact List.mem_append_right _ List.mem_cons_self

theorem prefix_flushCounts (s : State) : s.mail <+: (flushCounts s).mail := by
  rw [flushCounts_eq]
  exact List.prefix_append _ _

/-! ## The end of a wave (04 R67, R69, R72) -/

/-- The climb that follows a wave. -/
def climbBehind (s : State) : Climb := if s.wvc.view = .run ∧ s.psv.state = .run ∧ s.wvc.holds = 0 then .dwell else .held

theorem climbBehind_eq (s : State) : climbBehind s = .dwell ∨ climbBehind s = .held := by
  unfold climbBehind
  split_ifs
  · exact .inl rfl
  · exact .inr rfl

theorem climbBehind_of_not_run {s : State} (h : s.wvc.view ≠ .run) : climbBehind s = .held := if_neg fun hp => h hp.1

theorem climbAfterWave_eq (s : State) : climbAfterWave s =
    sendAll (if s.wvc.view = .stopping then [.waveEnded] else []) (setClimb (climbBehind s) s) := by
  by_cases hrun : s.wvc.view = .run
  · have hclimb : climbBehind s = if s.psv.state = .run ∧ s.wvc.holds = 0 then .dwell else .held := by
      simp only [climbBehind, hrun, true_and]
    rw [hclimb, hrun, if_neg (show ¬PartState.run = .stopping by decide), sendAll_nil]
    simp only [climbAfterWave, hrun]
  by_cases hstopping : s.wvc.view = .stopping
  · rw [climbBehind_of_not_run hrun, if_pos hstopping]
    simp only [climbAfterWave, hstopping]
    rfl
  rw [climbBehind_of_not_run hrun, if_neg hstopping, sendAll_nil]
  unfold climbAfterWave
  split
  case h_1 h => exact absurd h hrun
  case h_2 h => exact absurd h hstopping
  case h_3 => rfl

theorem climbAfterWave_wvc (s : State) : (climbAfterWave s).wvc = { s.wvc with climb := climbBehind s } := by
  rw [climbAfterWave_eq, sendAll_wvc, setClimb_wvc]

theorem climbAfterWave_mail {s : State} (h : s.wvc.climb ≠ .held) : (climbAfterWave s).mail = s.mail
    ++ (if climbBehind s = .dwell then [] else [.attentionSetRequest .hold])
    ++ if s.wvc.view = .stopping then [.waveEnded] else [] := by
  rw [climbAfterWave_eq, sendAll_mail, setClimb_eq, sendAll_mail]
  have hboth : (if (s.wvc.climb = .held) = (climbBehind s = .held) then ([] : List Instr) else [.attentionSetRequest .hold]) =
      if climbBehind s = .dwell then [] else [.attentionSetRequest .hold] := by
    rcases climbBehind_eq s with hc | hc <;> simp [hc, h]
  rw [hboth]

theorem prefix_climbAfterWave (s : State) : s.mail <+: (climbAfterWave s).mail := by
  rw [climbAfterWave_eq, sendAll_mail, setClimb_eq, sendAll_mail]
  exact (List.prefix_append _ _).trans (List.prefix_append _ _)

/-- The record of a participant at the end of a wave (04 R72). -/
def cleanedRecord (s : State) (x : Station) : StationRecord :=
  if (itemOf s x).participant = true ∧ (itemOf s x).clean = true then (recordOf s x).cleanWave else recordOf s x

theorem updateClean_alone : ActsAlone recordOf updateClean
    fun s x => (if (itemOf s x).clean = true then (recordOf s x).cleanWave else recordOf s x, []) where
  same x s := by
    unfold updateClean
    split
    · rw [recordOf_setRecord_ite, if_pos rfl]
    · rfl
  other x y s h := by
    unfold updateClean
    split
    · rw [recordOf_setRecord_ite, if_neg (Ne.symm h)]
    · rfl
  mail x s := by
    rw [List.append_nil]
    unfold updateClean
    split <;> rfl
  apart x y s h := by
    have hitem : itemOf (updateClean x s) y = itemOf s y := by
      unfold updateClean
      split <;> rfl
    have hrecord : recordOf (updateClean x s) y = recordOf s y := by
      unfold updateClean
      split
      · rw [recordOf_setRecord_ite, if_neg (Ne.symm h)]
      · rfl
    rw [hitem, hrecord]

theorem forEach_updateClean_rest (xs : List Station) (s : State) :
    ∃ T, forEach xs updateClean s = { s with wvc := { s.wvc with table := T } } := by
  induction xs generalizing s with
  | nil => exact ⟨_, rfl⟩
  | cons x xs ih =>
    have hstep : forEach (x :: xs) updateClean s = forEach xs updateClean (updateClean x s) := rfl
    have hone : ∃ T, updateClean x s = { s with wvc := { s.wvc with table := T } } := by
      unfold updateClean
      split
      · exact ⟨_, rfl⟩
      · exact ⟨_, rfl⟩
    obtain ⟨T, hT⟩ := hone
    obtain ⟨T', hT'⟩ := ih (updateClean x s)
    exact ⟨T', by rw [hstep, hT', hT]⟩

/-- The commands that close a wave: the windows, and then the valves (04 R67). -/
def closingCommands (s : State) : List Instr :=
  (takingPart s).map Instr.closeWindow ++ (takingPart s).map (settleCommand s)

/-- The clean runs of the participants updated and the wave's commands sent. -/
def waveClosed (s : State) : State :=
  forEach (participants s) updateClean (sendAll ((participants s).map Instr.closeWindow
    ++ (participants s).map (settleCommand s)) { s with wvc := { s.wvc with ending := none } })

theorem finishSettleEnd_eq (s : State) :
    finishSettleEnd s = climbAfterWave (flushCounts (carryOutAllDeferred (waveClosed s))) := rfl

theorem waveClosed_rest {s : State} (h : s.wvc.climb = .settle) : ∃ T, waveClosed s = { s with
    wvc := { s.wvc with ending := none, table := T }, mail := s.mail ++ closingCommands s } := by
  obtain ⟨T, hT⟩ := forEach_updateClean_rest (participants s) (sendAll ((participants s).map Instr.closeWindow
    ++ (participants s).map (settleCommand s)) { s with wvc := { s.wvc with ending := none } })
  refine ⟨T, hT.trans ?_⟩
  rw [participants_of_settle h]
  rfl

theorem recordOf_waveClosed {s : State} (h : s.wvc.climb = .settle) (x : Station) :
    recordOf (waveClosed s) x = cleanedRecord s x := by
  have hnodup : (participants s).Nodup := (List.nodup_finRange 64).filter _
  obtain ⟨hdone, hleft, -⟩ := updateClean_alone.doneAt (participants s) (sendAll ((participants s).map Instr.closeWindow
    ++ (participants s).map (settleCommand s)) { s with wvc := { s.wvc with ending := none } }) hnodup
  have hmem : x ∈ participants s ↔ (itemOf s x).participant = true := by rw [participants_of_settle h, mem_takingPart]
  unfold cleanedRecord
  by_cases hx : (itemOf s x).participant = true
  · refine (hdone x (hmem.mpr hx)).trans ?_
    simp only [hx, true_and]
    rfl
  · refine (hleft x (mt hmem.mp hx)).trans ?_
    rw [if_neg fun hp => hx hp.1]
    rfl

theorem retirePending_cleanedRecord (s : State) (x : Station) :
    (cleanedRecord s x).retirePending = (recordOf s x).retirePending := by
  unfold cleanedRecord StationRecord.cleanWave
  split_ifs <;> rfl

theorem service_cleanedRecord (s : State) (x : Station) : (cleanedRecord s x).service = (recordOf s x).service := by
  unfold cleanedRecord StationRecord.cleanWave
  split_ifs <;> rfl

/-- What the end of a wave leaves. -/
structure WaveOver (s u : State) : Prop where
  rest : ∃ T D H C DR M, u = { s with
    wvc := { s.wvc with ending := none, table := T, countsDirty := D, holds := H, climb := C, drains := DR }, mail := M }
  climb : u.wvc.climb = if s.wvc.view = .run ∧ s.psv.state = .run ∧ u.wvc.holds = 0 then .dwell else .held
  mail : s.mail ++ closingCommands s <+: u.mail
  records : ∀ x, recordOf u x = retiredRecord (cleanedRecord s x)
  told : ∀ x slot, (recordOf s x).retirePending = some slot → .orderOutcome slot (.outcome .done 0) ∈ u.mail
    ∧ ((recordOf s x).service = .active → [.drainQueue x, .closeWindow x, .offValve x] ⊆ u.mail
      ∧ ((∀ d ∈ s.wvc.drains, d.purpose = .discard) → .countsChanged ∈ u.mail))

theorem waveOver_finishSettleEnd {s : State} (h : s.wvc.climb = .settle) : WaveOver s (finishSettleEnd s) := by
  obtain ⟨T, hclosed⟩ := waveClosed_rest h
  have hrecords := recordOf_waveClosed h
  obtain ⟨hretired, ⟨T', D, H, C, DR, M, hrest⟩, hdiscards, ⟨hmail, howed⟩, htold⟩ :=
    allRetired_carryOutAllDeferred (waveClosed s)
  rw [finishSettleEnd_eq]
  generalize hv : carryOutAllDeferred (waveClosed s) = v at *
  rw [hclosed] at hrest
  obtain ⟨⟨D', M', hflush⟩, -⟩ := flushCounts_spec v
  have hsent : (flushCounts v).mail <+: (climbAfterWave (flushCounts v)).mail := prefix_climbAfterWave _
  have hsubset : v.mail <+: (climbAfterWave (flushCounts v)).mail := (prefix_flushCounts v).trans hsent
  have hwvc := climbAfterWave_wvc (flushCounts v)
  have hall : climbAfterWave (flushCounts v) = { flushCounts v with
      wvc := { (flushCounts v).wvc with climb := climbBehind (flushCounts v) }
      mail := (climbAfterWave (flushCounts v)).mail } := by
    rw [← hwvc]
    exact waveless_eq (waveless_climbAfterWave _)
  refine ⟨?_, ?_, ?_, fun x => ?_, fun x slot hslot => ?_⟩
  · rw [hall, hflush, hrest]
    exact ⟨_, _, _, _, _, _, rfl⟩
  · rw [hwvc, climbBehind, hflush, hrest]
  · rw [hclosed] at hmail
    exact hmail.trans hsubset
  · have htable : recordOf (climbAfterWave (flushCounts v)) x = recordOf v x := by
      unfold recordOf
      rw [hwvc, hflush]
    rw [htable, hretired, hrecords]
  · have hpending : (recordOf (waveClosed s) x).retirePending = some slot := by
      rw [hrecords, retirePending_cleanedRecord]
      exact hslot
    obtain ⟨hanswer, hactive⟩ := htold x slot hpending
    refine ⟨hsubset.subset hanswer, fun ha => ?_⟩
    obtain ⟨hthree, hdirty⟩ := hactive (by rw [hrecords, service_cleanedRecord]; exact ha)
    refine ⟨fun c hc => hsubset.subset (hthree hc), fun hd => hsent.subset (mem_flushCounts hdirty ?_ ?_)⟩
    · rw [hrest]
    · refine hdiscards ?_
      rw [hclosed]
      exact hd

/-- What the end of a wave leaves where no RETIRE waits. -/
theorem finishSettleEnd_of_none {s : State} (h : s.wvc.climb = .settle) (hnone : ∀ x, (recordOf s x).retirePending = none) :
    let tells : Bool := s.wvc.countsDirty && s.wvc.drains.all fun d => decide (d.purpose = .discard)
    (finishSettleEnd s).wvc.drains = s.wvc.drains ∧ (finishSettleEnd s).wvc.holds = s.wvc.holds
      ∧ (finishSettleEnd s).mail = s.mail ++ closingCommands s ++ (if tells = true then [.countsChanged] else [])
        ++ (if (finishSettleEnd s).wvc.climb = .dwell then [] else [.attentionSetRequest .hold])
        ++ if s.wvc.view = .stopping then [.waveEnded] else [] := by
  intro tells
  obtain ⟨T, hclosed⟩ := waveClosed_rest h
  have hpending : ∀ x, (recordOf (waveClosed s) x).retirePending = none := fun x => by
    rw [recordOf_waveClosed h, retirePending_cleanedRecord]
    exact hnone x
  rw [finishSettleEnd_eq, carryOutAllDeferred_of_none hpending]
  have htells : tellsCounts (waveClosed s) = tells := by
    rw [hclosed, tellsCounts]
    simp only [decide_true, Bool.and_true]
    rfl
  have hflush := flushCounts_eq (waveClosed s)
  rw [htells, hclosed] at hflush
  rw [hclosed, hflush]
  refine ⟨by rw [climbAfterWave_wvc], by rw [climbAfterWave_wvc], ?_⟩
  rw [climbAfterWave_mail (by simp [h]), climbAfterWave_wvc]

end Sys2Proof.Machine
end

section
/-! PROOF. The dwell expiry, the timers of a wave, and the stations counted in (04 R55, R56, R62 to R67). -/

namespace Sys2Proof.Machine

open Sys2Proof

/-! ## The dwell expiry -/

theorem takeDwellExpiry_of_due {s : State} (hview : s.wvc.view ≠ .halted) (hdwell : s.wvc.climb = .dwell)
    (hrate : s.wvc.values.riseRate ≠ 0) : takeDwellExpiry s = beginEvaluation s :=
  (if_neg hview).trans (if_pos ⟨hdwell, hrate⟩)

theorem takeDwellExpiry_of_idle {s : State} (hview : s.wvc.view ≠ .halted)
    (h : s.wvc.climb ≠ .dwell ∨ s.wvc.values.riseRate = 0 ∨ s.wvc.permission = true) : takeDwellExpiry s = s := by
  by_cases hdue : s.wvc.climb = .dwell ∧ s.wvc.values.riseRate ≠ 0
  · obtain ⟨hdwell, hrate⟩ := hdue
    rw [takeDwellExpiry_of_due hview hdwell hrate]
    rcases h with h | h | h
    · exact absurd hdwell h
    · exact absurd h hrate
    · exact beginEvaluation_of_begun h
  · exact (if_neg hview).trans (if_neg hdue)

/-! ## The timers -/

section
variable {s : State} (hview : s.wvc.view ≠ .halted)
include hview

theorem takeDriveTimer_of_driving (hdrive : s.wvc.climb = .drive) (htimer : s.wvc.driveTimer ≠ none)
    (hending : s.wvc.ending = none) : takeDriveTimer s = beginDriveEnd false s :=
  (if_neg hview).trans (if_pos ⟨hdrive, Option.isSome_iff_ne_none.mpr htimer, hending⟩)

theorem takeDriveTimer_of_not (h : ¬(s.wvc.climb = .drive ∧ s.wvc.driveTimer ≠ none ∧ s.wvc.ending = none)) :
    takeDriveTimer s = s :=
  (if_neg hview).trans (if_neg fun ⟨hdrive, htimer, hending⟩ => h ⟨hdrive, Option.isSome_iff_ne_none.mp htimer, hending⟩)

theorem takeSettleTimer_of_settling (hsettle : s.wvc.climb = .settle) (htimer : s.wvc.settleTimer ≠ none)
    (hending : s.wvc.ending = none) : takeSettleTimer s = beginSettleEnd s :=
  (if_neg hview).trans (if_pos ⟨hsettle, Option.isSome_iff_ne_none.mpr htimer, hending⟩)

theorem takeSettleTimer_of_not (h : ¬(s.wvc.climb = .settle ∧ s.wvc.settleTimer ≠ none ∧ s.wvc.ending = none)) :
    takeSettleTimer s = s :=
  (if_neg hview).trans (if_neg fun ⟨hsettle, htimer, hending⟩ => h ⟨hsettle, Option.isSome_iff_ne_none.mp htimer, hending⟩)

theorem takeFallTimer_of_settling (hsettle : s.wvc.climb = .settle) (htimer : s.wvc.fallTimer ≠ none)
    (hending : s.wvc.ending = none) : takeFallTimer s = checkPhase { s with wvc := { s.wvc with fallTimer := none } } :=
  (if_neg hview).trans (if_pos ⟨hsettle, Option.isSome_iff_ne_none.mpr htimer, hending⟩)

theorem takeFallTimer_of_not (h : ¬(s.wvc.climb = .settle ∧ s.wvc.fallTimer ≠ none ∧ s.wvc.ending = none)) :
    takeFallTimer s = s :=
  (if_neg hview).trans (if_neg fun ⟨hsettle, htimer, hending⟩ => h ⟨hsettle, Option.isSome_iff_ne_none.mp htimer, hending⟩)

end

/-- SETTLE over, its drains sent (04 R67). -/
theorem settleEnded_spec {s : State} (h : s.wvc.climb = .settle) : (settleEnded s).wvc.climb = .settle
    ∧ (settleEnded s).wvc.ending = some .settleEnd ∧ (settleEnded s).wvc.settleTimer = none
    ∧ (settleEnded s).wvc.fallTimer = none ∧ (settleEnded s).wvc.table = s.wvc.table
    ∧ (settleEnded s).mail = s.mail ++ .motionOffNotice :: (participants s).map Instr.drainQueue :=
  ⟨h, rfl, rfl, rfl, rfl, rfl⟩

/-- A wave over at once, with nobody left to drain. -/
theorem finishSettleEnd_settleEnded {s : State} (h : s.wvc.climb = .settle) :
    (finishSettleEnd (settleEnded s)).wvc.ending = none
    ∧ ((finishSettleEnd (settleEnded s)).wvc.climb = .held ∨ (finishSettleEnd (settleEnded s)).wvc.climb = .dwell)
    ∧ (finishSettleEnd (settleEnded s)).wvc.settleTimer = none ∧ (finishSettleEnd (settleEnded s)).wvc.fallTimer = none
    ∧ .motionOffNotice ∈ (finishSettleEnd (settleEnded s)).mail := by
  obtain ⟨⟨T, D, H, C, DR, M, hrest⟩, hclimb, hmail, -, -⟩ := waveOver_finishSettleEnd (s := settleEnded s) h
  refine ⟨by rw [hrest], ?_, by rw [hrest]; rfl, by rw [hrest]; rfl, hmail.subset ?_⟩
  · rw [hclimb]
    split_ifs
    · exact .inr rfl
    · exact .inl rfl
  · exact List.mem_append_left _ (List.mem_append_right _ List.mem_cons_self)

/-- SETTLE begun at once, with nobody left to drain. -/
theorem finishDriveEnd_driveEnded (woundDown : Bool) (s : State) :
    let u := finishDriveEnd (driveEnded woundDown s)
    u.wvc.climb = .settle ∧ u.wvc.ending = none ∧ u.wvc.driveTimer = none
      ∧ u.wvc.settleTimer = some ⟨s.tmb.fineTime, 1000 * s.psv.rig.settleTimeout⟩
      ∧ u.wvc.fallTimer = some ⟨s.tmb.fineTime, s.psv.rig.fallRamp⟩ := by
  intro u
  have hflush : u = flushCounts (settleBegun (driveEnded woundDown s)) := finishDriveEnd_eq _
  rw [flushCounts_eq] at hflush
  rw [hflush]
  exact ⟨rfl, rfl, rfl, rfl, rfl⟩

/-- Settles O38. -/
theorem dwellAndWaveTimersAct : Obligations.DwellAndWaveTimersAct := by
  refine ⟨?_, ?_⟩
  · intro s hacting hview
    refine ⟨fun hdwell hrate hfree => ?_, fun h => ?_⟩
    · exact leadsTo_of_whileActing (exec_dwellExpiry s) hacting
        ((takeDwellExpiry_of_due hview hdwell hrate).trans (beginEvaluation_of_free hfree))
    · exact leadsTo_of_whileActing (exec_dwellExpiry s) hacting (takeDwellExpiry_of_idle hview h)
  · intro s hacting hview ps ended finished driving none_ settling
    have hended {c : Instr} (h : s.wvc.climb = .settle) (e : leadsTo c s (settleEnded s)) : ended c :=
      ⟨_, e, settleEnded_spec h⟩
    have hfinished {c : Instr} (h : s.wvc.climb = .settle) (e : leadsTo c s (finishSettleEnd (settleEnded s))) :
        finished c := ⟨_, e, finishSettleEnd_settleEnded h⟩
    refine ⟨?_, ?_, fun h => leadsTo_of_whileActing (exec_driveTimerExpiry s) hacting (takeDriveTimer_of_not hview h), ?_,
      fun h => leadsTo_of_whileActing (exec_settleTimerExpiry s) hacting (takeSettleTimer_of_not hview h), ?_,
      fun h => leadsTo_of_whileActing (exec_fallTimerExpiry s) hacting (takeFallTimer_of_not hview h)⟩
    · rintro ⟨hdrive, htimer, hending⟩ hsome
      have hps : ps = takingPart s := participants_of_drive hdrive
      obtain ⟨hclimb, hend, hover, htable, hmail⟩ := driveEnded_spec false s
      refine ⟨driveEnded false s, leadsTo_of_whileActing (exec_driveTimerExpiry s) hacting
        ((takeDriveTimer_of_driving hview hdrive htimer hending).trans (beginDriveEnd_of_drains (.inl (hps ▸ hsome)))),
        hclimb, hend, hover, htable, fun st => ?_, ?_⟩
      · rw [itemOf_driveEnded]
        exact ⟨rfl, rfl⟩
      · rw [hps, hmail]
    · rintro ⟨hdrive, htimer, hending⟩ hnone hdrains
      have hps : ps = takingPart s := participants_of_drive hdrive
      exact ⟨_, leadsTo_of_whileActing (exec_driveTimerExpiry s) hacting
        ((takeDriveTimer_of_driving hview hdrive htimer hending).trans (beginDriveEnd_of_none (hps ▸ hnone) hdrains)),
        finishDriveEnd_driveEnded false s⟩
    · rintro ⟨hsettle, htimer, hending⟩
      have htake := takeSettleTimer_of_settling hview hsettle htimer hending
      refine ⟨fun hsome => hended hsettle ?_, fun hnone hdrains => hfinished hsettle ?_⟩
      · exact leadsTo_of_whileActing (exec_settleTimerExpiry s) hacting (htake.trans (beginSettleEnd_of_drains (.inl hsome)))
      · exact leadsTo_of_whileActing (exec_settleTimerExpiry s) hacting (htake.trans (beginSettleEnd_of_none hnone hdrains))
    · rintro ⟨hsettle, htimer, hending⟩
      have htake := (takeFallTimer_of_settling hview hsettle htimer hending).trans
        (checkPhase_of_settle (s := { s with wvc := { s.wvc with fallTimer := none } }) hending hsettle)
      have hawait : awaitEmpty { s with wvc := { s.wvc with fallTimer := none } } = awaitEmpty s := rfl
      rw [hawait] at htake
      refine ⟨fun hawaits => ?_, fun hempty => ⟨fun hsome => hended hsettle ?_, fun hnone hdrains => hfinished hsettle ?_⟩⟩
      · exact leadsTo_of_whileActing (exec_fallTimerExpiry s) hacting
          (htake.trans (if_neg fun hp => Bool.false_ne_true (hawaits.symm.trans hp.1)))
      · exact leadsTo_of_whileActing (exec_fallTimerExpiry s) hacting
          (htake.trans ((if_pos ⟨hempty, rfl⟩).trans (beginSettleEnd_of_drains (.inl hsome))))
      · exact leadsTo_of_whileActing (exec_fallTimerExpiry s) hacting
          (htake.trans ((if_pos ⟨hempty, rfl⟩).trans (beginSettleEnd_of_none hnone hdrains)))

/-! ## The stations counted in (04 R62, R65, R66) -/

theorem itemOf_setItem_ite (s : State) (st x : Station) (i : WaveItem) :
    itemOf (setItem s st i) x = if x = st then i else itemOf s x := by
  simp only [itemOf, setItem, put_get, eq_comm]

section
variable {s : State} (hview : s.wvc.view ≠ .halted) {st : Station}
include hview

theorem takeFirstOfKind_of_apart (h : (itemOf s st).participant = false) (kind : EdgeKind) :
    takeFirstOfKind st kind s = s := (if_neg hview).trans (if_neg (by rw [h]; decide))

theorem takeFirstOfKind_of_calm (hdrive : s.wvc.climb ≠ .drive) (hsettle : s.wvc.climb ≠ .settle) (kind : EdgeKind) :
    takeFirstOfKind st kind s = s := by
  refine (if_neg hview).trans ?_
  split
  · split
    case h_1 h => exact absurd h hdrive
    case h_2 h => exact absurd h hsettle
    case h_3 h => exact absurd h hsettle
    case h_4 => rfl
  · rfl

theorem takeFirstOfKind_drive_retract (h : s.wvc.climb = .drive) : takeFirstOfKind st .retract s = s := by
  refine (if_neg hview).trans ?_
  simp only [h]
  split <;> rfl

theorem takeFirstOfKind_drive_unawaited (h : s.wvc.climb = .drive) (hawaited : (itemOf s st).awaited = false) :
    takeFirstOfKind st .extend s = s := by
  refine (if_neg hview).trans ?_
  simp only [h, hawaited]
  split <;> rfl

theorem takeFirstOfKind_settle_unawaited (h : s.wvc.climb = .settle) (hawaited : (itemOf s st).awaited = false) :
    takeFirstOfKind st .retract s = s := by
  refine (if_neg hview).trans ?_
  simp only [h, hawaited]
  split <;> rfl

theorem takeFirstOfKind_settle_judged (h : s.wvc.climb = .settle)
    (hverdict : ¬((itemOf s st).verdict = some .missing ∨ (itemOf s st).verdict = some .inDoubt)) :
    takeFirstOfKind st .extend s = s := by
  refine (if_neg hview).trans ?_
  simp only [h, hverdict]
  split <;> rfl

variable (hpart : (itemOf s st).participant = true)
include hpart

theorem takeFirstOfKind_drive (h : s.wvc.climb = .drive) (hawaited : (itemOf s st).awaited = true) :
    takeFirstOfKind st .extend s =
      checkPhase (setItem s st { itemOf s st with reportedExtend := true, awaited := false }) := by
  refine (if_neg hview).trans ((if_pos hpart).trans ?_)
  simp only [h]
  exact if_pos hawaited

theorem takeFirstOfKind_settle (h : s.wvc.climb = .settle) (hawaited : (itemOf s st).awaited = true) :
    takeFirstOfKind st .retract s =
      checkPhase (setItem s st { itemOf s st with reportedRetract := true, awaited := false }) := by
  refine (if_neg hview).trans ((if_pos hpart).trans ?_)
  simp only [h]
  exact if_pos hawaited

theorem takeFirstOfKind_late (h : s.wvc.climb = .settle)
    (hverdict : (itemOf s st).verdict = some .missing ∨ (itemOf s st).verdict = some .inDoubt) :
    takeFirstOfKind st .extend s = setItem s st { itemOf s st with lateExtend := true, awaited := true } := by
  refine (if_neg hview).trans ((if_pos hpart).trans ?_)
  simp only [h]
  exact if_pos hverdict

end

/-- With one station's items replaced, none awaited, the others decide whether anybody is. -/
theorem awaitEmpty_setItem {s : State} {st : Station} {i : WaveItem} (hi : i.awaited = false) :
    awaitEmpty (setItem s st i) = true ↔
      ¬∃ x, x ≠ st ∧ (itemOf s x).participant = true ∧ (itemOf s x).awaited = true := by
  rw [awaitEmpty_iff]
  constructor
  · rintro h ⟨x, hx, hpart, hawaited⟩
    have hnone := h x
    rw [itemOf_setItem_ite, if_neg hx] at hnone
    exact hnone ⟨hpart, hawaited⟩
  · intro h x hx
    rw [itemOf_setItem_ite] at hx
    by_cases hst : x = st
    · rw [if_pos hst] at hx
      exact Bool.false_ne_true (hi.symm.trans hx.2)
    · rw [if_neg hst] at hx
      exact h ⟨x, hst, hx⟩

theorem takingPart_setItem {s : State} {st : Station} {i : WaveItem} (h : i.participant = (itemOf s st).participant) :
    takingPart (setItem s st i) = takingPart s :=
  List.filter_congr fun x _ => by
    rw [itemOf_setItem_ite]
    by_cases hx : x = st
    · rw [if_pos hx, h, hx]
    · rw [if_neg hx]

/-- Settles O34. -/
theorem firstOfKindNoticesCountTheStationsIn : Obligations.FirstOfKindNoticesCountTheStationsIn := by
  intro s st time hacting hview ext ret i othersAwaited doubtful
  have hext {t : State} (e : takeFirstOfKind st .extend (took ext s) = t) : leadsTo ext s t :=
    leadsTo_of_taking (exec_firstOfKindNotice st .extend time s) hacting e
  have hret {t : State} (e : takeFirstOfKind st .retract (took ret s) = t) : leadsTo ret s t :=
    leadsTo_of_taking (exec_firstOfKindNotice st .retract time s) hacting e
  refine ⟨?_, fun hdrive => ⟨hret ?_, fun hawaited => hext ?_⟩, fun hsettle => ⟨fun hawaited => hret ?_, fun hverdict => hext ?_⟩,
    fun hpart hawaited hdrive => ⟨fun h => hext ?_, fun hnone hending => ?_⟩, fun hpart hawaited hsettle h => hret ?_,
    fun hpart hawaited hsettle hnone hfall hending => ?_, fun hpart hsettle hverdict => hext ?_⟩
  · rintro (hapart | ⟨hdrive, hsettle⟩)
    · exact ⟨hext (takeFirstOfKind_of_apart (s := took ext s) hview hapart _),
        hret (takeFirstOfKind_of_apart (s := took ret s) hview hapart _)⟩
    · exact ⟨hext (takeFirstOfKind_of_calm (s := took ext s) hview hdrive hsettle _),
        hret (takeFirstOfKind_of_calm (s := took ret s) hview hdrive hsettle _)⟩
  · exact takeFirstOfKind_drive_retract (s := took ret s) hview hdrive
  · exact takeFirstOfKind_drive_unawaited (s := took ext s) hview hdrive hawaited
  · exact takeFirstOfKind_settle_unawaited (s := took ret s) hview hsettle hawaited
  · exact takeFirstOfKind_settle_judged (s := took ext s) hview hsettle hverdict
  · refine (takeFirstOfKind_drive (s := took ext s) hview hpart hdrive hawaited).trans ?_
    by_cases hending : s.wvc.ending = none
    · refine (checkPhase_of_drive (by exact hending) (by exact hdrive)).trans (if_neg ?_)
      rw [awaitEmpty_setItem rfl]
      exact not_not_intro (h.resolve_right (not_not_intro hending))
    · exact checkPhase_of_ending (by exact hending)
  · have htaking : takingPart (setItem (took ext s) st { i with reportedExtend := true, awaited := false }) = takingPart s :=
      takingPart_setItem rfl
    obtain ⟨hclimb, hend, hover, htable, hmail⟩ :=
      driveEnded_spec false (setItem (took ext s) st { i with reportedExtend := true, awaited := false })
    refine ⟨driveEnded false (setItem (took ext s) st { i with reportedExtend := true, awaited := false }),
      hext ((takeFirstOfKind_drive (s := took ext s) hview hpart hdrive hawaited).trans
        ((checkPhase_of_drive (by exact hending) (by exact hdrive)).trans
          ((if_pos ((awaitEmpty_setItem rfl).mpr hnone)).trans (beginDriveEnd_of_drains (.inl ?_))))), hclimb, hover, hend, htable, ?_⟩
    · exact ne_of_eq_of_ne htaking (List.ne_nil_of_mem ((mem_takingPart s st).mpr hpart))
    · rw [hmail, htaking]
      rfl
  · refine (takeFirstOfKind_settle (s := took ret s) hview hpart hsettle hawaited).trans ?_
    by_cases hending : s.wvc.ending = none
    · refine (checkPhase_of_settle (by exact hending) (by exact hsettle)).trans (if_neg ?_)
      rintro ⟨hempty, hfall⟩
      rcases h with h | h | h
      · exact (awaitEmpty_setItem rfl).mp hempty h
      · exact h hfall
      · exact h hending
    · exact checkPhase_of_ending (by exact hending)
  · have htaking : participants (setItem (took ret s) st { i with reportedRetract := true, awaited := false }) = takingPart s :=
      (participants_of_settle (by exact hsettle)).trans (takingPart_setItem rfl)
    refine ⟨settleEnded (setItem (took ret s) st { i with reportedRetract := true, awaited := false }),
      hret ((takeFirstOfKind_settle (s := took ret s) hview hpart hsettle hawaited).trans
        ((checkPhase_of_settle (by exact hending) (by exact hsettle)).trans
          ((if_pos ⟨(awaitEmpty_setItem rfl).mpr hnone, hfall⟩).trans (beginSettleEnd_of_drains (.inl ?_))))),
      hsettle, rfl, rfl, rfl, ?_⟩
    · exact ne_of_eq_of_ne htaking (List.ne_nil_of_mem ((mem_takingPart s st).mpr hpart))
    · exact congrArg (fun xs : List Station => (s.mail.erase ret) ++ .motionOffNotice :: xs.map Instr.drainQueue) htaking
  · exact takeFirstOfKind_late (s := took ext s) hview hpart hsettle hverdict

end Sys2Proof.Machine
end

section
/-! SUPPORT. What an answer's records credit, and the end of a settlement (04 R64, R68; 10 R176, R177). -/

namespace Sys2Proof.Machine

open Sys2Proof

/-! ## The first EXTEND of an answer -/

theorem hasExtend_of_retracts {records : List EdgeRecord} (h : ∀ e ∈ records, e.kind = .retract) :
    hasExtend records = false := by
  rw [hasExtend, List.any_eq_false]
  intro e he
  rw [h e he]
  decide

theorem firstExtend_of_retracts {records : List EdgeRecord} (h : ∀ e ∈ records, e.kind = .retract) :
    firstExtend records = none := by
  rw [firstExtend, List.find?_eq_none.mpr]
  · rfl
  · intro e he
    rw [h e he]
    decide

section
variable {before after : List EdgeRecord} (time : Word) (h : ∀ e ∈ before, e.kind = .retract)

theorem hasExtend_of_extend : hasExtend (before ++ ⟨.extend, time⟩ :: after) = true := by
  rw [hasExtend, List.any_eq_true]
  exact ⟨⟨.extend, time⟩, List.mem_append_right _ List.mem_cons_self, rfl⟩

include h

theorem firstExtend_of_extend : firstExtend (before ++ ⟨.extend, time⟩ :: after) = some time := by
  have hnone : (before.find? fun e => decide (e.kind = .extend)) = none := by
    rw [List.find?_eq_none]
    intro e he
    rw [h e he]
    decide
  rw [firstExtend, List.find?_append, hnone]
  rfl

end

/-! ## A record judged -/

/-- A stroke credited to a record, with its duration from the start of DRIVE (04 R64). -/
def creditedBy (s : State) (r : StationRecord) (time : Word) : StationRecord := { r with
  count := min 65535 (r.count + 1), lastStroke := some (min 65535 (time - s.wvc.driveStart).toNat) }

/-- A station's record replaced, a count that has gone up being owed, and messages sent. -/
def judged (st : Station) (rec : StationRecord) (told : List Instr) (s : State) : State := { s with
  wvc := { s.wvc with
    table := put s.wvc.table st rec
    countsDirty := s.wvc.countsDirty || decide ((recordOf s st).count < rec.count) }
  mail := s.mail ++ told }

theorem recordOf_judged (st x : Station) (rec : StationRecord) (told : List Instr) (s : State) :
    recordOf (judged st rec told s) x = if x = st then rec else recordOf s x := by
  simp only [recordOf, judged, put_get, eq_comm]

/-- EVENT is asked for where events are new (04 R51). -/
def askedEvent (events more : BitVec 9) : List Instr := if events ||| more = events then [] else [.attentionSetRequest .event]

theorem judged_self (st : Station) (s : State) : judged st (recordOf s st) [] s = s := by
  have htable : put s.wvc.table st (recordOf s st) = s.wvc.table := put_get_self _ _
  rw [judged, htable, decide_eq_false (Nat.lt_irrefl _), Bool.or_false, List.append_nil]

theorem creditStroke_eq (st : Station) (time : Word) (s : State) :
    creditStroke st time s = judged st (creditedBy s (recordOf s st) time) [] s := by
  have hup : decide ((recordOf s st).count < (creditedBy s (recordOf s st) time).count) =
      decide ((recordOf s st).count < 65535) := by
    rw [decide_eq_decide]
    simp only [creditedBy]
    omega
  rw [judged, hup, List.append_nil]
  by_cases h : (recordOf s st).count < 65535
  · rw [decide_eq_true h, Bool.or_true]
    exact if_pos h
  · rw [decide_eq_false h, Bool.or_false]
    exact if_neg h

theorem creditFirst_of_extend {st : Station} {before after : List EdgeRecord} {time : Word}
    (h : ∀ e ∈ before, e.kind = .retract) (s : State) : creditFirst st (before ++ ⟨.extend, time⟩ :: after) s =
      judged st (creditedBy s (recordOf s st) time) [] s := by
  rw [creditFirst, firstExtend_of_extend time h]
  exact creditStroke_eq st time s

theorem creditFirst_of_retracts {st : Station} {records : List EdgeRecord} (h : ∀ e ∈ records, e.kind = .retract)
    (s : State) : creditFirst st records s = s := by
  rw [creditFirst, firstExtend_of_retracts h]

/-- A late stroke credited to a record, which takes the doubt of an IN_DOUBT participant away (04 R68). -/
def lateCreditedBy (s : State) (st : Station) (time : Word) : StationRecord :=
  { creditedBy s (recordOf s st) time with
    inDoubt := (recordOf s st).inDoubt && decide ((itemOf s st).verdict ≠ some .inDoubt) }

theorem setRecord_judged (st : Station) {rec rec' : StationRecord} (hcount : rec'.count = rec.count) (told : List Instr)
    (s : State) : setRecord (judged st rec told s) st rec' = judged st rec' told s := by
  have htable : put (put s.wvc.table st rec) st rec' = put s.wvc.table st rec' := by
    refine table_ext fun x => ?_
    simp only [put_get]
    split <;> rfl
  unfold setRecord judged
  simp only [htable, hcount]

theorem creditLate_of_extend {st : Station} {before after : List EdgeRecord} {time : Word}
    (h : ∀ e ∈ before, e.kind = .retract) (s : State) : creditLate st (before ++ ⟨.extend, time⟩ :: after) s =
      judged st (lateCreditedBy s st time) [] s := by
  unfold creditLate
  dsimp only
  rw [creditFirst_of_extend h]
  by_cases hdoubt : (itemOf s st).verdict = some .inDoubt
  · have hlate : ({ creditedBy s (recordOf s st) time with inDoubt := false } : StationRecord) = lateCreditedBy s st time := by
      rw [lateCreditedBy, decide_eq_false (not_not_intro hdoubt), Bool.and_false]
    rw [if_pos hdoubt, recordOf_judged, if_pos rfl, hlate]
    exact setRecord_judged st (rec := creditedBy s (recordOf s st) time) (rec' := lateCreditedBy s st time) rfl [] s
  · rw [if_neg hdoubt]
    refine congrArg (fun r => judged st r [] s) ?_
    rw [lateCreditedBy, decide_eq_true hdoubt, Bool.and_true]
    rfl

theorem addEvents_judged (st : Station) (events : BitVec 9) (s : State) : addEvents st events s =
    judged st { recordOf s st with events := (recordOf s st).events ||| events }
      (askedEvent (recordOf s st).events events) s := by
  rw [addEvents_eq, judged, decide_eq_false (Nat.lt_irrefl _), Bool.or_false]
  rfl

theorem setDoubt_eq (st : Station) (s : State) : setDoubt st s =
    judged st { recordOf s st with inDoubt := true, events := (recordOf s st).events ||| 0x040#9 }
      (askedEvent (recordOf s st).events 0x040#9) s := by
  have hself : setRecord s st { recordOf s st with inDoubt := true } =
      judged st { recordOf s st with inDoubt := true } [] s := by
    rw [judged, decide_eq_false (Nat.lt_irrefl _), Bool.or_false, List.append_nil]
    rfl
  have hrecord : recordOf (setRecord s st { recordOf s st with inDoubt := true }) st =
      { recordOf s st with inDoubt := true } := by rw [recordOf_setRecord_ite, if_pos rfl]
  have htable : put (put s.wvc.table st { recordOf s st with inDoubt := true }) st
      { recordOf s st with inDoubt := true, events := (recordOf s st).events ||| 0x040#9 } =
        put s.wvc.table st { recordOf s st with inDoubt := true, events := (recordOf s st).events ||| 0x040#9 } := by
    refine table_ext fun x => ?_
    simp only [put_get]
    split <;> rfl
  unfold setDoubt
  rw [addEvents_eq, hrecord, judged, decide_eq_false (Nat.lt_irrefl _), Bool.or_false, ← htable]
  rfl

/-! ## The end of a settlement (10 R176) -/

/-- HELD with RESUME among the hold reasons. -/
theorem setClimb_held_addHold (s : State) : setClimb .held (addHold holdResume s) = { s with
    wvc := { s.wvc with holds := s.wvc.holds ||| 0x20#6, climb := .held }
    mail := s.mail ++ if s.wvc.climb = .held then [] else [.attentionSetRequest .hold] } := by
  unfold addHold
  dsimp only
  by_cases hdwell : s.wvc.climb = .dwell
  · rw [if_pos hdwell, if_neg (by rw [hdwell]; decide), setClimb_eq, if_pos (by rw [setClimb_wvc]), sendAll_nil, setClimb_eq,
      if_neg (by simp [hdwell])]
    rfl
  · rw [if_neg hdwell, setClimb_eq]
    by_cases hheld : s.wvc.climb = .held
    · rw [if_pos (by simp [hheld]), if_pos hheld]
      rfl
    · rw [if_neg (by simp [hheld]), if_neg hheld]
      rfl

theorem finishPowerDown_eq (s : State) : finishPowerDown s = send .powerDownActionsDone (setClimb .held (addHold holdResume
    (flushCounts (carryOutAllDeferred { s with wvc := { s.wvc with ending := none } })))) := rfl

/-- What the end of a settlement leaves. -/
structure SettlementOver (s u : State) : Prop where
  rest : ∃ T D H DR M, u = { s with
    wvc := { s.wvc with ending := none, table := T, countsDirty := D, holds := H, climb := .held, drains := DR }, mail := M }
  resume : u.wvc.holds.getLsbD 5 = true
  mail : s.mail <+: u.mail
  last : u.mail.getLast? = some .powerDownActionsDone
  records : ∀ x, recordOf u x = retiredRecord (recordOf s x)
  told : ∀ x slot, (recordOf s x).retirePending = some slot → .orderOutcome slot (.outcome .done 0) ∈ u.mail
    ∧ ((recordOf s x).service = .active → [.drainQueue x, .closeWindow x, .offValve x] ⊆ u.mail
      ∧ ((∀ d ∈ s.wvc.drains, d.purpose = .discard) → .countsChanged ∈ u.mail))

theorem settlementOver_finishPowerDown (s : State) : SettlementOver s (finishPowerDown s) := by
  obtain ⟨hrecords, ⟨T, D, H, C, DR, M, hrest⟩, hdiscards, ⟨hmail, howed⟩, htold⟩ :=
    allRetired_carryOutAllDeferred { s with wvc := { s.wvc with ending := none } }
  rw [finishPowerDown_eq, setClimb_held_addHold]
  generalize hv : carryOutAllDeferred { s with wvc := { s.wvc with ending := none } } = v at *
  obtain ⟨⟨D', M', hflush⟩, -⟩ := flushCounts_spec v
  have hsent : (flushCounts v).mail <+: (flushCounts v).mail
      ++ (if (flushCounts v).wvc.climb = .held then [] else [.attentionSetRequest .hold]) ++ [.powerDownActionsDone] :=
    (List.prefix_append _ _).trans (List.prefix_append _ _)
  have hsubset := (prefix_flushCounts v).trans hsent
  refine ⟨?_, ?_, hmail.trans hsubset, List.getLast?_concat, fun x => ?_, fun x slot hslot => ?_⟩
  · rw [hflush, hrest]
    exact ⟨_, _, _, _, _, rfl⟩
  · exact (BitVec.getLsbD_or).trans (by rw [show (0x20#6).getLsbD 5 = true by decide, Bool.or_true])
  · refine Eq.trans ?_ (hrecords x)
    rw [hflush]
    rfl
  · obtain ⟨hanswer, hactive⟩ := htold x slot hslot
    refine ⟨hsubset.subset hanswer, fun ha => ?_⟩
    obtain ⟨hthree, hdirty⟩ := hactive ha
    refine ⟨fun c hc => hsubset.subset (hthree hc), fun hd => hsent.subset (mem_flushCounts hdirty ?_ (hdiscards hd))⟩
    rw [hrest]

/-- What the end of a settlement leaves where no RETIRE waits. -/
theorem finishPowerDown_of_none {s : State} (hnone : ∀ x, (recordOf s x).retirePending = none) :
    let tells : Bool := s.wvc.countsDirty && s.wvc.drains.all fun d => decide (d.purpose = .discard)
    (finishPowerDown s).wvc.drains = s.wvc.drains ∧ (finishPowerDown s).wvc.holds = s.wvc.holds ||| 0x20#6
      ∧ (finishPowerDown s).mail = s.mail ++ (if tells = true then [.countsChanged] else [])
        ++ (if s.wvc.climb = .held then [] else [.attentionSetRequest .hold]) ++ [.powerDownActionsDone] := by
  intro tells
  have hall : carryOutAllDeferred { s with wvc := { s.wvc with ending := none } } =
      { s with wvc := { s.wvc with ending := none } } := carryOutAllDeferred_of_none hnone
  have htells : tellsCounts { s with wvc := { s.wvc with ending := none } } = tells := by
    rw [tellsCounts]
    simp only [decide_true, Bool.and_true]
    rfl
  rw [finishPowerDown_eq, hall, setClimb_held_addHold, flushCounts_eq, htells]
  exact ⟨rfl, rfl, rfl⟩

end Sys2Proof.Machine
end

section
/-! PROOF. WAVE_STOP, WAVE_POWER_DOWN and the settlement of the wave in flight (04 R54, R77; 10 R176, R177). -/

namespace Sys2Proof.Machine

open Sys2Proof

/-! ## WAVE_STOP -/

/-- The Wave Controller told of a STOP. -/
def stopNoted (s : State) : State :=
  { s with wvc := { s.wvc with view := if s.wvc.view = .run then .stopping else s.wvc.view } }

theorem setClimb_same {c : Climb} {s : State} (h : s.wvc.climb = c) : setClimb c s = s := by
  subst h
  exact if_pos rfl

theorem takeWaveStop_eq {s : State} (hview : s.wvc.view ≠ .halted) : takeWaveStop s =
    if s.wvc.climb = .drive then windDown (stopNoted s) else if s.wvc.climb = .settle then stopNoted s
    else send .waveEnded (setClimb .held (stopNoted s)) := by
  have hnoted : (if s.wvc.view = .run then { s with wvc := { s.wvc with view := .stopping } } else s) = stopNoted s := by
    unfold stopNoted
    split <;> rfl
  refine (if_neg hview).trans ?_
  dsimp only
  rw [hnoted]
  have hclimb : (stopNoted s).wvc.climb = s.wvc.climb := rfl
  cases h : s.wvc.climb <;> simp only [hclimb, h] <;> rfl

section
variable {s : State} (hview : s.wvc.view ≠ .halted)
include hview

theorem takeWaveStop_of_held (h : s.wvc.climb = .held) : takeWaveStop s = send .waveEnded (stopNoted s) := by
  rw [takeWaveStop_eq hview, if_neg (by rw [h]; decide), if_neg (by rw [h]; decide), setClimb_same (by exact h)]

theorem takeWaveStop_of_dwell (h : s.wvc.climb = .dwell) : takeWaveStop s = { s with
    wvc := { s.wvc with view := if s.wvc.view = .run then .stopping else s.wvc.view, climb := .held }
    mail := s.mail ++ [.attentionSetRequest .hold, .waveEnded] } := by
  have hmail : s.mail ++ [.attentionSetRequest .hold, .waveEnded] = (s.mail ++ [.attentionSetRequest .hold]) ++ [.waveEnded] := by
    simp
  rw [takeWaveStop_eq hview, if_neg (by rw [h]; decide), if_neg (by rw [h]; decide), setClimb_eq,
    if_neg (by simp [stopNoted, h]), hmail]
  rfl

theorem takeWaveStop_of_settle (h : s.wvc.climb = .settle) : takeWaveStop s = stopNoted s := by
  rw [takeWaveStop_eq hview, if_neg (by rw [h]; decide), if_pos h]

theorem takeWaveStop_of_drive (h : s.wvc.climb = .drive) : takeWaveStop s =
    if s.wvc.ending = none then beginDriveEnd true (stopNoted s) else stopNoted s := by
  rw [takeWaveStop_eq hview, if_pos h]
  rfl

end

/-- A wound-down DRIVE, its participants being drained. -/
theorem driveEnded_wvc (woundDown : Bool) (s : State) : (driveEnded woundDown s).wvc = { s.wvc with
    climb := .settle, driveTimer := none, ending := some .driveEnd, wave := (driveEnded woundDown s).wvc.wave
    drains := s.wvc.drains ++ (takingPart s).map fun x => (⟨x, .driveEnd⟩ : Drain) } := by
  unfold driveEnded
  generalize mapAll s.wvc.wave (WaveItem.driveOver woundDown) = wave
  rfl

theorem settleBegun_wvc (s : State) : (settleBegun s).wvc = { s.wvc with
    ending := none, wave := (settleBegun s).wvc.wave
    settleTimer := some ⟨s.tmb.fineTime, 1000 * s.psv.rig.settleTimeout⟩
    fallTimer := some ⟨s.tmb.fineTime, s.psv.rig.fallRamp⟩ } := by
  unfold settleBegun
  generalize mapAll s.wvc.wave WaveItem.awaitSettle = wave
  rfl

theorem settleBegun_mail (s : State) : (settleBegun s).mail = s.mail ++ (participants s).map Instr.closeValve := rfl

theorem itemOf_flushCounts (s : State) (x : Station) : itemOf (flushCounts s) x = itemOf s x := by
  rw [flushCounts_eq]
  rfl

/-- Whoever takes no part is awaited in no SETTLE. -/
theorem awaitSettle_driveOver {i : WaveItem} (h : i.participant = false) (woundDown : Bool) :
    (i.driveOver woundDown).awaitSettle = i.driveOver woundDown := by
  simp [WaveItem.awaitSettle, WaveItem.driveOver, h]

theorem itemOf_beginDriveEnd (woundDown : Bool) (s : State) (x : Station) :
    itemOf (beginDriveEnd woundDown s) x = (itemOf s x).driveOver woundDown := by
  rw [beginDriveEnd_eq]
  split
  case isFalse => exact itemOf_driveEnded _ _ _
  case isTrue hnone =>
    obtain ⟨hnobody, -⟩ := (noDrain_driveEnded_iff _ _).mp hnone
    have hpart : (itemOf s x).participant = false := by
      rw [← Bool.not_eq_true]
      exact fun hx => List.not_mem_nil (hnobody ▸ (mem_takingPart s x).mpr hx)
    rw [finishDriveEnd_eq, itemOf_flushCounts, itemOf_settleBegun, itemOf_driveEnded, awaitSettle_driveOver hpart]

/-- A DRIVE wound down with nobody to drain. -/
theorem finishDriveEnd_of_nobody (woundDown : Bool) {s : State} (h : takingPart s = []) :
    let told : Bool := s.wvc.countsDirty && s.wvc.drains.all fun d => decide (d.purpose = .discard)
    let u := finishDriveEnd (driveEnded woundDown s)
    u.wvc = { s.wvc with
        climb := .settle, driveTimer := none, ending := none, wave := u.wvc.wave
        settleTimer := some ⟨s.tmb.fineTime, 1000 * s.psv.rig.settleTimeout⟩
        fallTimer := some ⟨s.tmb.fineTime, s.psv.rig.fallRamp⟩
        countsDirty := s.wvc.countsDirty && !told }
      ∧ u.mail = s.mail ++ if told = true then [.countsChanged] else [] := by
  intro told u
  obtain ⟨hclimb, -, -, -, hmail⟩ := driveEnded_spec woundDown s
  have hnobody : participants (driveEnded woundDown s) = [] := by
    rw [participants_of_settle hclimb, takingPart_driveEnded, h]
  have htold : tellsCounts (settleBegun (driveEnded woundDown s)) = told := by
    unfold tellsCounts
    rw [settleBegun_wvc, driveEnded_wvc, h, List.map_nil, List.append_nil]
    simp only [decide_true, Bool.and_true]
    rfl
  have hu : u = flushCounts (settleBegun (driveEnded woundDown s)) := finishDriveEnd_eq _
  rw [flushCounts_eq, htold] at hu
  have hwave : u.wvc.wave = (settleBegun (driveEnded woundDown s)).wvc.wave := by rw [hu]
  refine ⟨?_, ?_⟩
  · rw [hwave, hu]
    dsimp only
    rw [settleBegun_wvc, driveEnded_wvc, h, List.map_nil, List.append_nil]
    rfl
  · rw [hu, settleBegun_mail, hnobody, List.map_nil, List.append_nil, hmail, h, List.map_nil, List.append_nil]

/-! ## WAVE_POWER_DOWN -/

/-- The Wave Controller told of the warning, the windows of RECOVERY drained and closed. -/
def warned (s : State) : State := { s with
  wvc := { s.wvc with
    view := .powerDown, driveTimer := none, settleTimer := none, fallTimer := none, recoveryWindows := []
    drains := s.wvc.drains ++ s.wvc.recoveryWindows.map fun st => ⟨st, .discard⟩ }
  mail := s.mail ++ s.wvc.recoveryWindows.flatMap fun st => [.drainQueue st, .closeWindow st] }

/-- The settlement drains sent. -/
def settlementSent (s : State) : State := { warned s with
  wvc := { (warned s).wvc with
    ending := some .powerDown
    drains := (warned s).wvc.drains ++ (participants s).map fun st => ⟨st, .powerDown⟩ }
  mail := (warned s).mail ++ (participants s).flatMap fun st => [.drainQueue st, .closeWindow st] }

theorem takeWavePowerDown_eq {s : State} (hview : s.wvc.view ≠ .halted) : takeWavePowerDown s =
    if inWave s = true then
      if noDrain .powerDown (settlementSent s) = true then finishPowerDown (settlementSent s) else settlementSent s
    else finishPowerDown (warned s) := by
  have hwarned : closeRecoveryWindows { s with wvc := { s.wvc with
      view := .powerDown, driveTimer := none, settleTimer := none, fallTimer := none } } = warned s :=
    forEach_sendDrainClose _ _ _
  have hsent : forEach (participants (warned s)) (sendDrainClose .powerDown)
      { warned s with wvc := { (warned s).wvc with ending := some .powerDown } } = settlementSent s :=
    forEach_sendDrainClose _ _ _
  refine (if_neg hview).trans ?_
  rw [hwarned]
  dsimp only
  rw [hsent]
  rfl

theorem noDrain_settlementSent_iff (s : State) : noDrain .powerDown (settlementSent s) = true ↔
    participants s = [] ∧ ∀ d ∈ s.wvc.drains, d.purpose ≠ .powerDown := by
  rw [noDrain_iff]
  constructor
  · intro h
    refine ⟨List.eq_nil_iff_forall_not_mem.mpr fun x hx => ?_,
      fun d hd => h d (List.mem_append_left _ (List.mem_append_left _ hd))⟩
    exact h ⟨x, .powerDown⟩ (List.mem_append_right _ (List.mem_map_of_mem hx)) rfl
  · rintro ⟨hnobody, hdrains⟩ d hd
    have hd : d ∈ (s.wvc.drains ++ s.wvc.recoveryWindows.map fun st => ⟨st, .discard⟩)
        ++ (participants s).map fun st => ⟨st, .powerDown⟩ := hd
    rw [hnobody, List.map_nil, List.append_nil] at hd
    rcases List.mem_append.mp hd with hd | hd
    · exact hdrains d hd
    · obtain ⟨x, -, rfl⟩ := List.mem_map.mp hd
      exact DrainPurpose.noConfusion

/-- With nobody to drain the settlement sends nothing. -/
theorem settlementSent_of_nobody {s : State} (h : participants s = []) : settlementSent s =
    { warned s with wvc := { (warned s).wvc with ending := some .powerDown } } := by
  rw [settlementSent, h]
  simp only [List.map_nil, List.flatMap_nil, List.append_nil]

theorem finishPowerDown_ending (s : State) (e : Option WaveEnding) :
    finishPowerDown { s with wvc := { s.wvc with ending := e } } = finishPowerDown s := rfl

/-- With nobody to drain the settlement is over at once. -/
theorem takeWavePowerDown_of_nobody {s : State} (hview : s.wvc.view ≠ .halted)
    (h : inWave s = false ∨ (participants s = [] ∧ ∀ d ∈ s.wvc.drains, d.purpose ≠ .powerDown)) :
    takeWavePowerDown s = finishPowerDown (warned s) := by
  rw [takeWavePowerDown_eq hview]
  by_cases hwave : inWave s = true
  · have hnone := h.resolve_left fun hp => Bool.false_ne_true (hp.symm.trans hwave)
    rw [if_pos hwave, if_pos ((noDrain_settlementSent_iff s).mpr hnone), settlementSent_of_nobody hnone.1,
      finishPowerDown_ending]
  · rw [if_neg hwave]

theorem takeWavePowerDown_of_somebody {s : State} (hview : s.wvc.view ≠ .halted) (hwave : inWave s = true)
    (h : participants s ≠ []) : takeWavePowerDown s = settlementSent s := by
  rw [takeWavePowerDown_eq hview, if_pos hwave, if_neg]
  rw [noDrain_settlementSent_iff]
  exact fun hp => h hp.1

theorem discards_warned_iff (s : State) :
    (∀ d ∈ (warned s).wvc.drains, d.purpose = .discard) ↔ ∀ d ∈ s.wvc.drains, d.purpose = .discard := by
  constructor
  · exact fun h d hd => h d (List.mem_append_left _ hd)
  · intro h d hd
    rcases List.mem_append.mp hd with hd | hd
    · exact h d hd
    · obtain ⟨x, -, rfl⟩ := List.mem_map.mp hd
      rfl

/-! ## The answers of a settlement -/

/-- A drain answered. -/
def drainTaken (d : Drain) (s : State) : State := { s with wvc := { s.wvc with drains := s.wvc.drains.erase d } }

theorem takeDrainAnswer_of_found {s : State} (hview : s.wvc.view ≠ .halted) {st : Station} {p : DrainPurpose}
    (h : (s.wvc.drains.find? fun d => decide (d.station = st)) = some ⟨st, p⟩) (records : List EdgeRecord) (overflow : Bool) :
    takeDrainAnswer st records overflow s = checkEnding (when p.closesAfter (send (.closeWindow st))
      (actOnAnswer p st records overflow (drainTaken ⟨st, p⟩ s))) := by
  refine (if_neg hview).trans ?_
  rw [h]
  rfl

theorem checkEnding_powerDown {s : State} (h : s.wvc.ending = some .powerDown) :
    checkEnding s = if noDrain .powerDown s = true then finishPowerDown s else s := by
  simp [checkEnding, h]

theorem settlePowerDown_unjudged {st : Station} {s : State} (h : (itemOf s st).verdict = none) (records : List EdgeRecord) :
    settlePowerDown st records s = if hasExtend records = true then creditFirst st records s else setDoubt st s := by
  simp [settlePowerDown, h]

theorem settlePowerDown_extended {st : Station} {s : State} (h : (itemOf s st).verdict = some .extended)
    (records : List EdgeRecord) : settlePowerDown st records s = s := by
  simp [settlePowerDown, h]

theorem settlePowerDown_doubtful {st : Station} {s : State}
    (h : (itemOf s st).verdict = some .missing ∨ (itemOf s st).verdict = some .inDoubt) (records : List EdgeRecord) :
    settlePowerDown st records s = if hasExtend records = true then creditLate st records s else s := by
  rcases h with h | h <;> simp [settlePowerDown, h]

theorem any_purpose_iff (p : DrainPurpose) (ds : List Drain) :
    (ds.any fun d => decide (d.purpose = p)) = false ↔ ∀ d ∈ ds, d.purpose ≠ p := by
  simp

/-- A count of a station replaced goes up, or was owed before. -/
theorem judged_owed_iff (st : Station) (rec : StationRecord) (told : List Instr) (s : State) :
    (judged st rec told s).wvc.countsDirty = true ↔
      s.wvc.countsDirty = true ∨ (recordOf s st).count < rec.count := by
  rw [judged, Bool.or_eq_true, decide_eq_true_iff]

/-- Settles O39. -/
theorem wavesStopAndSettleAtPowerDown : Obligations.WavesStopAndSettleAtPowerDown := by
  refine ⟨?_, ?_, ?_⟩
  · intro s hacting hview view rest told
    have hlead {t : State} (e : takeWaveStop (took .waveStop s) = t) : leadsTo .waveStop s t :=
      leadsTo_of_taking (exec_waveStop s) hacting e
    refine ⟨fun h => hlead (takeWaveStop_of_held (s := took .waveStop s) hview h), fun h => hlead ?_,
      fun h => hlead (takeWaveStop_of_settle (s := took .waveStop s) hview h), fun h hending => hlead ?_,
      fun h hending => ?_⟩
    · exact takeWaveStop_of_dwell (s := took .waveStop s) hview h
    · exact (takeWaveStop_of_drive (s := took .waveStop s) hview h).trans (if_neg hending)
    · have htake := (takeWaveStop_of_drive (s := took .waveStop s) hview h).trans (if_pos hending)
      have hps : participants s = takingPart (stopNoted (took .waveStop s)) := participants_of_drive h
      refine ⟨_, hlead htake, waveless_eq (waveless_beginDriveEnd _ _), fun st => itemOf_beginDriveEnd _ _ _,
        fun hsome => ?_, fun hnone hdrains => ?_⟩
      · rw [hps] at hsome ⊢
        rw [beginDriveEnd_of_drains (.inl hsome)]
        obtain ⟨-, -, -, -, hmail⟩ := driveEnded_spec true (stopNoted (took .waveStop s))
        exact ⟨driveEnded_wvc true (stopNoted (took .waveStop s)), hmail⟩
      · rw [hps] at hnone
        rw [beginDriveEnd_of_none hnone hdrains]
        obtain ⟨hwvc, hmail⟩ := finishDriveEnd_of_nobody true hnone
        refine ⟨hwvc.trans ?_, hmail⟩
        rw [← show s.wvc.ending = none from hending]
        rfl
  · intro s hacting hview c rest discarded told held
    refine ⟨fun hwave hsome => ?_, fun h => ?_⟩
    · refine ⟨settlementSent (took c s), leadsTo_of_taking (exec_wavePowerDown s) hacting
        (takeWavePowerDown_of_somebody (s := took c s) hview hwave hsome), rfl, rfl, rfl, rfl, rfl, rfl, rfl, rfl, rfl, rfl, rfl⟩
    · have hover := settlementOver_finishPowerDown (warned (took c s))
      obtain ⟨⟨T, D, H, DR, M, hrest⟩, hresume, hmail, hlast, hrecords, htold⟩ := hover
      refine ⟨finishPowerDown (warned (took c s)), leadsTo_of_taking (exec_wavePowerDown s) hacting
        (takeWavePowerDown_of_nobody (s := took c s) hview h), by rw [hrest]; rfl, by rw [hrest], by rw [hrest],
        by rw [hrest]; rfl, by rw [hrest]; rfl, by rw [hrest]; rfl, by rw [hrest]; rfl, by rw [hrest]; rfl, hresume, hmail,
        hlast, fun x hx => ?_, fun x slot hx => ⟨?_, ?_⟩, fun hnone => ?_⟩
      · exact (hrecords x).trans (retiredRecord_of_none hx)
      · exact (hrecords x).trans (retiredRecord_of_some hx)
      · obtain ⟨hanswer, hactive⟩ := htold x slot hx
        refine ⟨hanswer, fun ha => ?_⟩
        obtain ⟨hthree, hcounts⟩ := hactive ha
        exact ⟨hthree, fun hd => hcounts ((discards_warned_iff (took c s)).mpr hd)⟩
      · obtain ⟨hdrains, hholds, hsent⟩ := finishPowerDown_of_none (s := warned (took c s)) hnone
        have htells : ((warned (took c s)).wvc.countsDirty
            && (warned (took c s)).wvc.drains.all fun d => decide (d.purpose = .discard)) = true ↔ told := by
          rw [Bool.and_eq_true, List.all_eq_true]
          simp only [decide_eq_true_eq]
          exact and_congr_right' (discards_warned_iff (took c s))
        refine ⟨hholds, hdrains, fun ht => ?_, fun ht => ?_⟩
        · rw [hsent, if_pos (htells.mpr ht)]
          rfl
        · rw [hsent, if_neg (mt htells.mp ht), List.append_nil]
          rfl
  · intro s st records overflow hacting hview hfound hending c i r others asked told leaves credited doubtful
    have hleaves {rec : StationRecord} (e : settlePowerDown st records (drainTaken ⟨st, .powerDown⟩ (took c s)) =
        judged st rec (asked rec) (drainTaken ⟨st, .powerDown⟩ (took c s)))
        (hretire : rec.retirePending = r.retirePending) : leaves rec := by
      have hend : (judged st rec (asked rec) (drainTaken ⟨st, .powerDown⟩ (took c s))).wvc.ending = some .powerDown := hending
      have htake := (takeDrainAnswer_of_found (s := took c s) hview hfound records overflow).trans
        ((congrArg checkEnding e).trans (checkEnding_powerDown hend))
      refine ⟨fun hothers => ?_, fun hothers => ?_⟩
      · refine ⟨_, leadsTo_of_taking (exec_drainAnswer st records overflow s) hacting (htake.trans (if_neg ?_)),
          rfl, rfl, rfl, rfl, rfl⟩
        rw [noDrain_iff]
        intro hnone
        exact Bool.false_ne_true (((any_purpose_iff .powerDown _).mpr hnone).symm.trans hothers)
      · have hnone := (noDrain_iff .powerDown (judged st rec (asked rec) (drainTaken ⟨st, .powerDown⟩ (took c s)))).mpr
          ((any_purpose_iff .powerDown _).mp hothers)
        have hrecord (x : Station) : recordOf (judged st rec (asked rec) (drainTaken ⟨st, .powerDown⟩ (took c s))) x =
            if x = st then rec else recordOf s x := recordOf_judged _ _ _ _ _
        obtain ⟨⟨T, D, H, DR, M, hrest⟩, hresume, -, hlast, hrecords, htold⟩ :=
          settlementOver_finishPowerDown (judged st rec (asked rec) (drainTaken ⟨st, .powerDown⟩ (took c s)))
        simp only [hrecord] at hrecords htold
        refine ⟨_, leadsTo_of_taking (exec_drainAnswer st records overflow s) hacting (htake.trans (if_pos hnone)),
          by rw [hrest], by rw [hrest], hresume, hlast, fun x => ⟨fun hx => ?_, fun slot hx => ⟨?_, ?_⟩⟩, fun hpending => ?_⟩
        · exact (hrecords x).trans (retiredRecord_of_none hx)
        · exact (hrecords x).trans (retiredRecord_of_some hx)
        · exact (htold x slot hx).1
        · have hnone' : ∀ x, (recordOf (judged st rec (asked rec) (drainTaken ⟨st, .powerDown⟩ (took c s))) x).retirePending =
              none := fun x => by
            rw [hrecord]
            split
            case isTrue => exact hretire.trans (hpending st)
            case isFalse => exact hpending x
          obtain ⟨-, hholds, hsent⟩ := finishPowerDown_of_none hnone'
          have htells : ((judged st rec (asked rec) (drainTaken ⟨st, .powerDown⟩ (took c s))).wvc.countsDirty
              && (judged st rec (asked rec) (drainTaken ⟨st, .powerDown⟩ (took c s))).wvc.drains.all fun d =>
                decide (d.purpose = .discard)) = true ↔ told rec := by
            rw [Bool.and_eq_true, List.all_eq_true, judged_owed_iff]
            simp only [decide_eq_true_eq]
            rfl
          refine ⟨hholds, fun ht => ?_, fun ht => ?_⟩
          · rw [hsent, if_pos (htells.mpr ht)]
            rfl
          · rw [hsent, if_neg (mt htells.mp ht), List.append_nil]
            rfl
    have hasked {rec : StationRecord} (h : rec.events = r.events) : asked rec = [] := if_pos h
    have hself (e : settlePowerDown st records (drainTaken ⟨st, .powerDown⟩ (took c s)) =
        drainTaken ⟨st, .powerDown⟩ (took c s)) : leaves r := by
      refine hleaves (e.trans ?_) rfl
      rw [hasked rfl]
      exact (judged_self st (drainTaken ⟨st, .powerDown⟩ (took c s))).symm
    refine ⟨fun hretracts => ⟨fun hverdict => hleaves ?_ rfl, fun hverdict => hself ?_⟩,
      fun before time after hrecords hbefore => ⟨fun hverdict => hleaves ?_ rfl, fun hverdict => hself ?_,
        fun hverdict => hleaves ?_ rfl⟩⟩
    · refine (settlePowerDown_unjudged (s := drainTaken ⟨st, .powerDown⟩ (took c s)) hverdict records).trans ?_
      rw [hasExtend_of_retracts hretracts, if_neg Bool.false_ne_true, setDoubt_eq]
      rfl
    · cases hv : i.verdict with
      | none => exact absurd hv hverdict
      | some v =>
        have hkept (h : i.verdict = some .missing ∨ i.verdict = some .inDoubt) :
            settlePowerDown st records (drainTaken ⟨st, .powerDown⟩ (took c s)) = drainTaken ⟨st, .powerDown⟩ (took c s) := by
          refine (settlePowerDown_doubtful (s := drainTaken ⟨st, .powerDown⟩ (took c s)) h records).trans ?_
          rw [hasExtend_of_retracts hretracts, if_neg Bool.false_ne_true]
        cases v with
        | extended => exact settlePowerDown_extended (s := drainTaken ⟨st, .powerDown⟩ (took c s)) hv records
        | missing => exact hkept (.inl hv)
        | inDoubt => exact hkept (.inr hv)
    · refine (settlePowerDown_unjudged (s := drainTaken ⟨st, .powerDown⟩ (took c s)) hverdict records).trans ?_
      rw [hasked rfl, hrecords, hasExtend_of_extend, if_pos rfl, creditFirst_of_extend hbefore]
      rfl
    · exact settlePowerDown_extended (s := drainTaken ⟨st, .powerDown⟩ (took c s)) hverdict records
    · refine (settlePowerDown_doubtful (s := drainTaken ⟨st, .powerDown⟩ (took c s)) hverdict records).trans ?_
      rw [hasked rfl, hrecords, hasExtend_of_extend, if_pos rfl, creditLate_of_extend hbefore]
      rfl

end Sys2Proof.Machine
end

section
/-! PROOF. The hold reasons are rebuilt, and a wave starts (04 R55 to R61). -/

namespace Sys2Proof.Machine

open Sys2Proof

/-! ## The hold reasons (04 R57) -/

theorem topReached_iff (s : State) : topReached s = true ↔ (∃ x, (recordOf s x).service = .active)
    ∧ ∀ x, (recordOf s x).service = .active → s.wvc.values.topElevation ≤ (recordOf s x).count * s.psv.rig.strokeLength := by
  unfold topReached
  cases h : leastOf ((activeStations s).map fun st => ((recordOf s st).count : Int)) with
  | none =>
    have hnone : ∀ x, (recordOf s x).service ≠ .active := fun x hx => by
      rw [leastOf_none_iff, List.map_eq_nil_iff] at h
      exact List.not_mem_nil (h ▸ (mem_activeStations s x).mpr hx)
    simp [hnone]
  | some m =>
    obtain ⟨hmem, hle⟩ := leastOf_spec h
    obtain ⟨x, hx, rfl⟩ := List.mem_map.mp hmem
    have hactive := (mem_activeStations s x).mp hx
    simp only [decide_eq_true_eq]
    norm_cast
    refine ⟨fun htop => ⟨⟨x, hactive⟩, fun y hy => htop.trans (Nat.mul_le_mul_right _ ?_)⟩, fun hall => hall.2 x hactive⟩
    exact_mod_cast hle _ (List.mem_map_of_mem ((mem_activeStations s y).mpr hy))

theorem usedShort_iff (s : State) : (usedSectors s).any (shortIn s) = true ↔
    ∃ k, used s k = true ∧ (activeIn s k).length < s.psv.rig.minActive := by
  simp [mem_usedSectors, shortIn]

/-- The reasons of a rebuilt set, by their positions. -/
theorem getLsbD_rebuiltHolds (s : State) (age fill : BitVec 16) {j : Nat} (hj : j < 6) :
    (rebuiltHolds s age fill).getLsbD j =
      if j = 4 then (usedSectors s).any (shortIn s) else if j = 3 then decide (fill ≠ 0) else if j = 2 then decide (age ≠ 0)
      else if j = 1 then topReached s else if j = 0 then directiveHolds s else resumeHeld s := by
  simp only [rebuiltHolds, getLsbD_assignBit _ _ _ hj, holdShort, holdFill, holdAge, holdTop, holdDirective, holdResume]
  by_cases h : j = 5
  · rw [if_pos h]
  · simp only [if_neg h]
    split_ifs <;> first | rfl | omega

/-! ## The answer to a rise-permission request (04 R57, R58) -/

/-- The hold reasons rebuilt at an answer. -/
def heldAnew (age fill : BitVec 16) (s : State) : State :=
  { s with wvc := { s.wvc with permission := false, holds := rebuiltHolds s age fill } }

section
variable {s : State} (hview : s.wvc.view ≠ .halted) (age fill : BitVec 16)
include hview

theorem takePermission_of_wave (h : inWave s = true) :
    takePermission age fill s = { s with wvc := { s.wvc with permission := false } } := (if_neg hview).trans (if_pos h)

theorem takePermission_of_calm (h : inWave s = false) : takePermission age fill s =
    if mayClimb (heldAnew age fill s) = true ∧ (heldAnew age fill s).wvc.holds = 0 then
      if startDue (heldAnew age fill s) = true then startDrive (heldAnew age fill s)
      else setClimb .dwell (heldAnew age fill s)
    else setClimb .held (heldAnew age fill s) :=
  (if_neg hview).trans (if_neg (by rw [h]; decide))

end

/-! ## A DRIVE start (04 R60, R61) -/

/-- The Wave Controller at a DRIVE start, before the climb is told. -/
def driveBegun (s : State) : State := { s with
  wvc := { s.wvc with
    waveNumber := nextWaveNumber s.wvc.waveNumber
    dwell := 0
    wave := tabulate fun st => { WaveItem.clear with participant := chosen s st, awaited := chosen s st }
    driveTimer := some ⟨s.tmb.fineTime, 1000 * s.psv.rig.driveTimeout⟩
    driveStart := s.tmb.fineTime }
  mail := s.mail ++ (.motionOnNotice :: ((allStations.filter (chosen s)).map fun st => .openWindow st .both true)
    ++ (allStations.filter (chosen s)).map Instr.openValve) }

theorem startDrive_eq (s : State) : startDrive s = setClimb .drive (driveBegun s) := rfl

theorem itemOf_driveBegun (s : State) (x : Station) :
    itemOf (driveBegun s) x = { WaveItem.clear with participant := chosen s x, awaited := chosen s x } := tabulate_get _ x

theorem driveBegun_wvc (s : State) : (driveBegun s).wvc = { s.wvc with
    waveNumber := nextWaveNumber s.wvc.waveNumber, dwell := 0, wave := (driveBegun s).wvc.wave
    driveTimer := some ⟨s.tmb.fineTime, 1000 * s.psv.rig.driveTimeout⟩, driveStart := s.tmb.fineTime } := by
  unfold driveBegun
  generalize (tabulate fun st => ({ WaveItem.clear with participant := chosen s st, awaited := chosen s st } : WaveItem)) = wave
  rfl

theorem startDrive_wvc (s : State) : (startDrive s).wvc = { (driveBegun s).wvc with climb := .drive } := by
  rw [startDrive_eq, setClimb_wvc]

theorem startDrive_mail (s : State) : (startDrive s).mail =
    (driveBegun s).mail ++ if s.wvc.climb = .held then [.attentionSetRequest .hold] else [] := by
  have hclimb : (driveBegun s).wvc.climb = s.wvc.climb := by rw [driveBegun_wvc]
  rw [startDrive_eq, setClimb_eq, sendAll_mail, hclimb]
  by_cases h : s.wvc.climb = .held <;> simp [h]

theorem nextWaveNumber_eq (n : Word) : nextWaveNumber n = if n = 0xFFFFFFFF#32 then 1 else n + 1 := nextEdition_eq n

theorem chosen_iff (s : State) (st : Station) : chosen s st = true ↔ (recordOf s st).service = .active ∧
    ∀ x, (recordOf s x).service = .active → effectiveCount s st < effectiveCount s x + s.psv.rig.levelBand := by
  unfold chosen isActive
  rw [Bool.and_eq_true, decide_eq_true_iff]
  refine and_congr_right fun hactive => ?_
  cases h : minEffective s with
  | none => exact absurd hactive ((minEffective_none_iff s).mp h st)
  | some m =>
    obtain ⟨⟨y, hy, rfl⟩, hle⟩ := minEffective_some h
    rw [decide_eq_true_iff]
    refine ⟨fun hlt x hx => ?_, fun hall => hall y hy⟩
    have := hle x hx
    omega

/-- Settles O37. -/
theorem holdReasonsAreRebuiltAndAWaveStarts : Obligations.HoldReasonsAreRebuiltAndAWaveStarts := by
  refine ⟨?_, ?_⟩
  · intro s age fill hacting hview c rest ask active climbs due
    have hlead {t : State} (e : takePermission age fill (took c s) = t) : leadsTo c s t :=
      leadsTo_of_taking (exec_risePermissionAnswer age fill s) hacting e
    refine ⟨fun hwave => hlead (takePermission_of_wave (s := took c s) hview age fill hwave), fun hcalm => ?_⟩
    have htake := takePermission_of_calm (s := took c s) hview age fill hcalm
    have hmay : mayClimb (heldAnew age fill (took c s)) = true ↔ climbs := mayClimb_iff _
    have hdue : startDue (heldAnew age fill (took c s)) = true ↔ due := startDue_iff _
    have hfields : ∃ climb wave number dwell timer start, (takePermission age fill (took c s)).wvc =
        { s.wvc with
          permission := false, holds := rebuiltHolds (took c s) age fill, climb := climb, wave := wave
          waveNumber := number, dwell := dwell, driveTimer := timer, driveStart := start } := by
      rw [htake]
      split_ifs
      · rw [startDrive_wvc, driveBegun_wvc]
        exact ⟨_, _, _, _, _, _, rfl⟩
      · rw [setClimb_wvc]
        exact ⟨_, _, _, _, _, _, rfl⟩
      · rw [setClimb_wvc]
        exact ⟨_, _, _, _, _, _, rfl⟩
    obtain ⟨climb, wave, number, dwell, timer, start, hwvc⟩ := hfields
    have hholds : (takePermission age fill (took c s)).wvc.holds = rebuiltHolds (took c s) age fill := by rw [hwvc]
    have hbit {j : Nat} (hj : j < 6) := getLsbD_rebuiltHolds (took c s) age fill hj
    refine ⟨takePermission age fill (took c s), hlead rfl, by rw [hwvc], by rw [hwvc], ?_, ?_, ?_, ?_, ?_, ?_, fun h => ?_,
      fun hclimbs hnone hnot => ?_, fun hclimbs hnone hnow => ?_⟩
    · rw [hholds, hbit (by omega)]
      exact directiveHolds_iff _
    · rw [hholds, hbit (by omega)]
      exact topReached_iff _
    · rw [hholds, hbit (by omega)]
      exact decide_eq_true_iff
    · rw [hholds, hbit (by omega)]
      exact decide_eq_true_iff
    · rw [hholds, hbit (by omega)]
      exact usedShort_iff _
    · rw [hholds, hbit (by omega)]
      rfl
    · have hheld : takePermission age fill (took c s) = setClimb .held (heldAnew age fill (took c s)) := by
        rw [htake, if_neg]
        rintro ⟨hclimbs, hnone⟩
        exact h.elim (fun hn => hn (hmay.mp hclimbs)) fun hn => hn (hholds.trans hnone)
      rw [hheld]
      refine ⟨by rw [setClimb_wvc], ?_⟩
      by_cases hs : s.wvc.climb = .held
      · rw [setClimb_held_mail_of_held (by exact hs)]
        simp only [ask, hs]
        exact (List.append_nil _).symm
      · rw [setClimb_held_mail_of_ne (by exact hs)]
        simp only [ask]
        rw [if_pos hs]
        rfl
    · have hdwell : takePermission age fill (took c s) = setClimb .dwell (heldAnew age fill (took c s)) := by
        rw [htake, if_pos ⟨hmay.mpr hclimbs, hholds.symm.trans hnone⟩, if_neg (mt hdue.mp hnot)]
      rw [hdwell]
      refine ⟨by rw [setClimb_wvc], ?_⟩
      rw [setClimb_eq]
      simp only [ask]
      by_cases hs : s.wvc.climb = .held
      · rw [if_neg (by simp [heldAnew, hs]), if_pos hs]
        rfl
      · rw [if_pos (by simp [heldAnew, hs]), if_neg hs]
        rfl
    · have hnone' : rebuiltHolds (took c s) age fill = 0 := hholds.symm.trans hnone
      have hdrive : takePermission age fill (took c s) = startDrive (heldAnew age fill (took c s)) := by
        rw [htake, if_pos ⟨hmay.mpr hclimbs, hnone'⟩, if_pos (hdue.mpr hnow)]
      rw [hdrive]
      refine ⟨by rw [startDrive_wvc], ?_⟩
      rw [heldAnew, hnone']
      rfl
  · intro s t
    have hwvc := startDrive_wvc s
    have hbegun := driveBegun_wvc s
    rw [hbegun] at hwvc
    refine ⟨by rw [hwvc], by rw [hwvc], by rw [hwvc], by rw [hwvc], ?_, by rw [hwvc], fun st => ?_, chosen_iff s,
      startDrive_mail s⟩
    · rw [hwvc]
      exact nextWaveNumber_eq _
    · refine Eq.trans ?_ (itemOf_driveBegun s st)
      unfold itemOf
      rw [hwvc]

end Sys2Proof.Machine
end

section
/-! SUPPORT. Marks and bars: what a mark leaves, what a bar leaves, and how a phase that it leaves with nothing to wait for
ends (04 R71 to R74). -/

namespace Sys2Proof.Machine

open Sys2Proof

theorem put_put {α : Type} {n : Nat} (t : Table α n) (i : Fin n) (x y : α) : put (put t i x) i y = put t i y := by
  refine table_ext fun j => ?_
  simp only [put_get]
  split <;> rfl

/-! ## Counts told once -/

theorem flushCounts_of_silent {s : State} (h : tellsCounts s = false) : flushCounts s = s := by
  rw [flushCounts_eq, h, if_neg Bool.false_ne_true, Bool.not_false, Bool.and_true, List.append_nil]

theorem tellsCounts_of_ending {s : State} (h : s.wvc.ending ≠ none) : tellsCounts s = false := by
  simp [tellsCounts, h]

theorem tellsCounts_flushCounts (s : State) : tellsCounts (flushCounts s) = false := by
  have hdirty : (flushCounts s).wvc.countsDirty = (s.wvc.countsDirty && !tellsCounts s) := by rw [flushCounts_eq]
  by_cases h : tellsCounts s = true
  · rw [tellsCounts, hdirty, h, Bool.not_true, Bool.and_false, Bool.false_and, Bool.false_and]
  · rw [flushCounts_of_silent (Bool.eq_false_iff.mpr h)]
    exact Bool.eq_false_iff.mpr h

theorem flushCounts_flushCounts (s : State) : flushCounts (flushCounts s) = flushCounts s :=
  flushCounts_of_silent (tellsCounts_flushCounts s)

/-! ## A mark (04 R71) -/

/-- A mark given, and the events named with it. -/
def markGiven (events : BitVec 9) (st : Station) (s : State) : State := { s with
  wvc := { s.wvc with
    table := put s.wvc.table st { recordOf s st with
      marks := min 3 ((recordOf s st).marks + 1), cleanRun := 0, events := (recordOf s st).events ||| events }
    wave := put s.wvc.wave st { itemOf s st with marked := (itemOf s st).marked || isParticipant s st } }
  mail := s.mail ++ askedEvent (recordOf s st).events events }

/-- A mark noted for the wave in flight. -/
def markNoted (st : Station) (s : State) : State :=
  if isParticipant s st then setItem s st { itemOf s st with marked := true } else s

theorem markNoted_eq (st : Station) (s : State) :
    markNoted st s = setItem s st { itemOf s st with marked := (itemOf s st).marked || isParticipant s st } := by
  unfold markNoted
  cases isParticipant s st
  · have hsame : put s.wvc.wave st (itemOf s st) = s.wvc.wave := put_get_self _ _
    rw [if_neg Bool.false_ne_true, Bool.or_false]
    unfold setItem
    rw [show ({ itemOf s st with marked := (itemOf s st).marked } : WaveItem) = itemOf s st from rfl, hsame]
  · rw [if_pos rfl, Bool.or_true]

theorem giveMark_of_inactive {st : Station} {s : State} (h : (recordOf s st).service ≠ .active) (events : BitVec 9) :
    giveMark events st s = judged st { recordOf s st with events := (recordOf s st).events ||| events }
      (askedEvent (recordOf s st).events events) s :=
  (if_neg h).trans (addEvents_judged st events s)

theorem giveMark_of_active {st : Station} {s : State} (h : (recordOf s st).service = .active) (events : BitVec 9) :
    giveMark events st s = if 2 ≤ (recordOf s st).marks then bar events st (markGiven events st s)
      else markGiven events st s := by
  have hrecord (r : StationRecord) (i : WaveItem) : recordOf (setItem (setRecord s st r) st i) st = r := by
    change recordOf (setRecord s st r) st = r
    rw [recordOf_setRecord_ite, if_pos rfl]
  have hgiven : addEvents st events (markNoted st (setRecord s st
      { recordOf s st with marks := min 3 ((recordOf s st).marks + 1), cleanRun := 0 })) = markGiven events st s := by
    rw [markNoted_eq, addEvents_eq, hrecord]
    unfold markGiven setRecord setItem
    simp only [put_put]
    rfl
  have hlimit : (Config.markLimit ≤ (recordOf s st).marks + 1) ↔ 2 ≤ (recordOf s st).marks := Nat.succ_le_succ_iff
  refine (if_pos h).trans ?_
  dsimp only
  simp only [hlimit]
  rw [← hgiven]
  rfl

theorem recordOf_markGiven (events : BitVec 9) (st x : Station) (s : State) : recordOf (markGiven events st s) x =
    if x = st then { recordOf s st with
      marks := min 3 ((recordOf s st).marks + 1), cleanRun := 0, events := (recordOf s st).events ||| events }
    else recordOf s x := by
  simp only [recordOf, markGiven, put_get, eq_comm]

theorem itemOf_markGiven (events : BitVec 9) (st x : Station) (s : State) : itemOf (markGiven events st s) x =
    if x = st then { itemOf s st with marked := (itemOf s st).marked || isParticipant s st } else itemOf s x := by
  simp only [itemOf, markGiven, put_get, eq_comm]

/-! ## A bar (04 R73, R74) -/

/-- The drain a bar sends, by the part the station takes in the wave. -/
def barDrain (s : State) (st : Station) : Drain :=
  ⟨st, if isParticipant s st then (if s.wvc.climb = .drive then .barDrive else .barSettle) else .discard⟩

/-- What a bar leaves, the counts owed. -/
def barTaken (events : BitVec 9) (st : Station) (s : State) : State := { s with
  wvc := { s.wvc with
    table := put s.wvc.table st { recordOf s st with
      service := .barred, events := (recordOf s st).events ||| (events ||| evBarred) }
    wave := if isParticipant s st then put s.wvc.wave st { itemOf s st with participant := false, awaited := false }
      else s.wvc.wave
    drains := s.wvc.drains ++ [barDrain s st]
    holds := if shortWithout s st = true then s.wvc.holds ||| 0x10#6 else s.wvc.holds
    climb := if (shortWithout s st && decide (s.wvc.climb = .dwell)) = true then .held else s.wvc.climb
    countsDirty := true }
  mail := s.mail ++ askedEvent (recordOf s st).events (events ||| evBarred) ++ .drainQueue st ::
    (if isParticipant s st then [.offValve st] else [.closeWindow st, .offValve st])
    ++ if (shortWithout s st && decide (s.wvc.climb = .dwell)) = true then [.attentionSetRequest .hold] else [] }

/-- A station barred, its events set and its window stopped. -/
def barStopped (events : BitVec 9) (st : Station) (s : State) : State := { s with
  wvc := { s.wvc with
    table := put s.wvc.table st { recordOf s st with
      service := .barred, events := (recordOf s st).events ||| (events ||| evBarred) }
    wave := if isParticipant s st then put s.wvc.wave st { itemOf s st with participant := false, awaited := false }
      else s.wvc.wave
    drains := s.wvc.drains ++ [barDrain s st] }
  mail := s.mail ++ askedEvent (recordOf s st).events (events ||| evBarred) ++ .drainQueue st ::
    (if isParticipant s st then [.offValve st] else [.closeWindow st, .offValve st]) }

theorem barStops_eq (st : Station) (s : State) : send (.offValve st) (barStops st s) = { s with
    wvc := { s.wvc with
      wave := if isParticipant s st then put s.wvc.wave st { itemOf s st with participant := false, awaited := false }
        else s.wvc.wave
      drains := s.wvc.drains ++ [barDrain s st] }
    mail := s.mail ++ .drainQueue st :: (if isParticipant s st then [.offValve st] else [.closeWindow st, .offValve st]) } := by
  unfold barStops barDrain
  cases isParticipant s st
  · simp only [Bool.false_eq_true, if_false, sendDrainClose, sendDrain, send, List.append_assoc]
    rfl
  · simp only [if_true, setItem, sendDrain, send, List.append_assoc]
    rfl

theorem barStopped_eq (events : BitVec 9) (st : Station) (s : State) :
    send (.offValve st) (barStops st (addEvents st (events ||| evBarred)
      (setRecord s st { recordOf s st with service := .barred }))) = barStopped events st s := by
  have hrecord : recordOf (setRecord s st { recordOf s st with service := .barred }) st =
      { recordOf s st with service := .barred } := by rw [recordOf_setRecord_ite, if_pos rfl]
  rw [barStops_eq, addEvents_eq, hrecord]
  unfold barStopped setRecord
  simp only [put_put]
  rfl

theorem shortIn_barStopped (events : BitVec 9) (st : Station) (s : State) :
    shortIn (barStopped events st s) (sectorOf st) = shortWithout s st :=
  shortIn_setRecord (r := { recordOf s st with
    service := .barred, events := (recordOf s st).events ||| (events ||| evBarred) }) ServiceState.noConfusion s st

theorem barOwing_eq (events : BitVec 9) (st : Station) (s : State) : barOwing events st s = barTaken events st s := by
  have hunfold : barOwing events st s = oweCounts (evaluateShort st (send (.offValve st) (barStops st
      (addEvents st (events ||| evBarred) (setRecord s st { recordOf s st with service := .barred }))))) := rfl
  have hfalls : fallsShort st (barStopped events st s) = (shortWithout s st && decide (s.wvc.climb = .dwell)) := by
    rw [fallsShort, shortIn_barStopped]
    rfl
  rw [hunfold, barStopped_eq, evaluateShort_eq, shortIn_barStopped, hfalls]
  rfl

theorem bar_eq (events : BitVec 9) (st : Station) (s : State) :
    bar events st s = flushCounts (checkPhase (barTaken events st s)) := by
  rw [bar, barOwing_eq]

/-- While the answers of a phase end are awaited a bar ends nothing and tells nothing. -/
theorem bar_of_ending {s : State} (h : s.wvc.ending ≠ none) (events : BitVec 9) (st : Station) :
    bar events st s = barTaken events st s := by
  have hending : (barTaken events st s).wvc.ending ≠ none := h
  rw [bar_eq, checkPhase_of_ending hending, flushCounts_of_silent (tellsCounts_of_ending hending)]

theorem recordOf_barTaken (events : BitVec 9) (st x : Station) (s : State) : recordOf (barTaken events st s) x =
    if x = st then { recordOf s st with
      service := .barred, events := (recordOf s st).events ||| (events ||| evBarred) } else recordOf s x := by
  simp only [recordOf, barTaken, put_get, eq_comm]

theorem itemOf_barTaken (events : BitVec 9) (st x : Station) (s : State) : itemOf (barTaken events st s) x =
    if x = st then (if isParticipant s st then { itemOf s st with participant := false, awaited := false } else itemOf s st)
    else itemOf s x := by
  have hwave : (barTaken events st s).wvc.wave = if isParticipant s st then
      put s.wvc.wave st { itemOf s st with participant := false, awaited := false } else s.wvc.wave := rfl
  by_cases h : isParticipant s st = true
  · rw [if_pos h] at hwave ⊢
    simp only [itemOf, hwave, put_get, eq_comm]
  · rw [if_neg h] at hwave ⊢
    rw [itemOf, hwave]
    split
    case isTrue hx =>
      rw [hx]
      rfl
    case isFalse => rfl

end Sys2Proof.Machine
end

section
/-! PROOF. Marks, bars, coil faults and lost probes (04 R71 to R75). -/

namespace Sys2Proof.Machine

open Sys2Proof

/-! ## What a bar leaves of the phase -/

/-- The stations that still take part once a station is out. -/
def leftBehind (s : State) (st : Station) : List Station :=
  allStations.filter fun x => inWave s && decide (x ≠ st) && (itemOf s x).participant

/-- Somebody but the station is awaited. -/
def othersAwaited (s : State) (st : Station) : Prop :=
  ∃ x, x ≠ st ∧ (itemOf s x).participant = true ∧ (itemOf s x).awaited = true

/-- What a bar of a station leaves, from `s`, before the phase is looked at. -/
structure BarLeft (s : State) (st : Station) (X : State) : Prop where
  rest : ∃ T W M, X = { s with
    wvc := { s.wvc with
      table := T, wave := W, drains := s.wvc.drains ++ [barDrain s st]
      holds := if shortWithout s st = true then s.wvc.holds ||| 0x10#6 else s.wvc.holds
      climb := if (shortWithout s st && decide (s.wvc.climb = .dwell)) = true then .held else s.wvc.climb
      countsDirty := true }
    mail := M }
  items : ∀ x, x ≠ st → itemOf X x = itemOf s x
  out : inWave s = true → (itemOf X st).participant = false

theorem shortWithout_congr {s t : State} {st : Station} (hrig : t.psv.rig = s.psv.rig)
    (hrecords : ∀ x, x ≠ st → recordOf t x = recordOf s x) : shortWithout t st = shortWithout s st := by
  have hfilter : ((stationsOf (sectorOf st)).filter fun x => decide (x ≠ st) && decide ((recordOf t x).service = .active)) =
      (stationsOf (sectorOf st)).filter fun x => decide (x ≠ st) && decide ((recordOf s x).service = .active) :=
    List.filter_congr fun x _ => by
      by_cases hx : x = st
      · rw [decide_eq_false (not_not_intro hx), Bool.false_and, Bool.false_and]
      · rw [hrecords x hx]
  rw [shortWithout, shortWithout, hfilter, used, used, hrig]

theorem isParticipant_congr {s t : State} {st : Station} (hclimb : t.wvc.climb = s.wvc.climb)
    (hitem : (itemOf t st).participant = (itemOf s st).participant) : isParticipant t st = isParticipant s st := by
  rw [isParticipant, isParticipant, inWave, inWave, hclimb, hitem]

/-- A bar from a state that differs from `s` in the station itself alone. -/
theorem barLeft_barTaken {s b : State} {st : Station} {T : Table StationRecord 64} {W : Table WaveItem 64} {M : List Instr}
    (hb : b = { s with wvc := { s.wvc with table := T, wave := W }, mail := M })
    (hrecords : ∀ x, x ≠ st → recordOf b x = recordOf s x) (hitems : ∀ x, x ≠ st → itemOf b x = itemOf s x)
    (hpart : (itemOf b st).participant = (itemOf s st).participant) (events : BitVec 9) :
    BarLeft s st (barTaken events st b) := by
  have hclimb : b.wvc.climb = s.wvc.climb := by rw [hb]
  have hshort : shortWithout b st = shortWithout s st := shortWithout_congr (by rw [hb]) hrecords
  have hdrain : barDrain b st = barDrain s st := by rw [barDrain, barDrain, isParticipant_congr hclimb hpart, hclimb]
  refine ⟨?_, fun x hx => ?_, fun hwave => ?_⟩
  · rw [barTaken, hshort, hdrain, hclimb, hb]
    exact ⟨_, _, _, rfl⟩
  · rw [itemOf_barTaken, if_neg hx, hitems x hx]
  · rw [itemOf_barTaken, if_pos rfl, isParticipant_congr hclimb hpart, isParticipant, hwave, Bool.true_and]
    by_cases h : (itemOf s st).participant = true
    · rw [if_pos h]
    · rw [if_neg h, hpart]
      exact Bool.eq_false_iff.mpr h

namespace BarLeft

variable {s X : State} {st : Station} (h : BarLeft s st X)
include h

theorem ending : X.wvc.ending = s.wvc.ending := by
  obtain ⟨⟨T, W, M, hrest⟩, -, -⟩ := h
  rw [hrest]

theorem climb_of_inWave (hwave : inWave s = true) : X.wvc.climb = s.wvc.climb := by
  obtain ⟨⟨T, W, M, hrest⟩, -, -⟩ := h
  have hdwell : s.wvc.climb ≠ .dwell := by
    rintro hdwell
    rw [inWave, hdwell] at hwave
    cases hwave
  rw [hrest]
  exact if_neg (by simp [hdwell])

theorem takingPart_eq (hwave : inWave s = true) : takingPart X = leftBehind s st :=
  List.filter_congr fun x _ => by
    rw [hwave, Bool.true_and]
    by_cases hx : x = st
    · rw [hx, h.out hwave, decide_eq_false (not_not_intro rfl), Bool.false_and]
    · rw [h.items x hx, decide_eq_true hx, Bool.true_and]

theorem awaitEmpty_iff (hwave : inWave s = true) : awaitEmpty X = true ↔ ¬othersAwaited s st := by
  rw [Machine.awaitEmpty_iff]
  constructor
  · rintro hall ⟨x, hx, hboth⟩
    rw [← h.items x hx] at hboth
    exact hall x hboth
  · intro hnone x hboth
    by_cases hx : x = st
    · rw [hx, h.out hwave] at hboth
      exact Bool.false_ne_true hboth.1
    · rw [h.items x hx] at hboth
      exact hnone ⟨x, hx, hboth⟩

/-- The bar ends no phase. -/
theorem checkPhase_eq (hdrive : ¬(s.wvc.ending = none ∧ s.wvc.climb = .drive ∧ ¬othersAwaited s st))
    (hsettle : ¬(s.wvc.ending = none ∧ s.wvc.climb = .settle ∧ ¬othersAwaited s st ∧ s.wvc.fallTimer = none)) :
    checkPhase X = X := by
  by_cases hending : s.wvc.ending = none
  case neg => exact checkPhase_of_ending (by rw [h.ending]; exact hending)
  have hXending : X.wvc.ending = none := h.ending.trans hending
  by_cases hd : s.wvc.climb = .drive
  · have hwave := (inWave_iff s).mpr (.inl hd)
    rw [checkPhase_of_drive hXending ((h.climb_of_inWave hwave).trans hd), if_neg]
    rw [h.awaitEmpty_iff hwave]
    exact fun hnone => hdrive ⟨hending, hd, hnone⟩
  by_cases hs : s.wvc.climb = .settle
  · have hwave := (inWave_iff s).mpr (.inr hs)
    have hfall : X.wvc.fallTimer = s.wvc.fallTimer := by
      obtain ⟨⟨T, W, M, hrest⟩, -, -⟩ := h
      rw [hrest]
    rw [checkPhase_of_settle hXending ((h.climb_of_inWave hwave).trans hs), if_neg]
    rw [h.awaitEmpty_iff hwave, hfall]
    exact fun ⟨hnone, hover⟩ => hsettle ⟨hending, hs, hnone, hover⟩
  · refine checkPhase_of_calm hXending ?_ ?_
    all_goals
      obtain ⟨⟨T, W, M, hrest⟩, -, -⟩ := h
      rw [hrest]
      dsimp only
      split
      · exact Climb.noConfusion
      · assumption

theorem noDrain_driveEnd (hdrains : ∀ d ∈ s.wvc.drains, d.purpose ≠ .driveEnd) :
    ∀ d ∈ X.wvc.drains, d.purpose ≠ .driveEnd := by
  obtain ⟨⟨T, W, M, hrest⟩, -, -⟩ := h
  rw [hrest]
  intro d hd
  rcases List.mem_append.mp hd with hd | hd
  · exact hdrains d hd
  · rw [List.mem_singleton.mp hd, barDrain]
    dsimp only
    split_ifs <;> exact DrainPurpose.noConfusion

theorem noDrain_settleEnd (hdrains : ∀ d ∈ s.wvc.drains, d.purpose ≠ .settleEnd) :
    ∀ d ∈ X.wvc.drains, d.purpose ≠ .settleEnd := by
  obtain ⟨⟨T, W, M, hrest⟩, -, -⟩ := h
  rw [hrest]
  intro d hd
  rcases List.mem_append.mp hd with hd | hd
  · exact hdrains d hd
  · rw [List.mem_singleton.mp hd, barDrain]
    dsimp only
    split_ifs <;> exact DrainPurpose.noConfusion

theorem drains_mono {d : Drain} (hd : d ∈ s.wvc.drains) : d ∈ X.wvc.drains := by
  obtain ⟨⟨T, W, M, hrest⟩, -, -⟩ := h
  rw [hrest]
  exact List.mem_append_left _ hd

section
variable (hending : s.wvc.ending = none) (hclimb : s.wvc.climb = .drive) (hnone : ¬othersAwaited s st)
include hending hclimb hnone

/-- The bar ends DRIVE. -/
theorem checkPhase_drive : checkPhase X = beginDriveEnd false X := by
  have hwave := (inWave_iff s).mpr (.inl hclimb)
  rw [checkPhase_of_drive (h.ending.trans hending) ((h.climb_of_inWave hwave).trans hclimb),
    if_pos ((h.awaitEmpty_iff hwave).mpr hnone)]

theorem drive_drained (hsome : leftBehind s st ≠ [] ∨ ∃ d ∈ s.wvc.drains, d.purpose = .driveEnd) :
    flushCounts (checkPhase X) = driveEnded false X := by
  have hwave := (inWave_iff s).mpr (.inl hclimb)
  have hdrains : takingPart X ≠ [] ∨ ∃ d ∈ X.wvc.drains, d.purpose = .driveEnd := by
    rw [h.takingPart_eq hwave]
    exact hsome.imp_right fun ⟨d, hd, hp⟩ => ⟨d, h.drains_mono hd, hp⟩
  rw [h.checkPhase_drive hending hclimb hnone, beginDriveEnd_of_drains hdrains,
    flushCounts_of_silent (tellsCounts_of_ending (Option.some_ne_none _))]

theorem drive_over (hleft : leftBehind s st = []) (hdrains : ∀ d ∈ s.wvc.drains, d.purpose ≠ .driveEnd) :
    flushCounts (checkPhase X) = flushCounts (settleBegun (driveEnded false X)) := by
  have hwave := (inWave_iff s).mpr (.inl hclimb)
  rw [h.checkPhase_drive hending hclimb hnone,
    beginDriveEnd_of_none ((h.takingPart_eq hwave).trans hleft) (h.noDrain_driveEnd hdrains), finishDriveEnd_eq,
    flushCounts_flushCounts]

end

theorem participants_eq (hclimb : s.wvc.climb = .settle) : participants X = leftBehind s st := by
  have hwave := (inWave_iff s).mpr (.inr hclimb)
  rw [participants_of_settle ((h.climb_of_inWave hwave).trans hclimb), h.takingPart_eq hwave]

section
variable (hending : s.wvc.ending = none) (hclimb : s.wvc.climb = .settle) (hnone : ¬othersAwaited s st)
  (hfall : s.wvc.fallTimer = none)
include hending hclimb hnone hfall

/-- The bar ends SETTLE. -/
theorem checkPhase_settle : checkPhase X = beginSettleEnd X := by
  have hwave := (inWave_iff s).mpr (.inr hclimb)
  have hXfall : X.wvc.fallTimer = none := by
    obtain ⟨⟨T, W, M, hrest⟩, -, -⟩ := h
    rw [hrest]
    exact hfall
  rw [checkPhase_of_settle (h.ending.trans hending) ((h.climb_of_inWave hwave).trans hclimb),
    if_pos ⟨(h.awaitEmpty_iff hwave).mpr hnone, hXfall⟩]

theorem settle_drained (hsome : leftBehind s st ≠ [] ∨ ∃ d ∈ s.wvc.drains, d.purpose = .settleEnd) :
    flushCounts (checkPhase X) = settleEnded X := by
  have hdrains : participants X ≠ [] ∨ ∃ d ∈ X.wvc.drains, d.purpose = .settleEnd := by
    rw [h.participants_eq hclimb]
    exact hsome.imp_right fun ⟨d, hd, hp⟩ => ⟨d, h.drains_mono hd, hp⟩
  rw [h.checkPhase_settle hending hclimb hnone hfall, beginSettleEnd_of_drains hdrains,
    flushCounts_of_silent (tellsCounts_of_ending (Option.some_ne_none _))]

theorem settle_over (hleft : leftBehind s st = []) (hdrains : ∀ d ∈ s.wvc.drains, d.purpose ≠ .settleEnd) :
    flushCounts (checkPhase X) = flushCounts (finishSettleEnd (settleEnded X)) := by
  rw [h.checkPhase_settle hending hclimb hnone hfall,
    beginSettleEnd_of_none ((h.participants_eq hclimb).trans hleft) (h.noDrain_settleEnd hdrains)]

end

end BarLeft

/-! ## The counts told behind a bar -/

theorem flushCounts_told {s : State} (hdirty : s.wvc.countsDirty = true) {p : Prop} (hp : tellsCounts s = true ↔ p)
    {sent : List Instr} (hsent : s.mail = sent) :
    (p → (flushCounts s).mail = sent ++ [.countsChanged] ∧ (flushCounts s).wvc.countsDirty = false)
      ∧ (¬p → (flushCounts s).mail = sent ∧ (flushCounts s).wvc.countsDirty = true) := by
  rw [flushCounts_eq]
  refine ⟨fun h => ?_, fun h => ?_⟩
  · rw [hp.mpr h]
    exact ⟨by rw [if_pos rfl, hsent], by rw [Bool.not_true, Bool.and_false]⟩
  · rw [Bool.eq_false_iff.mpr (mt hp.mp h), if_neg Bool.false_ne_true, List.append_nil]
    exact ⟨hsent, by rw [hdirty, Bool.not_false, Bool.and_true]⟩

theorem tellsCounts_iff {s : State} (hdirty : s.wvc.countsDirty = true) : tellsCounts s = true ↔
    s.wvc.ending = none ∧ ¬∃ d ∈ s.wvc.drains, d.purpose ≠ .discard := by
  simp [tellsCounts, hdirty]

/-! ## What a bar comes to -/

/-- A bar carried out, from `s`: `X` is what it leaves before the phase is looked at, `rec` and `item` what it leaves of the
station, `sent` the messages that then wait. -/
structure BarStep (c : Instr) (s : State) (st : Station) (rec : StationRecord) (item : WaveItem) (sent : List Instr)
    (X : State) : Prop where
  lead : leadsTo c s (flushCounts (checkPhase X))
  left : BarLeft s st X
  record : ∀ x, recordOf X x = if x = st then rec else recordOf s x
  item : ∀ x, itemOf X x = if x = st then item else itemOf s x
  mail : X.mail = sent

/-- The state a bar comes to, but for the items of the wave. -/
def barLeaves (s : State) (st : Station) (rec : StationRecord) (sent : List Instr) (climb : Climb)
    (ending : Option WaveEnding) (more : List Drain) (after : List Instr) (tells : Prop) (u : State) : Prop :=
  recordOf u st = rec ∧ (∀ x, x ≠ st → recordOf u x = recordOf s x) ∧ u.wvc.climb = climb ∧ u.wvc.ending = ending
    ∧ u.wvc.holds = (if shortWithout s st = true then s.wvc.holds ||| 0x10#6 else s.wvc.holds)
    ∧ u.wvc.drains = s.wvc.drains ++ [barDrain s st] ++ more
    ∧ (tells → u.mail = sent ++ after ++ [.countsChanged] ∧ u.wvc.countsDirty = false)
    ∧ (¬tells → u.mail = sent ++ after ∧ u.wvc.countsDirty = true)

theorem flushCounts_wvc (s : State) :
    (flushCounts s).wvc = { s.wvc with countsDirty := (flushCounts s).wvc.countsDirty } := by
  rw [flushCounts_eq]

/-- What is told last, behind what the phase's end leaves. -/
theorem barLeaves_flushCounts {s X Y : State} {st : Station} {rec : StationRecord} {sent after : List Instr} {climb : Climb}
    {ending : Option WaveEnding} {more : List Drain} {tells : Prop} (hleft : BarLeft s st X)
    (hrecord : ∀ x, recordOf X x = if x = st then rec else recordOf s x) (htable : Y.wvc.table = X.wvc.table)
    (hclimb : Y.wvc.climb = climb) (hending : Y.wvc.ending = ending) (hholds : Y.wvc.holds = X.wvc.holds)
    (hdrains : Y.wvc.drains = X.wvc.drains ++ more) (hdirty : Y.wvc.countsDirty = true) (hsent : Y.mail = sent ++ after)
    (htells : tellsCounts Y = true ↔ tells) : barLeaves s st rec sent climb ending more after tells (flushCounts Y) := by
  obtain ⟨hyes, hno⟩ := flushCounts_told hdirty htells hsent
  obtain ⟨⟨T, W, M, hX⟩, -, -⟩ := hleft
  have hwvc := flushCounts_wvc Y
  have hrecords (x : Station) : recordOf (flushCounts Y) x = if x = st then rec else recordOf s x := by
    rw [← hrecord]
    unfold recordOf
    rw [hwvc, ← htable]
  refine ⟨(hrecords st).trans (if_pos rfl), fun x hx => (hrecords x).trans (if_neg hx), ?_, ?_, ?_, ?_, hyes, hno⟩
  · rw [hwvc]
    exact hclimb
  · rw [hwvc]
    exact hending
  · rw [hwvc]
    refine hholds.trans ?_
    rw [hX]
  · rw [hwvc]
    refine hdrains.trans ?_
    rw [hX]

theorem settleBegun_spec (s : State) : (settleBegun s).wvc.table = s.wvc.table ∧ (settleBegun s).wvc.climb = s.wvc.climb
    ∧ (settleBegun s).wvc.ending = none ∧ (settleBegun s).wvc.holds = s.wvc.holds
    ∧ (settleBegun s).wvc.drains = s.wvc.drains ∧ (settleBegun s).wvc.countsDirty = s.wvc.countsDirty
    ∧ (settleBegun s).wvc.settleTimer = some ⟨s.tmb.fineTime, 1000 * s.psv.rig.settleTimeout⟩
    ∧ (settleBegun s).wvc.fallTimer = some ⟨s.tmb.fineTime, s.psv.rig.fallRamp⟩ := by
  unfold settleBegun
  generalize mapAll s.wvc.wave WaveItem.awaitSettle = wave
  exact ⟨rfl, rfl, rfl, rfl, rfl, rfl, rfl, rfl⟩

theorem driveEnded_kept (woundDown : Bool) (s : State) : (driveEnded woundDown s).wvc.holds = s.wvc.holds
    ∧ (driveEnded woundDown s).wvc.countsDirty = s.wvc.countsDirty
    ∧ (driveEnded woundDown s).wvc.drains = s.wvc.drains ++ (takingPart s).map (fun x => ⟨x, .driveEnd⟩)
    ∧ (driveEnded woundDown s).tmb = s.tmb ∧ (driveEnded woundDown s).psv = s.psv := by
  unfold driveEnded
  generalize mapAll s.wvc.wave _ = wave
  exact ⟨rfl, rfl, rfl, rfl, rfl⟩

namespace BarStep

variable {c : Instr} {s X : State} {st : Station} {rec : StationRecord} {item : WaveItem} {sent : List Instr}
  (h : BarStep c s st rec item sent X)
include h

theorem dirty : X.wvc.countsDirty = true := by
  obtain ⟨⟨T, W, M, hX⟩, -, -⟩ := h.left
  rw [hX]

theorem drains_eq : X.wvc.drains = s.wvc.drains ++ [barDrain s st] := by
  obtain ⟨⟨T, W, M, hX⟩, -, -⟩ := h.left
  rw [hX]

/-- A bar that ends no phase. -/
theorem goesOn (hdrive : ¬(s.wvc.ending = none ∧ s.wvc.climb = .drive ∧ ¬othersAwaited s st))
    (hsettle : ¬(s.wvc.ending = none ∧ s.wvc.climb = .settle ∧ ¬othersAwaited s st ∧ s.wvc.fallTimer = none)) :
    ∃ u, leadsTo c s u ∧ (∀ x, itemOf u x = if x = st then item else itemOf s x) ∧ barLeaves s st rec sent
      (if (shortWithout s st && decide (s.wvc.climb = .dwell)) = true then .held else s.wvc.climb) s.wvc.ending [] []
      (s.wvc.ending = none ∧ ¬∃ d ∈ s.wvc.drains ++ [barDrain s st], d.purpose ≠ .discard) u := by
  have hlead := h.lead
  rw [h.left.checkPhase_eq hdrive hsettle] at hlead
  refine ⟨_, hlead, fun x => (itemOf_flushCounts X x).trans (h.item x),
    barLeaves_flushCounts h.left h.record rfl ?_ h.left.ending rfl ?_ h.dirty ?_ ?_⟩
  · obtain ⟨⟨T, W, M, hX⟩, -, -⟩ := h.left
    rw [hX]
  · rw [List.append_nil]
  · rw [List.append_nil, h.mail]
  · rw [tellsCounts_iff h.dirty, h.drains_eq, h.left.ending]

section
variable (hending : s.wvc.ending = none) (hclimb : s.wvc.climb = .drive) (hnone : ¬othersAwaited s st)
include hending hclimb hnone

/-- A bar that ends DRIVE, others being drained. -/
theorem drive_drained (hsome : leftBehind s st ≠ [] ∨ ∃ d ∈ s.wvc.drains, d.purpose = .driveEnd) :
    leadsTo c s (driveEnded false X) ∧ (driveEnded false X).wvc.driveTimer = none
      ∧ (∀ x, itemOf (driveEnded false X) x = (itemOf X x).driveOver false) ∧ barLeaves s st rec sent .settle (some .driveEnd)
      ((leftBehind s st).map fun x => ⟨x, .driveEnd⟩) ((leftBehind s st).map Instr.drainQueue) False (driveEnded false X) := by
  have htaking := h.left.takingPart_eq ((inWave_iff s).mpr (.inl hclimb))
  obtain ⟨hsettle, hend, htimer, htable, hmail⟩ := driveEnded_spec false X
  have hwvc := driveEnded_wvc false X
  have hsilent : tellsCounts (driveEnded false X) = false :=
    tellsCounts_of_ending (by rw [hend]; exact Option.some_ne_none _)
  have hlead := h.lead
  rw [h.left.drive_drained hending hclimb hnone hsome] at hlead
  refine ⟨hlead, htimer, itemOf_driveEnded false X, ?_⟩
  rw [← flushCounts_of_silent hsilent]
  refine barLeaves_flushCounts h.left h.record htable hsettle hend ?_ ?_ ?_ ?_ ?_
  · rw [hwvc]
  · rw [hwvc, htaking]
  · rw [hwvc]
    exact h.dirty
  · rw [hmail, h.mail, htaking]
  · rw [hsilent]
    exact ⟨fun hp => Bool.false_ne_true hp, False.elim⟩

/-- A bar that ends DRIVE with nobody left. -/
theorem drive_over (hleft : leftBehind s st = []) (hdrains : ∀ d ∈ s.wvc.drains, d.purpose ≠ .driveEnd) :
    ∃ u, leadsTo c s u ∧ u.wvc.driveTimer = none ∧ (∀ x, itemOf u x = (itemOf X x).driveOver false)
      ∧ barLeaves s st rec sent .settle none [] [] (¬∃ d ∈ s.wvc.drains ++ [barDrain s st], d.purpose ≠ .discard) u
      ∧ u.wvc.settleTimer = some ⟨s.tmb.fineTime, 1000 * s.psv.rig.settleTimeout⟩
      ∧ u.wvc.fallTimer = some ⟨s.tmb.fineTime, s.psv.rig.fallRamp⟩ := by
  have htaking := (h.left.takingPart_eq ((inWave_iff s).mpr (.inl hclimb))).trans hleft
  obtain ⟨hsettle, -, htimer, htable, hmail⟩ := driveEnded_spec false X
  obtain ⟨hholds, hdirty, hwaits, htmb, hpsv⟩ := driveEnded_kept false X
  obtain ⟨hYtable, hYclimb, hYending, hYholds, hYdrains, hYdirty, hYtimer, hYfall⟩ := settleBegun_spec (driveEnded false X)
  have hYdriveTimer : (settleBegun (driveEnded false X)).wvc.driveTimer = none := by
    rw [settleBegun_wvc]
    exact htimer
  have hYmail : (settleBegun (driveEnded false X)).mail = sent ++ [] := by
    rw [settleBegun_mail, participants_of_settle hsettle, takingPart_driveEnded, htaking, List.map_nil, hmail, h.mail, htaking,
      List.map_nil, List.append_nil]
  have hitems (x : Station) : itemOf (settleBegun (driveEnded false X)) x = (itemOf X x).driveOver false := by
    have hpart : (itemOf X x).participant = false := by
      rw [← Bool.not_eq_true]
      exact fun hx => List.not_mem_nil (htaking ▸ (mem_takingPart X x).mpr hx)
    rw [itemOf_settleBegun, itemOf_driveEnded, awaitSettle_driveOver hpart]
  have hkept : X.tmb = s.tmb ∧ X.psv = s.psv := by
    obtain ⟨⟨T, W, M, hX⟩, -, -⟩ := h.left
    rw [hX]
    exact ⟨rfl, rfl⟩
  have hlead := h.lead
  rw [h.left.drive_over hending hclimb hnone hleft hdrains] at hlead
  rw [htmb, hpsv, hkept.1, hkept.2] at hYtimer hYfall
  rw [htaking, List.map_nil, List.append_nil] at hwaits
  generalize settleBegun (driveEnded false X) = Y at *
  have hYcounts : Y.wvc.countsDirty = true := hYdirty.trans (hdirty.trans h.dirty)
  refine ⟨_, hlead, ?_, fun x => (itemOf_flushCounts Y x).trans (hitems x),
    barLeaves_flushCounts h.left h.record (hYtable.trans htable) (hYclimb.trans hsettle) hYending (hYholds.trans hholds) ?_
      hYcounts hYmail ?_, ?_, ?_⟩
  · rw [flushCounts_wvc]
    exact hYdriveTimer
  · rw [List.append_nil, hYdrains, hwaits]
  · rw [tellsCounts_iff hYcounts, hYdrains, hwaits, h.drains_eq]
    exact and_iff_right hYending
  · rw [flushCounts_wvc]
    exact hYtimer
  · rw [flushCounts_wvc]
    exact hYfall

end

section
variable (hending : s.wvc.ending = none) (hclimb : s.wvc.climb = .settle) (hnone : ¬othersAwaited s st)
  (hfall : s.wvc.fallTimer = none)
include hending hclimb hnone hfall

/-- A bar that ends SETTLE, others being drained. -/
theorem settle_drained (hsome : leftBehind s st ≠ [] ∨ ∃ d ∈ s.wvc.drains, d.purpose = .settleEnd) :
    leadsTo c s (settleEnded X) ∧ barLeaves s st rec sent .settle (some .settleEnd)
      ((leftBehind s st).map fun x => ⟨x, .settleEnd⟩) (.motionOffNotice :: (leftBehind s st).map Instr.drainQueue) False
      (settleEnded X) := by
  have htaking := h.left.participants_eq hclimb
  have hsettle := (h.left.climb_of_inWave ((inWave_iff s).mpr (.inr hclimb))).trans hclimb
  have hsilent : tellsCounts (settleEnded X) = false := tellsCounts_of_ending (Option.some_ne_none _)
  have hlead := h.lead
  rw [h.left.settle_drained hending hclimb hnone hfall hsome] at hlead
  refine ⟨hlead, ?_⟩
  rw [← flushCounts_of_silent hsilent]
  refine barLeaves_flushCounts h.left h.record rfl hsettle rfl rfl ?_ h.dirty ?_ ?_
  · rw [settleEnded, htaking]
  · rw [settleEnded, htaking, h.mail]
  · rw [hsilent]
    exact ⟨fun hp => Bool.false_ne_true hp, False.elim⟩

/-- A bar that ends the wave with nobody left. -/
theorem settle_over (hleft : leftBehind s st = []) (hdrains : ∀ d ∈ s.wvc.drains, d.purpose ≠ .settleEnd) :
    ∃ u, leadsTo c s u ∧ u.wvc.settleTimer = none ∧ (∀ x, itemOf u x = itemOf X x)
      ∧ u.wvc.ending = none ∧ sent ++ [.motionOffNotice] <+: u.mail ∧ (rec.retirePending = none → recordOf u st = rec)
      ∧ u.wvc.climb = if s.wvc.view = .run ∧ s.psv.state = .run ∧ u.wvc.holds = 0 then .dwell else .held := by
  have hwave := (inWave_iff s).mpr (.inr hclimb)
  have htaking := (h.left.participants_eq hclimb).trans hleft
  have hsettle : (settleEnded X).wvc.climb = .settle := (h.left.climb_of_inWave hwave).trans hclimb
  have hitems (x : Station) : itemOf (settleEnded X) x = itemOf X x := rfl
  have hrecord (x : Station) : recordOf (settleEnded X) x = recordOf X x := rfl
  have htimer : (settleEnded X).wvc.settleTimer = none := rfl
  have hmail : (settleEnded X).mail = sent ++ [.motionOffNotice] := by rw [settleEnded, htaking, h.mail]; rfl
  have hkept : (settleEnded X).wvc.view = s.wvc.view ∧ (settleEnded X).psv.state = s.psv.state := by
    obtain ⟨⟨T, W, M, hX⟩, -, -⟩ := h.left
    have hsame : (settleEnded X).wvc.view = X.wvc.view ∧ (settleEnded X).psv.state = X.psv.state := ⟨rfl, rfl⟩
    rw [hsame.1, hsame.2, hX]
    exact ⟨rfl, rfl⟩
  have hlead := h.lead
  rw [h.left.settle_over hending hclimb hnone hfall hleft hdrains] at hlead
  generalize settleEnded X = E at *
  obtain ⟨⟨T, D, H, C, DR, M, hrest⟩, hafter, hsent, hrecords, -⟩ := waveOver_finishSettleEnd hsettle
  have hfields : (finishSettleEnd E).wvc.settleTimer = none ∧ (finishSettleEnd E).wvc.ending = none
      ∧ ∀ x, itemOf (finishSettleEnd E) x = itemOf X x := by
    rw [hrest]
    exact ⟨htimer, rfl, hitems⟩
  obtain ⟨hUtimer, hUending, hUitems⟩ := hfields
  rw [hkept.1, hkept.2] at hafter
  rw [hmail] at hsent
  generalize finishSettleEnd E = U at *
  have hwvc := flushCounts_wvc U
  refine ⟨_, hlead, (congrArg Wvc.settleTimer hwvc).trans hUtimer, fun x => (itemOf_flushCounts U x).trans (hUitems x),
    (congrArg Wvc.ending hwvc).trans hUending,
    (List.prefix_append _ _).trans (hsent.trans (prefix_flushCounts U)), fun hpending => ?_, ?_⟩
  · have hkept : recordOf (flushCounts U) st = recordOf U st := congrArg (fun w => w.table.get st) hwvc
    have hout : ¬(itemOf E st).participant = true := by
      rw [hitems, h.left.out hwave]
      exact Bool.false_ne_true
    have hclean : cleanedRecord E st = rec := by
      rw [cleanedRecord, if_neg fun hp => hout hp.1, hrecord, h.record, if_pos rfl]
    rw [hkept, hrecords, hclean, retiredRecord_of_none hpending]
  · have hholds : (flushCounts U).wvc.holds = U.wvc.holds := by rw [hwvc]
    rw [hholds]
    exact (congrArg Wvc.climb hwvc).trans hafter

end

end BarStep

/-! ## The events of a bar -/

theorem askedEvent_absorb (x e m : BitVec 9) : askedEvent (x ||| e) (e ||| m) = askedEvent (x ||| e) m := by
  have habsorb : x ||| e ||| (e ||| m) = x ||| e ||| m := by
    rw [← BitVec.or_assoc, BitVec.or_assoc x e e, BitVec.or_self]
  rw [askedEvent, habsorb]
  rfl

theorem or_or_absorb (x e m : BitVec 9) : x ||| e ||| (e ||| m) = x ||| e ||| m := by
  rw [← BitVec.or_assoc, BitVec.or_assoc x e e, BitVec.or_self]

end Sys2Proof.Machine
end

section
/-! PROOF. Marks, bars, coil faults and lost probes (04 R71 to R75). -/

namespace Sys2Proof.Machine

open Sys2Proof

theorem takeMarkRequest_of_live {s : State} (h : s.wvc.view ≠ .halted) (st : Station) (cause : MarkCause) :
    takeMarkRequest st cause s = giveMark (markEvent cause) st s := if_neg h

theorem takeCoilFault_of_active {s : State} (h : s.wvc.view ≠ .halted) {st : Station}
    (hactive : (recordOf s st).service = .active) : takeCoilFault st s = bar evCoil st s :=
  (if_neg h).trans (if_pos (decide_eq_true hactive))

theorem takeCoilFault_of_inactive {s : State} (h : s.wvc.view ≠ .halted) {st : Station}
    (hactive : (recordOf s st).service ≠ .active) : takeCoilFault st s = addEvents st evCoil s :=
  (if_neg h).trans (if_neg fun hp => hactive (of_decide_eq_true hp))

theorem driveOver_false (i : WaveItem) : i.driveOver false = { i with awaited := false, unreported := false } := rfl

/-- The purpose of the drains an end waits for. -/
def endPurpose : WaveEnding → DrainPurpose
  | .driveEnd => .driveEnd
  | .settleEnd => .settleEnd
  | .powerDown => .powerDown

theorem checkEnding_of_open {s : State} {e : WaveEnding} (h : s.wvc.ending = some e)
    (hopen : ∃ d ∈ s.wvc.drains, d.purpose = endPurpose e) : checkEnding s = s := by
  have hnone : ¬noDrain (endPurpose e) s = true := by
    rw [noDrain_iff]
    obtain ⟨d, hd, hp⟩ := hopen
    exact fun hall => hall d hd hp
  unfold checkEnding
  rw [h]
  cases e <;> exact if_neg hnone

theorem checkEnding_of_none {s : State} (h : s.wvc.ending = none) : checkEnding s = flushCounts s := by
  simp [checkEnding, h]

/-- A mark noted of a participant that a bar takes out, and of nobody else. -/
theorem markedOut (i : WaveItem) (b : Bool) :
    (if b = true then { i with marked := i.marked || b, participant := false, awaited := false }
      else { i with marked := i.marked || b }) =
    if b = true then { i with marked := i.marked || true, participant := false, awaited := false } else i := by
  cases b
  · rw [if_neg Bool.false_ne_true, if_neg Bool.false_ne_true, Bool.or_false]
  · rfl

/-- A bar is carried out as `BarStep` says. -/
theorem barStep_barTaken {c : Instr} {s b : State} {st : Station} {ev : BitVec 9} {item : WaveItem} {rec : StationRecord}
    {told : List Instr} {T : Table StationRecord 64} {W : Table WaveItem 64} (hlead : leadsTo c s (bar ev st b))
    (hb : b = { s with wvc := { s.wvc with table := T, wave := W }, mail := b.mail })
    (hrecords : ∀ x, x ≠ st → recordOf b x = recordOf s x) (hitems : ∀ x, x ≠ st → itemOf b x = itemOf s x)
    (hpart : (itemOf b st).participant = (itemOf s st).participant) (hrec : recordOf (barTaken ev st b) st = rec)
    (hitem : itemOf (barTaken ev st b) st = item)
    (hmail : b.mail ++ askedEvent (recordOf b st).events (ev ||| evBarred) = (s.mail.erase c) ++ told) :
    BarStep c s st rec item ((s.mail.erase c) ++ told ++ .drainQueue st ::
      (if isParticipant s st then [.offValve st] else [.closeWindow st, .offValve st])
      ++ (if (shortWithout s st && decide (s.wvc.climb = .dwell)) = true then [.attentionSetRequest .hold] else []))
      (barTaken ev st b) := by
  have hclimb : b.wvc.climb = s.wvc.climb := by rw [hb]
  have hshort : shortWithout b st = shortWithout s st := shortWithout_congr (by rw [hb]) hrecords
  have hleft := barLeft_barTaken hb hrecords hitems hpart ev
  refine ⟨by rw [← bar_eq]; exact hlead, hleft, fun x => ?_, fun x => ?_, ?_⟩
  · by_cases hx : x = st
    · rw [hx, hrec, if_pos rfl]
    · rw [recordOf_barTaken, if_neg hx, hrecords x hx, if_neg hx]
  · by_cases hx : x = st
    · rw [hx, hitem, if_pos rfl]
    · rw [hleft.items x hx, if_neg hx]
  · have hsent : (barTaken ev st b).mail = (b.mail ++ askedEvent (recordOf b st).events (ev ||| evBarred)) ++ .drainQueue st ::
        (if isParticipant b st then [.offValve st] else [.closeWindow st, .offValve st])
        ++ if (shortWithout b st && decide (b.wvc.climb = .dwell)) = true then [.attentionSetRequest .hold] else [] := rfl
    rw [hsent, hmail, isParticipant_congr hclimb hpart, hshort, hclimb]

/-- What a bar's drain answered leaves, `rec` being the record of its station (04 R74). -/
def barAnswered (st : Station) (p : DrainPurpose) (rec : StationRecord) (s : State) : State :=
  send (.closeWindow st) (judged st rec [] (drainTaken ⟨st, p⟩ s))

theorem settleBar_of_retracts {st : Station} {records : List EdgeRecord} {s : State}
    (h : (∀ e ∈ records, e.kind = .retract) ∨ ¬((itemOf s st).verdict = some .missing ∨ (itemOf s st).verdict = some .inDoubt)) :
    settleBar st records s = s := by
  have hlate (hdoubt : (itemOf s st).verdict = some .missing ∨ (itemOf s st).verdict = some .inDoubt) :
      (if hasExtend records then creditLate st records s else s) = s := by
    refine if_neg fun hextend => ?_
    rcases h with hall | hclear
    · exact Bool.false_ne_true ((hasExtend_of_retracts hall).symm.trans hextend)
    · exact hclear hdoubt
  rw [settleBar]
  split
  · rfl
  · next v hother hv =>
    cases v
    · exact absurd rfl hother
    · exact hlate (.inl hv)
    · exact hlate (.inr hv)
  · rfl

theorem settleBar_of_extend {st : Station} {before after : List EdgeRecord} {time : Word} {s : State}
    (h : ∀ e ∈ before, e.kind = .retract)
    (hdoubt : (itemOf s st).verdict = some .missing ∨ (itemOf s st).verdict = some .inDoubt) :
    settleBar st (before ++ ⟨.extend, time⟩ :: after) s = judged st (lateCreditedBy s st time) [] s := by
  refine Eq.trans ?_ (creditLate_of_extend (after := after) h s)
  rw [settleBar]
  rcases hdoubt with hdoubt | hdoubt
  · rw [hdoubt]
    exact if_pos (hasExtend_of_extend time)
  · rw [hdoubt]
    exact if_pos (hasExtend_of_extend time)

/-- What a bar's drain answered comes to. -/
theorem takeDrainAnswer_bar {s : State} (hview : s.wvc.view ≠ .halted)
    (hends : ∀ e, s.wvc.ending = some e → ∃ d ∈ s.wvc.drains, d.purpose = endPurpose e) {st : Station} {p : DrainPurpose}
    (hp : p = .barDrive ∨ p = .barSettle)
    (hfound : (s.wvc.drains.find? fun d => decide (d.station = st)) = some ⟨st, p⟩) {records : List EdgeRecord}
    {overflow : Bool} {rec : StationRecord}
    (hacts : actOnAnswer p st records overflow (drainTaken ⟨st, p⟩ s) = judged st rec [] (drainTaken ⟨st, p⟩ s)) :
    takeDrainAnswer st records overflow s = flushCounts (barAnswered st p rec s)
      ∧ (s.wvc.ending ≠ none → tellsCounts (barAnswered st p rec s) = false) := by
  have hcloses : p.closesAfter = true := by
    rcases hp with rfl | rfl
    · rfl
    · rfl
  have hanswer : takeDrainAnswer st records overflow s = checkEnding (barAnswered st p rec s) := by
    rw [takeDrainAnswer_of_found hview hfound, hacts, hcloses]
    rfl
  rw [hanswer]
  have hending : (barAnswered st p rec s).wvc.ending = s.wvc.ending := rfl
  cases h : s.wvc.ending with
  | none => exact ⟨checkEnding_of_none (hending.trans h), fun hp => absurd rfl hp⟩
  | some e =>
    obtain ⟨d, hd, hpurpose⟩ := hends e h
    have hother : d ≠ ⟨st, p⟩ := by
      rintro rfl
      rcases hp with rfl | rfl <;> cases e <;> exact DrainPurpose.noConfusion hpurpose
    have hsilent : tellsCounts (barAnswered st p rec s) = false :=
      tellsCounts_of_ending (by rw [hending, h]; exact Option.some_ne_none _)
    exact ⟨(checkEnding_of_open (hending.trans h) ⟨d, (List.mem_erase_of_ne hother).mpr hd, hpurpose⟩).trans
      (flushCounts_of_silent hsilent).symm, fun _ => hsilent⟩

/-- Settles O36. -/
theorem marksBarsCoilFaultsAndLostProbes : Obligations.MarksBarsCoilFaultsAndLostProbes := by
  refine ⟨?_, ?_, ?_, ?_⟩
  · intro s st cause hacting c r event leaves
    have hevent : markEvent cause = event := by cases cause <;> rfl
    have hlead {t : State} (e : takeMarkRequest st cause (took c s) = t) : leadsTo c s t :=
      leadsTo_of_taking (exec_markRequest st cause s) hacting e
    refine ⟨fun hview => hlead (if_pos hview), fun hview hactive => ?_, fun hview hactive hmarks => ?_⟩
    · refine ⟨_, hlead ((takeMarkRequest_of_live (s := took c s) hview st cause).trans
        (giveMark_of_inactive (s := took c s) hactive _)), ?_, rfl, fun x hx => ⟨?_, rfl⟩, rfl, rfl, rfl, rfl, ?_⟩
      · rw [recordOf_judged, if_pos rfl, hevent]
        rfl
      · rw [recordOf_judged, if_neg hx]
        rfl
      · rw [hevent]
        rfl
    · have hmin : min 3 (r.marks + 1) = r.marks + 1 := by omega
      refine ⟨_, hlead ((takeMarkRequest_of_live (s := took c s) hview st cause).trans
        ((giveMark_of_active (s := took c s) hactive _).trans (if_neg (Nat.not_le.mpr hmarks)))), ?_, ?_,
        fun x hx => ⟨?_, ?_⟩, rfl, rfl, rfl, rfl, ?_⟩
      · rw [recordOf_markGiven, if_pos rfl, hevent]
        change ({ r with marks := min 3 (r.marks + 1), cleanRun := 0, events := r.events ||| event } : StationRecord) = _
        rw [hmin]
      · rw [itemOf_markGiven, if_pos rfl]
        rfl
      · rw [recordOf_markGiven, if_neg hx]
        rfl
      · rw [itemOf_markGiven, if_neg hx]
        rfl
      · rw [hevent]
        rfl
  · intro s st cause hacting hview hactive r event asked takesPart left awaits driveEnds settleEnds drains open_ short falls bars
      i out
    have hbars {c : Instr} {b : State} {ev : BitVec 9} {item : WaveItem} {rec : StationRecord} {told : List Instr}
        {T : Table StationRecord 64} {W : Table WaveItem 64} (hlead : leadsTo c s (bar ev st b))
        (hb : b = { s with wvc := { s.wvc with table := T, wave := W }, mail := b.mail })
        (hrecords : ∀ x, x ≠ st → recordOf b x = recordOf s x) (hitems : ∀ x, x ≠ st → itemOf b x = itemOf s x)
        (hpart : (itemOf b st).participant = (itemOf s st).participant)
        (hrec : recordOf (barTaken ev st b) st = rec) (hitem : itemOf (barTaken ev st b) st = item)
        (hmail : b.mail ++ askedEvent (recordOf b st).events (ev ||| evBarred) = (s.mail.erase c) ++ told)
        (hpending : rec.retirePending = r.retirePending) : bars c item rec told := by
      have h := barStep_barTaken hlead hb hrecords hitems hpart hrec hitem hmail
      unfold bars
      intro items sent leaves
      refine ⟨h.goesOn, fun ⟨hending, hdrive, hnone⟩ => ?_, fun ⟨hending, hsettle, hnone, hfall⟩ => ?_⟩
      · by_cases hsome : left ≠ [] ∨ ∃ d ∈ s.wvc.drains, d.purpose = .driveEnd
        · obtain ⟨hto, htimer, hthese, hleaves⟩ := h.drive_drained hending hdrive hnone hsome
          refine ⟨_, hto, htimer, fun x => (hthese x).trans ?_, fun _ => hleaves, fun hempty hdrains => ?_⟩
          · rw [h.item]
            rfl
          · exact absurd hsome (not_or.mpr ⟨not_not_intro hempty, fun ⟨d, hd, hp⟩ => hdrains d hd hp⟩)
        · obtain ⟨hempty, hdrains⟩ := not_or.mp hsome
          obtain ⟨u, hto, htimer, hthese, hleaves, htimers⟩ := h.drive_over hending hdrive hnone (not_not.mp hempty)
            fun d hd hp => hdrains ⟨d, hd, hp⟩
          refine ⟨u, hto, htimer, fun x => (hthese x).trans ?_, fun hs => absurd hs hsome, fun _ _ => ⟨hleaves, htimers⟩⟩
          rw [h.item]
          rfl
      · by_cases hsome : left ≠ [] ∨ ∃ d ∈ s.wvc.drains, d.purpose = .settleEnd
        · obtain ⟨hto, hleaves⟩ := h.settle_drained hending hsettle hnone hfall hsome
          exact ⟨_, hto, rfl, h.item, fun _ => hleaves, fun hempty hdrains =>
            absurd hsome (not_or.mpr ⟨not_not_intro hempty, fun ⟨d, hd, hp⟩ => hdrains d hd hp⟩)⟩
        · obtain ⟨hempty, hdrains⟩ := not_or.mp hsome
          obtain ⟨u, hto, htimer, hthese, hnoend, hsent, hkept, hclimb⟩ := h.settle_over hending hsettle hnone hfall
            (not_not.mp hempty) fun d hd hp => hdrains ⟨d, hd, hp⟩
          exact ⟨u, hto, htimer, fun x => (hthese x).trans (h.item x), fun hs => absurd hs hsome, fun _ _ =>
            ⟨hnoend, hsent, fun hr => hkept (hpending.trans hr), fun hc => hclimb.trans (if_pos hc),
              fun hc => hclimb.trans (if_neg hc)⟩⟩
    have hevent : markEvent cause = event := by cases cause <;> rfl
    refine ⟨fun hmarks => hbars (T := _) (W := _) (leadsTo_of_taking (exec_markRequest st cause s) hacting
      ((takeMarkRequest_of_live (s := took _ s) hview st cause).trans
        ((giveMark_of_active (s := took _ s) hactive _).trans (if_pos (Nat.le_of_eq hmarks.symm))))) rfl ?_ ?_ ?_ ?_ ?_ ?_ rfl,
      hbars (leadsTo_of_taking (exec_coilFaultNotice st s) hacting (takeCoilFault_of_active (s := took _ s) hview hactive)) rfl
        (fun _ _ => rfl) (fun _ _ => rfl) rfl ?_ ?_ rfl rfl⟩
    · intro x hx
      rw [recordOf_markGiven, if_neg hx]
      rfl
    · intro x hx
      rw [itemOf_markGiven, if_neg hx]
      rfl
    · rw [itemOf_markGiven, if_pos rfl]
      rfl
    · rw [recordOf_barTaken, if_pos rfl, recordOf_markGiven, if_pos rfl, hevent]
      change ({ r with
        service := .barred, marks := min 3 (r.marks + 1), cleanRun := 0
        events := r.events ||| event ||| (event ||| 0x080#9) } : StationRecord) = _
      rw [or_or_absorb, show min 3 (r.marks + 1) = 3 by omega]
    · rw [itemOf_barTaken, if_pos rfl, isParticipant_congr (t := markGiven (markEvent cause) st (took _ s)) (s := s) rfl ?_,
        itemOf_markGiven, if_pos rfl]
      · exact markedOut i (isParticipant s st)
      · rw [itemOf_markGiven, if_pos rfl]
        rfl
    · rw [recordOf_markGiven, if_pos rfl, hevent]
      change (s.mail.erase _ ++ asked r.events event) ++ askedEvent (r.events ||| event) (event ||| 0x080#9) = _
      rw [askedEvent_absorb, List.append_assoc]
      rfl
    · rw [recordOf_barTaken, if_pos rfl]
      change ({ r with service := .barred, events := r.events ||| (0x020#9 ||| 0x080#9) } : StationRecord) = _
      rw [BitVec.or_assoc]
    · rw [itemOf_barTaken, if_pos rfl]
      change (if takesPart = true then { i with participant := false, awaited := false } else i) =
        if takesPart = true then { i with marked := i.marked || false, participant := false, awaited := false } else i
      rw [Bool.or_false]
  · intro s st records overflow hacting hview hdirty drainOf hends c i r found leaves credited doubtful none_
    have hleaves {p : DrainPurpose} {rec : StationRecord} (hp : p = .barDrive ∨ p = .barSettle) (hfound : found = some ⟨st, p⟩)
        (hacts : actOnAnswer p st records overflow (drainTaken ⟨st, p⟩ (took c s)) =
          judged st rec [] (drainTaken ⟨st, p⟩ (took c s))) : leaves p rec := by
      have hopen (e : WaveEnding) (he : s.wvc.ending = some e) : ∃ d ∈ s.wvc.drains, d.purpose = endPurpose e := by
        obtain ⟨d, hd, hpurpose⟩ := hends e he
        exact ⟨d, hd, hpurpose.trans (by cases e <;> rfl)⟩
      obtain ⟨htakes, -⟩ := takeDrainAnswer_bar (s := took c s) hview hopen hp hfound hacts
      have hcounts : (barAnswered st p rec (took c s)).wvc.countsDirty = true := by
        change (s.wvc.countsDirty || _) = true
        rw [hdirty, Bool.true_or]
      have htells : tellsCounts (barAnswered st p rec (took c s)) = true ↔
          s.wvc.ending = none ∧ ∀ d ∈ s.wvc.drains.erase ⟨st, p⟩, d.purpose = .discard := by
        rw [tellsCounts_iff hcounts]
        refine and_congr_right fun _ => ?_
        push Not
        rfl
      have hsent : (barAnswered st p rec (took c s)).mail = s.mail.erase c ++ [.closeWindow st] := by
        change s.mail.erase c ++ [] ++ [Instr.closeWindow st] = _
        rw [List.append_nil]
      obtain ⟨hyes, hno⟩ := flushCounts_told hcounts htells hsent
      refine ⟨_, leadsTo_of_taking (exec_drainAnswer st records overflow s) hacting htakes, ?_, ?_, ?_, ?_, ?_, ?_,
        fun h => ⟨(hyes h).1.trans (List.append_assoc _ _ _), (hyes h).2⟩, hno⟩
      all_goals
        rw [flushCounts_wvc]
      all_goals rfl
    refine ⟨fun hfound => ⟨fun hnone => hleaves (.inl rfl) hfound ?_, fun before time after hrecords hbefore =>
      hleaves (.inl rfl) hfound ?_⟩, fun hfound => ⟨fun hnone => hleaves (.inr rfl) hfound ?_,
        fun before time after hrecords hbefore hdoubt => hleaves (.inr rfl) hfound ?_⟩⟩
    · exact (creditFirst_of_retracts hnone _).trans (judged_self st _).symm
    · rw [hrecords]
      exact creditFirst_of_extend hbefore _
    · exact (settleBar_of_retracts (s := drainTaken _ (took c s)) hnone).trans (judged_self st _).symm
    · rw [hrecords]
      exact settleBar_of_extend (s := drainTaken _ (took c s)) hbefore hdoubt
  · intro s st hacting c e r leaves
    have hleaves {c : Instr} {event : BitVec 9} (h : leadsTo c s (addEvents st event (took c s))) : leaves c event := by
      rw [addEvents_judged] at h
      refine ⟨_, h, ?_, fun x hx => ?_, ?_, rfl⟩
      · rw [recordOf_judged, if_pos rfl]
        rfl
      · rw [recordOf_judged, if_neg hx]
        rfl
      · rw [judged, decide_eq_false (Nat.lt_irrefl _), Bool.or_false]
        rfl
    refine ⟨fun hview => ⟨?_, ?_⟩, fun hview => ⟨fun hactive => hleaves ?_, hleaves ?_⟩⟩
    · exact leadsTo_of_taking (exec_coilFaultNotice st s) hacting (if_pos hview)
    · exact leadsTo_of_taking (exec_eventRequest st s) hacting (if_pos hview)
    · exact leadsTo_of_taking (exec_coilFaultNotice st s) hacting (takeCoilFault_of_inactive (s := took c s) hview hactive)
    · exact leadsTo_of_taking (exec_eventRequest st s) hacting (if_neg hview)

end Sys2Proof.Machine
end

section
/-! PROOF. The stacks of the Layer Tracker: conversion, exits and the end of a plan (06 R100, R101, R105, R109). -/

namespace Sys2Proof.Machine

open Sys2Proof

/-! ## A sector of the tracker -/

/-- What the tracker holds of a sector that a fill changes: its stack, its openings and its events. -/
def filling (s : State) (k : Sector) : List Layer × List Opening × BitVec 4 :=
  (stackOf s k, s.ltr.openings[k], s.ltr.events[k])

/-- The sector's filling replaced. -/
def putFilling (k : Sector) (x : List Layer × List Opening × BitVec 4) (s : State) : State :=
  onLtr (fun l => { l with stack := put l.stack k x.1, openings := put l.openings k x.2.1, events := put l.events k x.2.2 }) s

/-- The attention asked for as a sector's events become `new` (06 R113). -/
def askedSector (old new : BitVec 4) : List Instr := if new = old then [] else [.attentionSetRequest .event]

theorem filling_putFilling (k : Sector) (x : List Layer × List Opening × BitVec 4) (s : State) :
    filling (putFilling k x s) k = x := by
  simp [filling, putFilling, onLtr, stackOf]

theorem filling_putFilling_other {k j : Sector} (h : k ≠ j) (x : List Layer × List Opening × BitVec 4) (s : State) :
    filling (putFilling k x s) j = filling s j := by
  simp [filling, putFilling, onLtr, stackOf, put_other _ _ h]

theorem putFilling_filling (k : Sector) (s : State) : putFilling k (filling s k) s = s := by
  have hstack : put s.ltr.stack k s.ltr.stack[k] = s.ltr.stack := put_get_self _ _
  have hopenings : put s.ltr.openings k s.ltr.openings[k] = s.ltr.openings := put_get_self _ _
  have hevents : put s.ltr.events k s.ltr.events[k] = s.ltr.events := put_get_self _ _
  simp only [filling, stackOf, putFilling, onLtr, hstack, hopenings, hevents]

theorem putFilling_putFilling (k : Sector) (x y : List Layer × List Opening × BitVec 4) (s : State) :
    putFilling k y (putFilling k x s) = putFilling k y s := by
  simp only [putFilling, onLtr, put_put]

/-- A sector of a filling given: what a step leaves of it and sends. -/
def refilled (k : Sector) (x : List Layer × List Opening × BitVec 4) (sent : List Instr) (s : State) : State :=
  sendAll sent (putFilling k x s)

theorem refilled_refilled (k : Sector) (x y : List Layer × List Opening × BitVec 4) (m n : List Instr) (s : State) :
    refilled k y n (refilled k x m s) = refilled k y (m ++ n) s := by
  have hstep : refilled k y n (refilled k x m s) = sendAll n (sendAll m (putFilling k y (putFilling k x s))) := rfl
  rw [hstep, putFilling_putFilling]
  simp [refilled, sendAll, List.append_assoc]

theorem refilled_filling (k : Sector) (s : State) : refilled k (filling s k) [] s = s := by
  rw [refilled, putFilling_filling, sendAll_nil]

theorem filling_refilled (k : Sector) (x : List Layer × List Opening × BitVec 4) (m : List Instr) (s : State) :
    filling (refilled k x m s) k = x := filling_putFilling k x s

theorem formBottom_refilled (k j : Sector) (x : List Layer × List Opening × BitVec 4) (m : List Instr) (s : State) :
    formBottom (refilled k x m s) j = formBottom s j := rfl

/-! ## A try of conversion (06 R109) -/

theorem planned_eq (s : State) (k : Sector) : planned s k = decide (s.ltr.plan.map Plan.sector = some k) := by
  unfold planned
  cases s.ltr.plan with
  | none => rfl
  | some p => exact decide_eq_decide.mpr (Option.some.injEq _ _ ▸ Iff.rfl)

/-- What a try in a sector of this filling leaves of it. -/
def conversion (bottom : Int) (x : List Layer × List Opening × BitVec 4) : List Layer × List Opening × BitVec 4 :=
  let r := convertOpenings bottom x.1 x.2.1
  (r.1, r.2.1, x.2.2 ||| r.2.2)

theorem tryConversion_of_planned {s : State} {k : Sector} (h : planned s k = true) : tryConversion k s = s := if_pos h

theorem tryConversion_of_free {s : State} {k : Sector} (h : planned s k = false) : tryConversion k s =
    refilled k (conversion (formBottom s k) (filling s k))
      (askedSector (filling s k).2.2 (conversion (formBottom s k) (filling s k)).2.2) s := by
  refine (if_neg (Bool.eq_false_iff.mp h)).trans ?_
  rw [addSectorEvents_eq]
  rfl

/-! ## The exit test (06 R101) -/

theorem drop_length_takeWhile {α : Type} (p : α → Bool) (l : List α) : l.drop (l.takeWhile p).length = l.dropWhile p := by
  have hsplit := List.takeWhile_append_dropWhile (p := p) (l := l)
  calc l.drop (l.takeWhile p).length
      = (l.takeWhile p ++ l.dropWhile p).drop (l.takeWhile p).length := by rw [hsplit]
    _ = l.dropWhile p := List.drop_left' rfl

/-- The layers that stay at an exit test. -/
def stayingLayers (s : State) (k : Sector) : List Layer := (stackOf s k).dropWhile (leaves s.ltr.plan k (formBottom s k))

/-- What an exit test leaves of a sector. -/
def exited (s : State) (k : Sector) : List Layer × List Opening × BitVec 4 :=
  if leavingLayers s k = [] ∨ planned s k = true then (stayingLayers s k, s.ltr.openings[k], s.ltr.events[k])
  else conversion (formBottom s k) (stayingLayers s k, s.ltr.openings[k], s.ltr.events[k])

/-- What an exit test sends. -/
def exitMessages (s : State) (k : Sector) : List Instr :=
  (leavingLayers s k).flatMap (exitNoticeOf (site s)) ++ askedSector s.ltr.events[k] (exited s k).2.2

theorem askedSector_self (e : BitVec 4) : askedSector e e = [] := if_pos rfl

theorem stayingLayers_of_none {s : State} {k : Sector} (h : leavingLayers s k = []) : stayingLayers s k = stackOf s k := by
  have hall := List.takeWhile_append_dropWhile (p := leaves s.ltr.plan k (formBottom s k)) (l := stackOf s k)
  rw [show (stackOf s k).takeWhile (leaves s.ltr.plan k (formBottom s k)) = [] from h] at hall
  exact hall

theorem removeLeaving_eq (k : Sector) (s : State) : removeLeaving k s =
    refilled k (stayingLayers s k, s.ltr.openings[k], s.ltr.events[k])
      ((leavingLayers s k).flatMap (exitNoticeOf (site s))) s := by
  have hstay : (stackOf s k).drop (leavingLayers s k).length = stayingLayers s k := drop_length_takeWhile _ _
  have hopenings : put s.ltr.openings k s.ltr.openings[k] = s.ltr.openings := put_get_self _ _
  have hevents : put s.ltr.events k s.ltr.events[k] = s.ltr.events := put_get_self _ _
  unfold removeLeaving
  dsimp only
  rw [hstay]
  simp only [refilled, putFilling, onLtr, hopenings, hevents]

theorem exitTest_eq (k : Sector) (s : State) : exitTest k s = refilled k (exited s k) (exitMessages s k) s := by
  unfold exitTest
  by_cases hgone : leavingLayers s k = []
  · rw [if_pos (List.isEmpty_iff.mpr hgone), exitMessages, exited, if_pos (.inl hgone), hgone, askedSector_self,
      stayingLayers_of_none hgone]
    exact (refilled_filling k s).symm
  · rw [if_neg (mt List.isEmpty_iff.mp hgone), removeLeaving_eq]
    cases hplan : planned s k with
    | true =>
      rw [tryConversion_of_planned (s := refilled k _ _ s) hplan, exitMessages, exited, if_pos (.inr hplan), askedSector_self, List.append_nil]
    | false =>
      have hfree : ¬(leavingLayers s k = [] ∨ planned s k = true) := fun h =>
        h.elim hgone fun hp => Bool.false_ne_true (hplan.symm.trans hp)
      rw [tryConversion_of_free (s := refilled k _ _ s) hplan, filling_refilled, formBottom_refilled, refilled_refilled, exitMessages, exited,
        if_neg hfree]

/-! ## The sectors of a count told (06 R100) -/

theorem exited_congr {s t : State} {k : Sector} (hfilling : filling t k = filling s k) (hplan : t.ltr.plan = s.ltr.plan)
    (hbottom : formBottom t k = formBottom s k) (hsite : site t = site s) :
    exited t k = exited s k ∧ exitMessages t k = exitMessages s k := by
  obtain ⟨hstack, hrest⟩ := Prod.ext_iff.mp hfilling
  obtain ⟨hopenings, hevents⟩ := Prod.ext_iff.mp hrest
  dsimp only [filling] at hstack hopenings hevents
  have hleaving : leavingLayers t k = leavingLayers s k := by rw [leavingLayers, leavingLayers, hplan, hbottom, hstack]
  have hstaying : stayingLayers t k = stayingLayers s k := by rw [stayingLayers, stayingLayers, hplan, hbottom, hstack]
  have hplanned : planned t k = planned s k := by rw [planned_eq, planned_eq, hplan]
  have hexited : exited t k = exited s k := by
    rw [exited, exited, hleaving, hstaying, hplanned, hopenings, hevents, hbottom]
  exact ⟨hexited, by rw [exitMessages, exitMessages, hexited, hleaving, hevents, hsite]⟩

theorem exitTest_actsAlone : ActsAlone filling exitTest fun s k => (exited s k, exitMessages s k) where
  same k s := by
    rw [exitTest_eq, filling_refilled]
  other k j s h := by
    rw [exitTest_eq]
    exact filling_putFilling_other h _ s
  mail k s := by
    rw [exitTest_eq]
    rfl
  apart k j s h := by
    rw [exitTest_eq]
    obtain ⟨hexited, hmessages⟩ := exited_congr (t := refilled k (exited s k) (exitMessages s k) s) (s := s) (k := j)
      (filling_putFilling_other h _ s) rfl rfl rfl
    rw [hexited, hmessages]

/-- What the exit tests of sectors leave. -/
theorem forSectors_exitTest_rest (ks : List Sector) (s : State) : ∃ stack openings events mail,
    forSectors ks exitTest s = { s with
      ltr := { s.ltr with stack := stack, openings := openings, events := events }, mail := mail } := by
  induction ks generalizing s with
  | nil => exact ⟨_, _, _, _, rfl⟩
  | cons k ks ih =>
    obtain ⟨stack, openings, events, mail, h⟩ := ih (exitTest k s)
    refine ⟨stack, openings, events, mail, h.trans ?_⟩
    rw [exitTest_eq]
    rfl

theorem recomputedBottom_eq (s : State) (k : Sector) : recomputedBottom s k = if activeIn s k ≠ []
    then ((s.psv.rig.strokeLength * ((activeIn s k).map fun st => (recordOf s st).count).sum / (activeIn s k).length : Nat) : Int)
    else formBottom s k := by
  unfold recomputedBottom
  split
  · next h => rw [h, if_neg (not_not_intro rfl)]
  · next sts h => exact (if_pos h).symm

theorem formBottom_recomputeBottoms (s : State) (k : Sector) :
    formBottom (recomputeBottoms s) k = if used s k = true then recomputedBottom s k else formBottom s k :=
  tabulate_get _ _

theorem recomputeBottoms_rest (s : State) : ∃ B, recomputeBottoms s = { s with ltr := { s.ltr with bottoms := B } } :=
  ⟨_, rfl⟩

theorem takeCountsChanged_of_live {s : State} (h : s.ltr.view ≠ .halted) : takeCountsChanged s =
    sendAll (if (∀ k, formBottom (recomputeBottoms s) k = formBottom s k) ∧
        (∀ k ∈ usedSectors s, leavingLayers (recomputeBottoms s) k = []) then [] else [.deficitNotice])
      (forSectors (usedSectors s) exitTest (recomputeBottoms s)) := by
  have hbottoms : (recomputeBottoms s).ltr.bottoms = s.ltr.bottoms ↔ ∀ k, formBottom (recomputeBottoms s) k = formBottom s k :=
    ⟨fun he k => by rw [formBottom, he, formBottom], fun he => table_ext he⟩
  have hsectors : usedSectors (recomputeBottoms s) = usedSectors s := rfl
  have hleaves : ¬(usedSectors s).any (fun k => !(leavingLayers (recomputeBottoms s) k).isEmpty) = true ↔
      ∀ k ∈ usedSectors s, leavingLayers (recomputeBottoms s) k = [] := by simp
  refine (unlessHaltedLayer_of_ne h _).trans ?_
  dsimp only
  rw [hsectors]
  by_cases hstill : (∀ k, formBottom (recomputeBottoms s) k = formBottom s k) ∧
      (∀ k ∈ usedSectors s, leavingLayers (recomputeBottoms s) k = [])
  · obtain ⟨hsame, hnone⟩ := hstill
    rw [if_neg (not_or.mpr ⟨not_not_intro (hbottoms.mpr hsame), hleaves.mpr hnone⟩), if_pos ⟨hsame, hnone⟩, sendAll_nil]
  · rw [if_pos, if_neg hstill]
    · rfl
    · rw [or_iff_not_imp_left, not_not]
      exact fun he => not_not.mp fun hn => hstill ⟨hbottoms.mp he, hleaves.mp hn⟩

/-! ## The equations of conversion (06 R109) -/

section
variable {bottom : Int} {stack : List Layer} {o : Opening} {os : List Opening}

theorem convertOpenings_of_above (h : fillTopOf bottom stack < o.lower) :
    convertOpenings bottom stack (o :: os) = (stack, o :: os, 0) := if_neg (Int.not_le.mpr h)

variable (h : o.lower ≤ fillTopOf bottom stack)
include h

theorem convertOpenings_of_passed (hpassed : o.upper ≤ fillTopOf bottom stack) : convertOpenings bottom stack (o :: os) =
    ((convertOpenings bottom stack os).1, (convertOpenings bottom stack os).2.1,
      (convertOpenings bottom stack os).2.2 ||| evOpeningMissed) := (if_pos h).trans (if_pos hpassed)

variable (hover : fillTopOf bottom stack < o.upper)
include hover

theorem convertOpenings_of_room (hroom : stack.length < Config.stackDepth) : convertOpenings bottom stack (o :: os) =
    let r := convertOpenings bottom (stack ++ [⟨fillTopOf bottom stack, (o.upper - fillTopOf bottom stack).toNat, .gap⟩]) os
    (r.1, r.2.1, r.2.2 ||| evOpeningSet) := (if_pos h).trans ((if_neg (Int.not_le.mpr hover)).trans (if_pos hroom))

theorem convertOpenings_of_full (hfull : Config.stackDepth ≤ stack.length) : convertOpenings bottom stack (o :: os) =
    (stack, o :: os, 0) := (if_pos h).trans ((if_neg (Int.not_le.mpr hover)).trans (if_neg (Nat.not_lt.mpr hfull)))

end

/-- Settles O46. -/
theorem countsChangedMovesTheFormBottoms : Obligations.CountsChangedMovesTheFormBottoms := by
  constructor
  · intro s hacting hview c sum bottom gone rest converted exits sectors
    have hbottom (k : Sector) : formBottom (recomputeBottoms (took c s)) k = bottom k := by
      rw [formBottom_recomputeBottoms, recomputedBottom_eq, ← ite_and]
      rfl
    have htakes := takeCountsChanged_of_live (s := took c s) hview
    obtain ⟨B, hw⟩ := recomputeBottoms_rest (took c s)
    have hdone := exitTest_actsAlone.doneAt (usedSectors s) (recomputeBottoms (took c s)) (nodup_usedSectors s)
    change DoneAt _ _ _ _ (forSectors (usedSectors s) exitTest (recomputeBottoms (took c s))) at hdone
    change takeCountsChanged (took c s) = sendAll _ (forSectors (usedSectors s) exitTest (recomputeBottoms (took c s))) at htakes
    generalize recomputeBottoms (took c s) = w at *
    have hgone (k : Sector) : leavingLayers w k = gone k := by
      rw [leavingLayers, hbottom, hw]
      rfl
    have hrest (k : Sector) : stayingLayers w k = rest k := by
      rw [stayingLayers, hbottom, hw]
      rfl
    have hexited (k : Sector) : exited w k =
        ((converted k).1, (converted k).2.1, s.ltr.events[k] ||| (converted k).2.2) := by
      have hplanned : planned w k = true ↔ (s.ltr.plan.map Plan.sector) = some k := by
        rw [planned_eq, hw]
        exact decide_eq_true_iff
      have hopenings : w.ltr.openings = s.ltr.openings := by rw [hw]; rfl
      have hevents : w.ltr.events = s.ltr.events := by rw [hw]; rfl
      unfold exited converted
      rw [hgone, hrest, hbottom, hopenings, hevents]
      simp only [hplanned]
      split
      · exact Prod.ext rfl (Prod.ext rfl BitVec.or_zero.symm)
      · rfl
    have hexits (k : Sector) : (leavingLayers w k).flatMap (exitNoticeOf s.tmb.siteSeconds) = exits k := by
      rw [hgone]
      refine List.flatMap_congr fun l _ => ?_
      obtain ⟨b, h, kind⟩ := l
      cases kind <;> rfl
    obtain ⟨stack, openings, events, mail, hkept⟩ := forSectors_exitTest_rest (usedSectors s) w
    obtain ⟨hdone, hleft, hmail⟩ := hdone
    generalize forSectors (usedSectors s) exitTest w = v at *
    refine ⟨_, leadsTo_of_taking (exec_countsChanged s) hacting htakes, ?_, ?_, ?_, ?_, ?_, ?_⟩
    · rw [hkept, hw]
      rfl
    · rw [hkept, hw]
      rfl
    · intro k
      rw [← hbottom, hkept]
      rfl
    · intro k hused
      have hk := (hdone k ((mem_usedSectors s k).mpr hused)).trans (hexited k)
      exact ⟨congrArg Prod.fst hk, congrArg (fun x => x.2.1) hk, congrArg (fun x => x.2.2) hk⟩
    · intro k hunused
      have hk := hleft k fun hmem => Bool.false_ne_true (hunused.symm.trans ((mem_usedSectors s k).mp hmem))
      rw [hw] at hk
      exact ⟨congrArg Prod.fst hk, congrArg (fun x => x.2.1) hk, congrArg (fun x => x.2.2) hk⟩
    · have hsent : ((usedSectors s).flatMap fun k => exitMessages w k) = sectors.flatMap fun k => exits k
          ++ (if s.ltr.events[k] ||| (converted k).2.2 = s.ltr.events[k] then [] else [.attentionSetRequest .event]) :=
        List.flatMap_congr fun k _ => by
          have hevents : w.ltr.events = s.ltr.events := by rw [hw]; rfl
          have hsite : site w = s.tmb.siteSeconds := by rw [hw]; rfl
          rw [exitMessages, hexited, hevents, hsite, hexits]
          rfl
      have hquiet : ((∀ k, formBottom w k = formBottom (took c s) k) ∧ ∀ k ∈ usedSectors (took c s), leavingLayers w k = []) ↔
          (∀ k, bottom k = formBottom s k) ∧ ∀ k ∈ sectors, gone k = [] := by
        simp only [hbottom, hgone]
        rfl
      have hwmail : w.mail = s.mail.erase c := by rw [hw]; rfl
      rw [sendAll_mail, hmail, hwmail]
      refine congrArg₂ (· ++ ·) (congrArg (s.mail.erase c ++ ·) hsent) ?_
      simp only [hquiet]
  · intro bottom stack o os top with_
    have htop : top = fillTopOf bottom stack := by
      unfold top fillTopOf
      cases stack.getLast? <;> rfl
    rw [htop]
    exact ⟨rfl, convertOpenings_of_above, convertOpenings_of_passed, fun h hover hroom => convertOpenings_of_room h hover hroom,
      fun h hover hfull => convertOpenings_of_full h hover hfull⟩

end Sys2Proof.Machine
end

section
/-! PROOF. Placements and plans dropped (06 R104, R105, R116). -/

namespace Sys2Proof.Machine

open Sys2Proof

/-- A plan ended in a sector, its stack given and messages sent. -/
def planEnded (k : Sector) (stack : List Layer) (answer : List Instr) (s : State) : State := { s with
  ltr := { s.ltr with plan := none, stack := put s.ltr.stack k stack }, mail := s.mail ++ answer }

/-- A layer that an exit test takes away where no plan is held. -/
def dueAt (bottom : Int) (l : Layer) : Bool := decide (l.bottom + l.thickness ≤ bottom)

theorem leaves_none (k : Sector) (bottom : Int) : leaves none k bottom = dueAt bottom :=
  funext fun _ => Bool.and_true _

/-- What the exit test behind a plan's end leaves of a filling. -/
def fillingExited (bottom : Int) (x : List Layer × List Opening × BitVec 4) : List Layer × List Opening × BitVec 4 :=
  if x.1.takeWhile (dueAt bottom) = [] then x else conversion bottom (x.1.dropWhile (dueAt bottom), x.2)

theorem exited_of_no_plan {s : State} (h : s.ltr.plan = none) (k : Sector) :
    exited s k = fillingExited (formBottom s k) (filling s k) := by
  have hplanned : ¬planned s k = true := by
    rw [planned_eq, h]
    exact Bool.false_ne_true
  have hgone : leavingLayers s k = (stackOf s k).takeWhile (dueAt (formBottom s k)) := by rw [leavingLayers, h, leaves_none]
  have hstay : stayingLayers s k = (stackOf s k).dropWhile (dueAt (formBottom s k)) := by rw [stayingLayers, h, leaves_none]
  rw [exited, fillingExited]
  by_cases hnone : leavingLayers s k = []
  · rw [if_pos (.inl hnone), stayingLayers_of_none hnone, if_pos (hgone ▸ hnone)]
    rfl
  · rw [if_neg (not_or.mpr ⟨hnone, hplanned⟩), if_neg (hgone ▸ hnone), hstay]
    rfl

/-- What follows the end of a plan. -/
theorem afterPlan_of_no_plan {s : State} {k : Sector} {bottom : Int} {first second : List Layer × List Opening × BitVec 4}
    (h : s.ltr.plan = none) (hbottom : formBottom s k = bottom) (hfirst : conversion bottom (filling s k) = first)
    (hsecond : fillingExited bottom first = second) : afterPlan k s = refilled k second (askedSector (filling s k).2.2 first.2.2
      ++ ((first.1.takeWhile (dueAt bottom)).flatMap (exitNoticeOf (site s)) ++ askedSector first.2.2 second.2.2)
      ++ [.deficitNotice]) s := by
  have hfree : planned s k = false := by
    rw [planned_eq, h]
    rfl
  unfold afterPlan
  rw [tryConversion_of_free hfree, exitTest_eq, refilled_refilled, hbottom, hfirst]
  have hfilled := filling_refilled k first (askedSector (filling s k).2.2 first.2.2) s
  have hexited : exited (refilled k first (askedSector (filling s k).2.2 first.2.2) s) k = second := by
    rw [exited_of_no_plan (s := refilled k first _ s) h, hfilled, formBottom_refilled, hbottom, hsecond]
  have hmessages : exitMessages (refilled k first (askedSector (filling s k).2.2 first.2.2) s) k =
      (first.1.takeWhile (dueAt bottom)).flatMap (exitNoticeOf (site s)) ++ askedSector first.2.2 second.2.2 := by
    have hgone : leavingLayers (refilled k first (askedSector (filling s k).2.2 first.2.2) s) k =
        first.1.takeWhile (dueAt bottom) := by
      have hplan : (refilled k first (askedSector (filling s k).2.2 first.2.2) s).ltr.plan = none := h
      rw [leavingLayers, hplan, leaves_none, show stackOf _ k = first.1 from congrArg Prod.fst hfilled, formBottom_refilled, hbottom]
    have hevents : (refilled k first (askedSector (filling s k).2.2 first.2.2) s).ltr.events[k] = first.2.2 :=
      congrArg (fun x => x.2.2) hfilled
    rw [exitMessages, hexited, hgone, hevents]
    rfl
  rw [hexited, hmessages]
  simp [noticeDeficit, send, refilled, sendAll, putFilling, onLtr, List.append_assoc]

theorem exitNotices_eq (time : Word) (gone : List Layer) : gone.flatMap (exitNoticeOf time) = gone.flatMap fun l =>
    match l.kind with
    | .concrete y => [.exitNotice y.slot y.index time]
    | .gap => [] :=
  List.flatMap_congr fun l _ => by
    obtain ⟨b, h, kind⟩ := l
    cases kind <;> rfl

theorem placeUnder_eq (p : Plan) (volume : Nat) (s : State) : placeUnder p volume s = afterPlan p.sector
    (planEnded p.sector (if volume = 0 then stackOf s p.sector else placedStack s p volume)
      [.placementAnswer (if volume = 0 then .nothingPlaced else p.kind.result)] s) := by
  unfold placeUnder
  by_cases h : volume = 0
  · have hsame : put s.ltr.stack p.sector (stackOf s p.sector) = s.ltr.stack := put_get_self _ _
    rw [if_pos h, if_pos h, if_pos h, planEnded, hsame]
    rfl
  · rw [if_neg h, if_neg h, if_neg h]
    rfl

theorem takePlacement_of_planned {s : State} (hview : s.ltr.view ≠ .halted) {p : Plan} (h : s.ltr.plan = some p)
    (volume : Nat) : takePlacement p.sector p.slot volume s = placeUnder p volume s := by
  refine (unlessHaltedLayer_of_ne hview _).trans ?_
  rw [h]
  exact if_pos ⟨rfl, rfl⟩

theorem takePlacement_of_unplanned {s : State} (hview : s.ltr.view ≠ .halted) {k : Sector} {slot : BatchSlot}
    (h : ∀ p, s.ltr.plan = some p → p.sector ≠ k ∨ p.slot ≠ slot) (volume : Nat) :
    takePlacement k slot volume s = send (.placementAnswer .nothingPlaced) s := by
  refine (unlessHaltedLayer_of_ne hview _).trans ?_
  cases hplan : s.ltr.plan with
  | none => rfl
  | some p => exact if_neg (not_and_or.mpr (h p hplan))

theorem takeDropPlan_of_planned {s : State} (hview : s.ltr.view ≠ .halted) {p : Plan} (h : s.ltr.plan = some p) :
    takeDropPlan s = afterPlan p.sector (planEnded p.sector (stackOf s p.sector) [] s) := by
  have hsame : put s.ltr.stack p.sector (stackOf s p.sector) = s.ltr.stack := put_get_self _ _
  refine (unlessHaltedLayer_of_ne hview _).trans ?_
  rw [h, planEnded, hsame, List.append_nil]
  rfl

theorem takeDropPlan_of_none {s : State} (hview : s.ltr.view ≠ .halted) (h : s.ltr.plan = none) : takeDropPlan s = s := by
  refine (unlessHaltedLayer_of_ne hview _).trans ?_
  rw [h]

/-- Settles O49. -/
theorem placementsMakeOrThickenALayer : Obligations.PlacementsMakeOrThickenALayer := by
  intro s k slot volume hacting hview c ends placed thickness
  have hends {c : Instr} {x : Sector} {stack : List Layer} {answer : List Instr}
      (h : leadsTo c s (afterPlan x (planEnded x stack answer (took c s)))) : ends c x stack answer := by
    unfold ends
    intro bottom due first gone second before between after asked exits
    have hfilling : filling (planEnded x stack answer (took c s)) x = (stack, s.ltr.openings[x], before) :=
      Prod.ext (put_same _ _ _) rfl
    have hfirst : conversion bottom (filling (planEnded x stack answer (took c s)) x) = (first.1, first.2.1, between) := by
      rw [hfilling]
      rfl
    have hsecond : fillingExited bottom (first.1, first.2.1, between) = (second.1, second.2.1, after) := by
      unfold fillingExited after second
      change (if gone = [] then _ else _) = _
      by_cases hgone : gone = []
      · rw [if_pos hgone, if_pos hgone]
        exact Prod.ext rfl (Prod.ext rfl BitVec.or_zero.symm)
      · rw [if_neg hgone, if_neg hgone]
        rfl
    rw [afterPlan_of_no_plan (s := planEnded x stack answer (took c s)) rfl rfl hfirst hsecond, exitNotices_eq, hfilling] at h
    have hstack : put (put s.ltr.stack x stack) x second.1 = put s.ltr.stack x second.1 := put_put _ _ _ _
    rw [← hstack]
    refine (congrArg (leadsTo c s) ?_).mp h
    simp only [refilled, sendAll, putFilling, onLtr, planEnded, List.append_assoc]
    rfl
  have hplaced {p : Plan} {stack : List Layer} {a : PlacementResult}
      (hstack : stack = if volume = 0 then stackOf s p.sector else placedStack s p volume)
      (hanswer : a = if volume = 0 then .nothingPlaced else p.kind.result) : placed p stack a := by
    rintro hplan rfl rfl
    refine hends (leadsTo_of_taking (exec_placement _ _ volume s) hacting
      ((takePlacement_of_planned (s := took c s) hview hplan volume).trans ((placeUnder_eq p volume _).trans ?_)))
    rw [hstack, hanswer]
    rfl
  refine ⟨fun mix origin i hvolume => hplaced ?_ ?_, fun mix origin i hvolume => hplaced ?_ ?_,
    fun p hvolume hplan hsector hslot => hplaced ?_ ?_ hplan hsector hslot, fun h => ?_, fun hplan => ?_, fun p hplan => hends ?_⟩
  · exact (if_neg hvolume).symm
  · exact (if_neg hvolume).symm
  · rw [if_neg hvolume]
    refine List.map_congr_left fun l _ => ?_
    obtain ⟨b, h, kind⟩ := l
    cases kind with
    | gap => rfl
    | concrete x =>
      have hpinned : isPinned (some ⟨k, slot, mix, origin, .merge i⟩) k ⟨b, h, .concrete x⟩ = true ↔ x.slot = slot ∧ x.index = i := by
        simp [isPinned, Layer.concrete?]
      simp only [hpinned]
      rfl
  · exact (if_neg hvolume).symm
  · rw [if_pos hvolume, hsector]
  · rw [if_pos hvolume]
  · exact leadsTo_of_taking (exec_placement k slot volume s) hacting (takePlacement_of_unplanned (s := took c s) hview h volume)
  · exact leadsTo_of_taking (exec_dropPlan s) hacting (takeDropPlan_of_none (s := took _ s) hview hplan)
  · exact leadsTo_of_taking (exec_dropPlan s) hacting (takeDropPlan_of_planned (s := took _ s) hview hplan)

end Sys2Proof.Machine
end

section
/-! PROOF. Openings added and dropped (06 R106 to R108). -/

namespace Sys2Proof.Machine

open Sys2Proof

theorem insertOpening_eq (o : Opening) (l : List Opening) : insertOpening o l =
    l.takeWhile (fun p => decide (p.lower ≤ o.lower)) ++ o :: l.dropWhile (fun p => decide (p.lower ≤ o.lower)) := by
  induction l with
  | nil => rfl
  | cons p ps ih =>
    by_cases h : o.lower < p.lower
    · have hp : decide (p.lower ≤ o.lower) = false := decide_eq_false (Int.not_le.mpr h)
      rw [insertOpening, if_pos h, List.takeWhile_cons, List.dropWhile_cons, hp]
      rfl
    · have hp : decide (p.lower ≤ o.lower) = true := decide_eq_true (Int.not_lt.mp h)
      rw [insertOpening, if_neg h, List.takeWhile_cons, List.dropWhile_cons, hp, ih]
      rfl

theorem mem_insertOpening {o p : Opening} {l : List Opening} : p ∈ insertOpening o l ↔ p = o ∨ p ∈ l := by
  rw [insertOpening_eq, List.mem_append, List.mem_cons]
  conv_rhs => rw [← List.takeWhile_append_dropWhile (p := fun p => decide (p.lower ≤ o.lower)) (l := l), List.mem_append]
  tauto

theorem convertOpenings_of_all_above {bottom : Int} {stack : List Layer} {os : List Opening}
    (h : ∀ o ∈ os, fillTopOf bottom stack < o.lower) : convertOpenings bottom stack os = (stack, os, 0) := by
  cases os with
  | nil => rfl
  | cons o os => exact convertOpenings_of_above (h o List.mem_cons_self)

/-! ## The outcome of an ADD_OPENING (06 R107) -/

section
variable {s : State} {k : Sector} {o : Opening}

theorem addOpeningOutcome_of_bad
    (h : used s k = false ∨ o.upper ≤ o.lower ∨ (s.psv.rig.formHeight : Int) < o.upper - o.lower) :
    addOpeningOutcome s k o = .badArgument := by
  unfold addOpeningOutcome
  cases hused : used s k with
  | false => rfl
  | true => exact if_pos (h.resolve_left fun hp => Bool.false_ne_true (hp.symm.trans hused))

variable (hgood : ¬(used s k = false ∨ o.upper ≤ o.lower ∨ (s.psv.rig.formHeight : Int) < o.upper - o.lower))
include hgood

theorem addOpeningOutcome_of_good : addOpeningOutcome s k o = if o.lower < fillTop s k then .past
    else if Config.openingDepth ≤ (s.ltr.openings[k]).length then .full
    else if (s.ltr.openings[k]).any (overlaps o) then .badArgument else .done := by
  obtain ⟨hused, hbounds⟩ := not_or.mp hgood
  unfold addOpeningOutcome
  rw [Bool.of_not_eq_false hused]
  exact if_neg hbounds

theorem addOpeningOutcome_of_past (h : o.lower < fillTop s k) : addOpeningOutcome s k o = .past :=
  (addOpeningOutcome_of_good hgood).trans (if_pos h)

variable (habove : fillTop s k ≤ o.lower)
include habove

theorem addOpeningOutcome_of_full (h : 2 ≤ (s.ltr.openings[k]).length) : addOpeningOutcome s k o = .full :=
  (addOpeningOutcome_of_good hgood).trans ((if_neg (Int.not_lt.mpr habove)).trans (if_pos h))

theorem addOpeningOutcome_of_room (h : (s.ltr.openings[k]).length < 2) : addOpeningOutcome s k o =
    if ∃ p ∈ s.ltr.openings[k], o.lower < p.upper ∧ p.lower < o.upper then .badArgument else .done := by
  refine (addOpeningOutcome_of_good hgood).trans ((if_neg (Int.not_lt.mpr habove)).trans ((if_neg (Nat.not_le.mpr h)).trans ?_))
  have hclash : (s.ltr.openings[k]).any (overlaps o) = true ↔ ∃ p ∈ s.ltr.openings[k], o.lower < p.upper ∧ p.lower < o.upper := by
    simp [overlaps]
  simp only [hclash]

end

theorem takeAddOpening_of_no_sector {s : State} (hview : s.ltr.view ≠ .halted) {sector : Word} (h : 16 ≤ sector.toNat)
    (slot : OrderSlot) (lower upper : Word) : takeAddOpening slot sector lower upper s = answerOrder slot .badArgument s := by
  refine (unlessHaltedLayer_of_ne hview _).trans ?_
  rw [sectorOfWord_of_ge h]

/-- An opening that joins its list, and the conversion that follows. -/
def openingAdded (slot : OrderSlot) (k : Sector) (o : Opening) (s : State) : State :=
  answerOrder slot .done (onLtr (fun l => { l with openings := put l.openings k (insertOpening o l.openings[k]) }) s)

section
variable {s : State} (hview : s.ltr.view ≠ .halted) {sector : Word} {k : Sector} (hk : k.1 = sector.toNat) (slot : OrderSlot)
  {lower upper : Word}
include hview hk

theorem takeAddOpening_of_refused {r : OrderOutcome} (h : addOpeningOutcome s k ⟨lower.toInt, upper.toInt⟩ = r) (hr : r ≠ .done) :
    takeAddOpening slot sector lower upper s = answerOrder slot r s := by
  refine (unlessHaltedLayer_of_ne hview _).trans ?_
  rw [sectorOfWord_of_eq hk]
  dsimp only
  rw [h]
  split
  · exact absurd rfl hr
  · rfl

theorem takeAddOpening_of_done (h : addOpeningOutcome s k ⟨lower.toInt, upper.toInt⟩ = .done) :
    takeAddOpening slot sector lower upper s = when (converts (openingAdded slot k ⟨lower.toInt, upper.toInt⟩ s) k) noticeDeficit
      (tryConversion k (openingAdded slot k ⟨lower.toInt, upper.toInt⟩ s)) := by
  refine (unlessHaltedLayer_of_ne hview _).trans ?_
  rw [sectorOfWord_of_eq hk]
  dsimp only
  rw [h]
  rfl

end

theorem formBottom_openingAdded (slot : OrderSlot) (k j : Sector) (o : Opening) (s : State) :
    formBottom (openingAdded slot k o s) j = formBottom s j := rfl

/-- What the conversion behind an opening added leaves. -/
def openingTried (s : State) (k : Sector) (list : List Opening) : List Layer × List Opening × BitVec 4 :=
  if (s.ltr.plan.map Plan.sector) = some k then (stackOf s k, list, 0)
  else convertOpenings (formBottom s k) (stackOf s k) list

theorem openingAdded_tried (slot : OrderSlot) (k : Sector) (o : Opening) (s : State) :
    when (converts (openingAdded slot k o s) k) noticeDeficit (tryConversion k (openingAdded slot k o s)) =
      let r := openingTried s k (insertOpening o s.ltr.openings[k])
      { s with
        ltr := { s.ltr with
          stack := put s.ltr.stack k r.1, openings := put s.ltr.openings k r.2.1
          events := put s.ltr.events k (s.ltr.events[k] ||| r.2.2) }
        mail := s.mail ++ [.orderOutcome slot (.outcome .done 0)]
          ++ askedSector s.ltr.events[k] (s.ltr.events[k] ||| r.2.2)
          ++ (if r.1.length = (stackOf s k).length then [] else [.deficitNotice]) } := by
  have hplanned : planned (openingAdded slot k o s) k = decide (s.ltr.plan.map Plan.sector = some k) := planned_eq s k
  have hopenings : (openingAdded slot k o s).ltr.openings[k] = insertOpening o s.ltr.openings[k] := put_same _ _ _
  have hput (y : List Opening) : put (put s.ltr.openings k (insertOpening o s.ltr.openings[k])) k y = put s.ltr.openings k y :=
    put_put _ _ _ _
  have hfilling : filling (openingAdded slot k o s) k = (stackOf s k, insertOpening o s.ltr.openings[k], s.ltr.events[k]) :=
    Prod.ext rfl (Prod.ext hopenings rfl)
  dsimp only
  by_cases hplan : s.ltr.plan.map Plan.sector = some k
  · have hheld : planned (openingAdded slot k o s) k = true := hplanned.trans (decide_eq_true hplan)
    have hstill : converts (openingAdded slot k o s) k = false := by rw [converts, hheld]; rfl
    have hstack : put s.ltr.stack k (stackOf s k) = s.ltr.stack := put_get_self _ _
    have hevents : put s.ltr.events k s.ltr.events[k] = s.ltr.events := put_get_self _ _
    rw [tryConversion_of_planned hheld, hstill, openingTried, if_pos hplan]
    dsimp only
    have hzero : s.ltr.events[k] ||| (0 : BitVec 4) = s.ltr.events[k] := BitVec.or_zero
    rw [hzero, hstack, hevents, askedSector_self, if_pos rfl, List.append_nil, List.append_nil]
    rfl
  · have hfree : planned (openingAdded slot k o s) k = false := hplanned.trans (decide_eq_false hplan)
    have htried : openingTried s k (insertOpening o s.ltr.openings[k]) =
        convertOpenings (formBottom s k) (stackOf s k) (insertOpening o s.ltr.openings[k]) := if_neg hplan
    have hconverts : converts (openingAdded slot k o s) k =
        decide ((openingTried s k (insertOpening o s.ltr.openings[k])).1.length ≠ (stackOf s k).length) := by
      rw [converts, hfree, conversionOf, hopenings, htried]
      rfl
    rw [hconverts, tryConversion_of_free hfree, hfilling, formBottom_openingAdded, conversion, ← htried]
    generalize openingTried s k (insertOpening o s.ltr.openings[k]) = r
    rw [← hput]
    by_cases hsame : r.1.length = (stackOf s k).length
    · rw [decide_eq_false (not_not_intro hsame), if_pos hsame, List.append_nil]
      rfl
    · rw [decide_eq_true hsame, if_neg hsame]
      rfl

/-- Settles O50. -/
theorem openingsAreAddedAndDropped : Obligations.OpeningsAreAddedAndDropped := by
  constructor
  · intro s slot sector lower upper hacting hview c answered o
    have hlead {t : State} (h : takeAddOpening slot sector lower upper (took c s) = t) : leadsTo c s t :=
      leadsTo_of_taking (exec_addOpening slot sector lower upper s) hacting h
    refine ⟨fun h => hlead (takeAddOpening_of_no_sector (s := took c s) hview h slot lower upper), ?_⟩
    intro k hk bad clash
    have hrefused {r : OrderOutcome} (h : addOpeningOutcome s k o = r) (hr : r ≠ .done) : answered r :=
      hlead (takeAddOpening_of_refused (s := took c s) hview hk slot h hr)
    refine ⟨fun h => hrefused (addOpeningOutcome_of_bad h) OrderOutcome.noConfusion, fun hgood hpast =>
      hrefused (addOpeningOutcome_of_past hgood hpast) OrderOutcome.noConfusion, fun hgood habove hfull =>
      hrefused (addOpeningOutcome_of_full hgood habove hfull) OrderOutcome.noConfusion, fun hgood habove hroom hclash =>
      hrefused ((addOpeningOutcome_of_room hgood habove hroom).trans (if_pos hclash)) OrderOutcome.noConfusion,
      fun hgood habove hroom hclash => ?_⟩
    have hdone := (addOpeningOutcome_of_room hgood habove hroom).trans (if_neg hclash)
    refine ⟨_, hlead ((takeAddOpening_of_done (s := took c s) hview hk slot hdone).trans
      (openingAdded_tried slot k o (took c s))), ?_, fun x hx => ⟨put_other _ _ (Ne.symm hx), put_other _ _ (Ne.symm hx)⟩,
      ?_, fun hlower hlist => ?_⟩
    · exact List.mem_append_left _ (List.mem_append_left _ (List.mem_append_right _ List.mem_cons_self))
    · rw [← insertOpening_eq]
      exact ⟨rfl, rfl⟩
    · have htried : openingTried s k (insertOpening o s.ltr.openings[k]) = (stackOf s k, insertOpening o s.ltr.openings[k], 0) := by
        rw [openingTried, convertOpenings_of_all_above, ite_self]
        intro p hp
        rcases mem_insertOpening.mp hp with rfl | hp
        · exact hlower
        · exact hlist p hp
      change o ∈ (put s.ltr.openings k (openingTried s k (insertOpening o s.ltr.openings[k])).2.1)[k]
        ∧ ((put s.ltr.openings k (openingTried s k (insertOpening o s.ltr.openings[k])).2.1)[k]).length = _
        ∧ (put s.ltr.stack k (openingTried s k (insertOpening o s.ltr.openings[k])).1)[k] = _
      rw [put_same, put_same, htried]
      exact ⟨mem_insertOpening.mpr (.inl rfl), length_insertOpening o _, rfl⟩
  · intro s slot sector position hacting hview hsound c answered
    have hlead {t : State} (h : takeDropOpening slot sector position (took c s) = t) : leadsTo c s t :=
      leadsTo_of_taking (exec_dropOpening slot sector position s) hacting h
    refine ⟨fun h => hlead ?_, fun k hk => ?_⟩
    · refine (unlessHaltedLayer_of_ne (s := took c s) hview _).trans ?_
      rw [sectorOfWord_of_ge h]
      rfl
    have hdrop : takeDropOpening slot sector position (took c s) =
        if position.toNat < (s.ltr.openings[k]).length then
          answerOrder slot .done
            (onLtr (fun l => { l with openings := put l.openings k (l.openings[k].eraseIdx position.toNat) }) (took c s))
        else answerOrder slot .badArgument (took c s) := by
      refine (unlessHaltedLayer_of_ne (s := took c s) hview _).trans ?_
      rw [sectorOfWord_of_eq hk]
      rfl
    have hdone {l : List Opening} (hl : (s.ltr.openings[k]).eraseIdx position.toNat = l)
        (hlt : position.toNat < (s.ltr.openings[k]).length) :
        answered .done { s.ltr with openings := put s.ltr.openings k l } := by
      refine hlead (hdrop.trans ((if_pos hlt).trans ?_))
      rw [← hl]
      rfl
    obtain ⟨-, hshort, -⟩ := hsound k
    refine ⟨fun hbad => hlead (hdrop.trans (if_neg ?_)), fun a hpos hl => hdone ?_ ?_, fun a b hpos hl => hdone ?_ ?_,
      fun a b hpos hl => hdone ?_ ?_⟩
    · omega
    all_goals
      rw [hpos, hl]
    · rfl
    · exact Nat.one_pos
    · rfl
    · exact Nat.two_pos
    · rfl
    · exact Nat.one_lt_two

end Sys2Proof.Machine
end

section
/-! PROOF. Feed views and the rise permission (06 R102, R110, R113). -/

namespace Sys2Proof.Machine

open Sys2Proof

/-! ## Feed views (06 R102) -/

theorem addSectorEvents_actsAlone (events : BitVec 4) : ActsAlone (fun s k => s.ltr.events[k]) (fun k => addSectorEvents k events)
    (fun s k => (s.ltr.events[k] ||| events, askedSector s.ltr.events[k] (s.ltr.events[k] ||| events))) where
  same k s := by
    rw [addSectorEvents_eq]
    exact put_same _ _ _
  other k j s h := by
    rw [addSectorEvents_eq]
    exact put_other _ _ h
  mail k s := by
    rw [addSectorEvents_eq]
    rfl
  apart k j s h := by
    have hkept : (addSectorEvents k events s).ltr.events[j] = s.ltr.events[j] := by
      rw [addSectorEvents_eq]
      exact put_other _ _ h
    rw [hkept]

theorem forSectors_addSectorEvents_rest (events : BitVec 4) (ks : List Sector) (s : State) : ∃ E M,
    forSectors ks (fun k => addSectorEvents k events) s = { s with ltr := { s.ltr with events := E }, mail := M } := by
  induction ks generalizing s with
  | nil => exact ⟨_, _, rfl⟩
  | cons k ks ih =>
    obtain ⟨E, M, h⟩ := ih (addSectorEvents k events s)
    refine ⟨E, M, h.trans ?_⟩
    rw [addSectorEvents_eq]
    rfl

theorem forSectors_addSectorEvents_ltr (events : BitVec 4) (ks : List Sector) (s : State) :
    (forSectors ks (fun k => addSectorEvents k events) s).ltr =
      { s.ltr with events := (forSectors ks (fun k => addSectorEvents k events) s).ltr.events } := by
  obtain ⟨E, M, h⟩ := forSectors_addSectorEvents_rest events ks s
  rw [h]

/-- The sectors a feed view reports as full. -/
def fullSectors (s : State) (destination : BitVec 16) : List Sector :=
  allSectors.filter fun k => wantsConcrete s destination k && !hasRoom s k

theorem wantsConcrete_iff (s : State) (destination : BitVec 16) (k : Sector) : wantsConcrete s destination k = true ↔
    used s k = true ∧ s.ltr.feedMask.getLsbD k.1 = true ∧ destination.getLsbD k.1 = true
      ∧ (s.psv.rig.minLayer : Int) ≤ fillDepth s k - s.psv.rig.targetFill := by
  rw [wantsConcrete, Bool.and_eq_true, Bool.and_eq_true, Bool.and_eq_true, decide_eq_true_iff, and_assoc, and_assoc]
  rfl

theorem hasRoom_iff (s : State) (k : Sector) : hasRoom s k = true ↔ (stackOf s k).length < 10 := decide_eq_true_iff

theorem isUrgent_iff (s : State) (k : Sector) : isUrgent s k = true ↔ used s k = true ∧ ∃ l, topConcrete s k = some l
    ∧ (s.psv.rig.mixes[l.mix]).warnOpen ≤ (s.tmb.siteSeconds - l.placed).toNat := by
  rw [isUrgent, Bool.and_eq_true]
  refine and_congr_right fun _ => ?_
  cases topConcrete s k with
  | none => exact ⟨fun h => absurd h Bool.false_ne_true, fun ⟨l, hl, _⟩ => absurd hl (Option.some_ne_none l).symm⟩
  | some l => exact decide_eq_true_iff.trans ⟨fun h => ⟨l, rfl, h⟩, fun ⟨_, hl, h⟩ => (Option.some.inj hl) ▸ h⟩

theorem isSome_mergesWith_iff (s : State) (k : Sector) (slot : BatchSlot) : (mergesWith s k slot).isSome = true ↔
    ∃ l, topConcrete s k = some l ∧ l.slot = slot ∧ (s.tmb.siteSeconds - l.placed).toNat ≤ s.psv.rig.mergeWindow := by
  unfold mergesWith
  cases topConcrete s k with
  | none => exact ⟨fun h => absurd h Bool.false_ne_true, fun ⟨l, hl, _⟩ => absurd hl (Option.some_ne_none l).symm⟩
  | some l =>
    dsimp only
    split
    · next h => exact ⟨fun _ => ⟨l, rfl, h⟩, fun _ => rfl⟩
    · next h => exact ⟨fun hp => absurd hp Bool.false_ne_true, fun ⟨_, hl, hp⟩ => absurd ((Option.some.inj hl) ▸ hp) h⟩

/-! ## The rise permission (06 R110) -/

theorem getLsbD_foldl_setBit (p : Sector → Bool) (k : Sector) (ks : List Sector) (m : BitVec 16) :
    (ks.foldl (fun m j => if p j then setBit m j.1 else m) m).getLsbD k.1 = (m.getLsbD k.1 || (decide (k ∈ ks) && p k)) := by
  induction ks generalizing m with
  | nil => simp
  | cons j ks ih =>
    rw [List.foldl_cons, ih]
    by_cases hj : k = j
    · subst hj
      cases hp : p k
      · simp
      · simp [getLsbD_setBit m k.1 k.2]
    · have hstep : (if p j then setBit m j.1 else m).getLsbD k.1 = m.getLsbD k.1 := by
        split
        · rw [getLsbD_setBit m j.1 k.2, decide_eq_false (fun h => hj (Fin.ext h)), Bool.or_false]
        · rfl
      rw [hstep]
      simp [hj]

theorem getLsbD_sectorSet (p : Sector → Bool) (k : Sector) : (sectorSet p).getLsbD k.1 = p k := by
  refine (getLsbD_foldl_setBit p k allSectors 0).trans ?_
  simp [allSectors]

theorem tooYoung_iff (s : State) (k : Sector) (l : Layer) : tooYoung s k l = true ↔ ∃ c, l.kind = .concrete c
    ∧ l.bottom < formBottom s k + s.psv.rig.strokeLength
    ∧ (s.tmb.siteSeconds - c.origin).toNat < (s.psv.rig.mixes[c.mix]).minExit := by
  obtain ⟨b, h, kind⟩ := l
  cases kind with
  | gap => simp [tooYoung, Layer.concrete?]
  | concrete c =>
    have hyoung : tooYoung s k ⟨b, h, .concrete c⟩ = (decide (b < formBottom s k + s.psv.rig.strokeLength)
      && decide ((s.tmb.siteSeconds - c.origin).toNat < (s.psv.rig.mixes[c.mix]).minExit)) := rfl
    rw [hyoung, Bool.and_eq_true, decide_eq_true_iff, decide_eq_true_iff]
    exact ⟨fun hp => ⟨c, rfl, hp⟩, fun ⟨_, hc, hp⟩ => (LayerKind.concrete.inj hc) ▸ hp⟩

/-- Settles O47. -/
theorem feedViewsAndRisePermissionNameTheSectors : Obligations.FeedViewsAndRisePermissionNameTheSectors := by
  constructor
  · intro s slot destination n hacting hview c wants
    obtain ⟨hfull, hother, -⟩ := (addSectorEvents_actsAlone evStackFull).doneAt (fullSectors s destination)
      (onLtr (fun l => { l with lastView := some (tabulate (viewOf s slot destination)) }) (took c s))
      ((List.nodup_finRange 16).filter _)
    have hmem (k : Sector) : k ∈ fullSectors s destination ↔ wants k ∧ 10 ≤ (stackOf s k).length := by
      rw [fullSectors, List.mem_filter, Bool.and_eq_true, wantsConcrete_iff, Bool.not_eq_true', ← Bool.not_eq_true, hasRoom_iff,
        Nat.not_lt]
      exact and_iff_right (List.mem_finRange k)
    have hviews (k : Sector) : (tabulate (viewOf s slot destination))[k] = viewOf s slot destination k := tabulate_get _ _
    refine ⟨_, tabulate (viewOf s slot destination), leadsTo_of_taking (exec_feedView slot destination n s) hacting
      (unlessHaltedLayer_of_ne (s := took _ s) hview _), ?_, hviews, fun k => ?_, fun k hused => ?_, fun k hused => ?_, fun k => ?_,
      fun k => ?_, fun k => ?_, fun k hwants hroom => hfull k ((hmem k).mpr ⟨hwants, hroom⟩),
      fun k hnot => hother k fun hk => ?_⟩
    · exact forSectors_addSectorEvents_ltr evStackFull (fullSectors s destination) _
    · rw [hviews]
      refine (Bool.and_eq_true _ _).to_iff.trans ?_
      rw [wantsConcrete_iff, hasRoom_iff]
    · rw [hviews]
      exact if_pos hused
    · rw [hviews]
      exact if_neg (Bool.eq_false_iff.mp hused)
    · rw [hviews]
      rfl
    · rw [hviews]
      exact isSome_mergesWith_iff s k slot
    · rw [hviews]
      exact isUrgent_iff s k
    · obtain ⟨hwants, hroom⟩ := (hmem k).mp hk
      exact hnot.elim (fun hn => hn hwants) (fun hn => Nat.not_le.mpr hn hroom)
  · intro s hacting hview
    refine ⟨sectorSet (ageFlag s), sectorSet (fillFlag s), leadsTo_of_taking (exec_risePermissionRequest s) hacting
      (unlessHaltedLayer_of_ne (s := took _ s) hview _), fun k => ⟨?_, ?_⟩⟩
    · rw [getLsbD_sectorSet, ageFlag, Bool.and_eq_true, List.any_eq_true]
      simp only [tooYoung_iff]
    · rw [getLsbD_sectorSet, fillFlag, Bool.and_eq_true, decide_eq_true_iff]

end Sys2Proof.Machine
end

section
/-! PROOF. The pour arbiter (07 R126 to R130). -/

namespace Sys2Proof.Machine

open Sys2Proof

/-! ## The order of the candidates (07 R129) -/

/-- A candidate's rank: the urgent first, by open age among the urgent, then by deficit volume, then by sector. -/
def candidateRank (c : Sector × SectorView) : Bool ×ₗ ℕ ×ₗ ℕ ×ₗ Sectorᵒᵈ :=
  toLex (c.2.urgent, toLex (if c.2.urgent = true then c.2.openAge.getD 0 else 0,
    toLex (c.2.deficitVolume, OrderDual.toDual c.1)))

/-- An urgent candidate has an open age. -/
def ageKnown (c : Sector × SectorView) : Prop := c.2.urgent = true → c.2.openAge ≠ none

theorem openAge_eq_iff {a b : Sector × SectorView} (ha : a.2.openAge ≠ none) (hb : b.2.openAge ≠ none) :
    a.2.openAge = b.2.openAge ↔ a.2.openAge.getD 0 = b.2.openAge.getD 0 := by
  obtain ⟨x, hx⟩ := Option.ne_none_iff_exists'.mp ha
  obtain ⟨y, hy⟩ := Option.ne_none_iff_exists'.mp hb
  rw [hx, hy]
  exact Option.some_inj

theorem goesBefore_iff {a b : Sector × SectorView} (ha : ageKnown a) (hb : ageKnown b) :
    goesBefore a b = true ↔ candidateRank b < candidateRank a := by
  unfold goesBefore candidateRank
  simp only [Prod.Lex.toLex_lt_toLex, OrderDual.toDual_lt_toDual]
  have hvolumes : (if a.2.deficitVolume ≠ b.2.deficitVolume then decide (b.2.deficitVolume < a.2.deficitVolume)
      else decide (a.1 < b.1)) = true ↔
      b.2.deficitVolume < a.2.deficitVolume ∨ b.2.deficitVolume = a.2.deficitVolume ∧ a.1 < b.1 := by
    by_cases hvolume : a.2.deficitVolume = b.2.deficitVolume
    · simp [hvolume]
    · simp [hvolume, Ne.symm hvolume]
  cases hua : a.2.urgent with
  | true =>
    cases hub : b.2.urgent with
    | true =>
      have hage := openAge_eq_iff (ha hua) (hb hub)
      by_cases heq : a.2.openAge.getD 0 = b.2.openAge.getD 0
      · simpa [hage.mpr heq] using hvolumes
      · simp [hage, heq, Ne.symm heq]
    | false => simp
  | false =>
    cases hub : b.2.urgent with
    | true => simp
    | false => simpa using hvolumes

theorem firstCandidate_eq_none_iff (cs : List (Sector × SectorView)) : firstCandidate cs = none ↔ cs = [] := by
  cases cs with
  | nil => exact iff_of_true rfl rfl
  | cons c cs =>
    refine iff_of_false ?_ (List.cons_ne_nil c cs)
    rw [firstCandidate]
    split
    · exact Option.some_ne_none _
    · split <;> exact Option.some_ne_none _

/-- The candidate taken is of the highest rank. -/
theorem firstCandidate_spec {cs : List (Sector × SectorView)} (hknown : ∀ c ∈ cs, ageKnown c) {d : Sector × SectorView}
    (h : firstCandidate cs = some d) : d ∈ cs ∧ ∀ c ∈ cs, candidateRank c ≤ candidateRank d := by
  induction cs generalizing d with
  | nil => cases h
  | cons c cs ih =>
    have hc := hknown c List.mem_cons_self
    have hcs (e : Sector × SectorView) (he : e ∈ cs) : ageKnown e := hknown e (List.mem_cons_of_mem c he)
    rw [firstCandidate] at h
    cases hfirst : firstCandidate cs with
    | none =>
      rw [hfirst] at h
      obtain rfl := Option.some.inj h
      rw [(firstCandidate_eq_none_iff cs).mp hfirst]
      exact ⟨List.mem_singleton_self c, fun e he => by rw [List.mem_singleton.mp he]⟩
    | some e =>
      obtain ⟨he, hle⟩ := ih hcs hfirst
      have hbefore := goesBefore_iff (hcs e he) hc
      rw [hfirst] at h
      dsimp only at h
      by_cases hgoes : goesBefore e c = true
      · rw [if_pos hgoes] at h
        obtain rfl := Option.some.inj h
        refine ⟨List.mem_cons_of_mem c he, fun x hx => ?_⟩
        rcases List.mem_cons.mp hx with rfl | hx
        · exact (hbefore.mp hgoes).le
        · exact hle x hx
      · rw [if_neg hgoes] at h
        obtain rfl := Option.some.inj h
        refine ⟨List.mem_cons_self, fun x hx => ?_⟩
        rcases List.mem_cons.mp hx with rfl | hx
        · exact le_rfl
        · exact (hle x hx).trans (not_lt.mp (mt hbefore.mpr hgoes))

theorem mem_candidates (s : State) (slot : BatchSlot) (r : BatchRecord) (k : Sector) (v : SectorView) :
    (k, v) ∈ candidates s slot r ↔ v = viewOf s slot r.destination k ∧ v.eligible = true
      ∧ (r.entries.length < 8 ∨ v.merges = true) := by
  have hdepth : Config.entryDepth = 8 := rfl
  simp only [candidates, List.mem_filter, List.mem_map, allSectors, List.mem_finRange, true_and, Prod.mk.injEq,
    exists_eq_left, Bool.and_eq_true, Bool.or_eq_true, decide_eq_true_iff, hdepth]
  exact and_congr_left' eq_comm

theorem ageKnown_viewOf (s : State) (slot : BatchSlot) (destination : BitVec 16) (k : Sector) :
    ageKnown (k, viewOf s slot destination k) := by
  intro hurgent
  obtain ⟨-, l, hl, -⟩ := (isUrgent_iff s k).mp hurgent
  change (topConcrete s k).map (openAge s) ≠ none
  rw [hl]
  exact Option.some_ne_none _

theorem ageKnown_of_mem {s : State} {slot : BatchSlot} {r : BatchRecord} : ∀ c ∈ candidates s slot r, ageKnown c := by
  rintro ⟨k, v⟩ hc
  obtain ⟨rfl, -⟩ := (mem_candidates s slot r k v).mp hc
  exact ageKnown_viewOf s slot r.destination k

/-- What a higher rank says. -/
theorem candidateRank_le_iff (a b : Sector × SectorView) : candidateRank b ≤ candidateRank a ↔
    (b.2.urgent = true → a.2.urgent = true) ∧ (a.2.urgent = b.2.urgent →
      (a.2.urgent = true → b.2.openAge.getD 0 ≤ a.2.openAge.getD 0)
      ∧ ((a.2.urgent = false ∨ b.2.openAge.getD 0 = a.2.openAge.getD 0) →
        b.2.deficitVolume ≤ a.2.deficitVolume ∧ (b.2.deficitVolume = a.2.deficitVolume → a.1 ≤ b.1))) := by
  unfold candidateRank
  simp only [Prod.Lex.toLex_le_toLex, OrderDual.toDual_le_toDual]
  cases hua : a.2.urgent with
  | true =>
    cases hub : b.2.urgent with
    | true =>
      simp only [lt_self_iff_false, true_and, false_or, if_true]
      grind
    | false => simp
  | false =>
    cases hub : b.2.urgent with
    | true => simp
    | false =>
      simp only [lt_self_iff_false, true_and, false_or]
      grind

/-! ## A try of the arbiter (07 R126 to R130) -/

theorem arbiterFree_iff (s : State) : arbiterFree s = true ↔ s.fds.gate = .idle ∧ s.fds.view = .run ∧ s.psv.state = .run
    ∧ s.fds.paused = false ∧ 0 < s.fds.flow := by
  simp [arbiterFree, gateIdle, and_assoc]

theorem tryArbiter_of_idle {s : State} (h : s.fds.gate ≠ .idle ∨ s.fds.plan ≠ .none ∨ s.fds.view ≠ .run ∨ s.psv.state ≠ .run
    ∨ s.fds.paused = true ∨ s.fds.flow = 0 ∨ s.fds.line = []) : tryArbiter s = s := by
  unfold tryArbiter
  split
  · next hfree =>
    obtain ⟨hfree, hplan⟩ := (Bool.and_eq_true _ _).mp hfree
    obtain ⟨hgate, hview, hstate, hpaused, hflow⟩ := (arbiterFree_iff s).mp hfree
    have hline : s.fds.line = [] := by
      rcases h with h | h | h | h | h | h | h
      · exact absurd hgate h
      · exact absurd (of_decide_eq_true hplan) h
      · exact absurd hview h
      · exact absurd hstate h
      · exact absurd (hpaused.symm.trans h) Bool.false_ne_true
      · exact absurd h hflow.ne'
      · exact h
    rw [hline]
  · rfl

theorem tryArbiter_of_head {s : State} (hfree : arbiterFree s = true) (hplan : s.fds.plan = .none) {slot : BatchSlot}
    {rest : List BatchSlot} (hline : s.fds.line = slot :: rest) {r : BatchRecord} (hbatch : batchOf s slot = some r) :
    tryArbiter s = decideHead slot r s := by
  unfold tryArbiter
  rw [if_pos (by rw [hfree, Bool.true_and]; exact decide_eq_true hplan), hline]
  dsimp only
  rw [hbatch]

/-- The head has come down to a remainder of the portion and entry named. -/
def comesShort (s : State) (r : BatchRecord) (i : PortionIndex) (e : PortionEntry) : Prop :=
  r.lastPortion = some i ∧ r.entries[i.1]? = some e ∧ r.remaining < minLayerVolume s e.sector

theorem remainderOf_of_comesShort {s : State} {r : BatchRecord} {i : PortionIndex} {e : PortionEntry} (h : comesShort s r i e) :
    remainderOf s r = some (i, e.sector) := by
  obtain ⟨hlast, hentry, hshort⟩ := h
  rw [remainderOf, lastSector, hlast]
  dsimp only
  rw [hentry]
  exact if_pos hshort

theorem remainderOf_of_none {s : State} {r : BatchRecord} (h : ∀ i e, ¬comesShort s r i e) : remainderOf s r = none := by
  rw [remainderOf, lastSector]
  cases hlast : r.lastPortion with
  | none => rfl
  | some i =>
    cases hentry : r.entries[i.1]? with
    | none => simp [hentry]
    | some e =>
      simp only [hentry, Option.map_some]
      exact if_neg fun hshort => h i e ⟨hlast, hentry, hshort⟩

theorem newIndexOf_eq_some_iff (r : BatchRecord) (i : PortionIndex) : newIndexOf r = some i ↔ i.1 = r.entries.length := by
  unfold newIndexOf
  split
  · next h => exact ⟨fun he => (congrArg Fin.val (Option.some.inj he)).symm, fun he => congrArg some (Fin.ext he.symm)⟩
  · next h => exact ⟨fun he => absurd he.symm (Option.some_ne_none i), fun he => absurd (he ▸ i.2) h⟩

section
variable {s : State} {slot : BatchSlot} {r : BatchRecord}

theorem decideHead_of_waste {cause : WasteCause} (h : headWaste s r = some cause) :
    decideHead slot r s = openWaste slot r.remaining cause s := by
  rw [decideHead, h]

theorem decideHead_of_remainder {i : PortionIndex} {e : PortionEntry} (h : headWaste s r = none) (hshort : comesShort s r i e) :
    decideHead slot r s =
      askPlan ⟨e.sector, slot, r.mix, r.origin, none, some i⟩ (min r.remaining s.psv.rig.maxPortion) s := by
  rw [decideHead, h]
  dsimp only
  rw [remainderOf_of_comesShort hshort]

theorem decideHead_of_portion (h : headWaste s r = none) (hnone : ∀ i e, ¬comesShort s r i e) :
    decideHead slot r s = planPortion slot r s := by
  rw [decideHead, h]
  dsimp only
  rw [remainderOf_of_none hnone]

theorem fds_takeFeedView (slot : BatchSlot) (destination : BitVec 16) (s : State) :
    (takeFeedView slot destination s).fds = s.fds := by
  rw [layerless_eq (layerless_takeFeedView slot destination s)]

theorem planPortion_of_none (h : candidates s slot r = []) : planPortion slot r s = takeFeedView slot r.destination s := by
  rw [planPortion, h]
  rfl

theorem planPortion_of_some {k : Sector} {v : SectorView} (h : firstCandidate (candidates s slot r) = some (k, v)) :
    planPortion slot r s = askPlan ⟨k, slot, r.mix, r.origin, newIndexOf r, none⟩
      (min v.deficitVolume (min r.remaining s.psv.rig.maxPortion)) (takeFeedView slot r.destination s) := by
  rw [planPortion, h]

end

/-- Settles O51. -/
theorem arbiterDecidesTheHeadOfTheLine : Obligations.ArbiterDecidesTheHeadOfTheLine := by
  refine ⟨⟨fun s h => tryArbiter_of_idle h, fun s hacting hview => ?_⟩, ?_, ?_⟩
  · exact leadsTo_of_taking (exec_deficitNotice s) hacting (if_neg hview)
  · intro s slot rest r hgate hplan hview hstate hpaused hflow hline hbatch _ aged run waste short
    have htry := tryArbiter_of_head ((arbiterFree_iff s).mpr ⟨hgate, hview, hstate, hpaused, hflow⟩) hplan hline hbatch
    have hgoes (hlive : r.toWaste = false) (hyoung : ¬aged) : headWaste s r = none := by
      rw [headWaste, hlive]
      exact if_neg hyoung
    refine ⟨newIndexOf_eq_some_iff r, fun hwaste => htry.trans (decideHead_of_waste ?_),
      fun hlive haged => htry.trans (decideHead_of_waste ?_), fun hlive hyoung i e hshort =>
      htry.trans (decideHead_of_remainder (hgoes hlive hyoung) hshort), fun hlive hyoung hnone => ?_⟩
    · rw [headWaste, if_pos hwaste]
    · rw [headWaste, hlive]
      exact if_pos haged
    · rw [htry, decideHead_of_portion (hgoes hlive hyoung) hnone]
      refine ⟨fun hempty => ?_, fun k v hfirst => ?_⟩
      · rw [planPortion_of_none hempty, fds_takeFeedView]
      · rw [planPortion_of_some hfirst]
        refine ⟨?_, List.mem_append_right _ List.mem_cons_self⟩
        have hfds := fds_takeFeedView slot r.destination s
        simp [askPlan, onFds, send, hfds]
  · intro s slot r
    refine ⟨mem_candidates s slot r, firstCandidate_eq_none_iff _, fun k v hfirst => ?_⟩
    obtain ⟨hmem, hbest⟩ := firstCandidate_spec ageKnown_of_mem hfirst
    refine ⟨hmem, fun x w hx hne => ?_⟩
    obtain ⟨hurgent, hrest⟩ := (candidateRank_le_iff (k, v) (x, w)).mp (hbest (x, w) hx)
    refine ⟨hurgent, fun hsame => ?_⟩
    obtain ⟨hage, hvolume⟩ := hrest hsame
    refine ⟨hage, fun h => ?_⟩
    obtain ⟨hle, hsector⟩ := hvolume (h.imp_right fun he => congrArg (fun o => o.getD 0) he.symm)
    exact ⟨hle, fun he => lt_of_le_of_ne (hsector he) hne.symm⟩

end Sys2Proof.Machine
end

section
/-! PROOF. The answer to a pour plan request (07 R128, R130, R136). -/

namespace Sys2Proof.Machine

open Sys2Proof

theorem unlessHaltedFeed_of_live {s : State} (h : s.fds.view ≠ .halted) (f : State → State) : unlessHaltedFeed f s = f s := if_neg h

/-- The head is still the batch a plan was asked for, and nothing but a plan keeps the arbiter from it. -/
def headHeld (s : State) (slot : BatchSlot) (r : BatchRecord) : Prop := s.fds.gate = .idle ∧ s.fds.view = .run
  ∧ s.psv.state = .run ∧ s.fds.paused = false ∧ 0 < s.fds.flow ∧ s.fds.line.head? = some slot ∧ batchOf s slot = some r
  ∧ r.toWaste = false

theorem planHolds_iff (s : State) (slot : BatchSlot) : planHolds s slot = true ↔ ∃ r, headHeld s slot r := by
  unfold planHolds
  rw [Bool.and_eq_true, Bool.and_eq_true, arbiterFree_iff, decide_eq_true_iff]
  cases hbatch : batchOf s slot with
  | none =>
    refine iff_of_false (fun h => Bool.false_ne_true h.2) ?_
    rintro ⟨r, -, -, -, -, -, -, hr, -⟩
    exact Option.some_ne_none r (hr.symm.trans hbatch)
  | some r =>
    simp only [headHeld, hbatch, Option.some.injEq, Bool.not_eq_true']
    constructor
    · rintro ⟨⟨⟨hgate, hview, hstate, hpaused, hflow⟩, hhead⟩, hlive⟩
      exact ⟨r, hgate, hview, hstate, hpaused, hflow, hhead, rfl, hlive⟩
    · rintro ⟨_, hgate, hview, hstate, hpaused, hflow, hhead, rfl, hlive⟩
      exact ⟨⟨⟨hgate, hview, hstate, hpaused, hflow⟩, hhead⟩, hlive⟩

/-! ## The feed-stopped report (07 R136) -/

theorem reportStopped_of_owed {s : State} (howed : s.fds.owesReport = true) (hgate : s.fds.gate = .idle)
    (hplan : s.fds.plan = .none) : reportStopped s =
      { s with fds := { s.fds with owesReport := false }, mail := s.mail ++ [.feedStopped] } := by
  refine if_pos ?_
  rw [howed, gateIdle, decide_eq_true hgate, decide_eq_true hplan]
  rfl

theorem reportStopped_of_not {s : State} (h : s.fds.owesReport = false ∨ s.fds.gate ≠ .idle ∨ s.fds.plan ≠ .none) :
    reportStopped s = s := by
  refine if_neg fun hp => ?_
  obtain ⟨hboth, hplan⟩ := (Bool.and_eq_true _ _).mp hp
  obtain ⟨howed, hgate⟩ := (Bool.and_eq_true _ _).mp hboth
  rcases h with h | h | h
  · exact Bool.false_ne_true (h.symm.trans howed)
  · exact h (of_decide_eq_true hgate)
  · exact h (of_decide_eq_true hplan)

/-! ## The gates (07 R125, R128, R130) -/

theorem openDrop_of_live {s : State} {slot : BatchSlot} {r : BatchRecord} (h : batchOf s slot = some r) (k : Sector)
    (volume : Nat) : openDrop k slot volume s =
      { s with
        fds := { s.fds with
          gate := .drop k (openRun s slot volume), records := put s.fds.records slot (some { r with state := .pouring }) }
        mail := s.mail ++ [.slotWriteRequest (.batch slot (some .pouring) r.report)] } := by
  have hbatch : batchOf (onFds (fun f => { f with gate := .drop k (openRun s slot volume) }) s) slot = some r := h
  rw [openDrop]
  dsimp only
  rw [hbatch]
  rfl

theorem wasteRemainder_of_live {s : State} {slot : BatchSlot} {r : BatchRecord} (h : batchOf s slot = some r) :
    wasteRemainder slot s = openWaste slot r.remaining .remainder s := by
  rw [wasteRemainder, h]

section
variable {s : State} (hview : s.fds.view ≠ .halted) {k : Sector} {slot : BatchSlot} {volume : Nat} {remainder : Bool}
  (hplan : s.fds.plan = .asked k slot volume remainder)
include hview hplan

theorem takePlanAnswer_of_granted {a : PlanAnswer} (ha : a = .merge ∨ a = .new) : takePlanAnswer a s =
    if planHolds s slot then openDrop k slot volume (planOver s)
    else send (.placement k slot 0) (onFds (fun f => { f with plan := .ending }) s) := by
  refine (unlessHaltedFeed_of_live hview _).trans ?_
  rw [hplan]
  rcases ha with rfl | rfl <;> rfl

theorem takePlanAnswer_of_refused : takePlanAnswer .refused s =
    if remainder then
      if planHolds s slot then wasteRemainder slot (planOver s) else reportStopped (tryArbiter (planOver s))
    else reportStopped (planOver s) := by
  refine (unlessHaltedFeed_of_live hview _).trans ?_
  rw [hplan]

end

/-- Settles O52. -/
theorem planAnswersOpenTheGate : Obligations.PlanAnswersOpenTheGate := by
  intro s k slot volume remainder hacting hview hplan run holds no ended reports
  have hreports {t : State} (h : takePlanAnswer .refused (took no s) = reportStopped t) : reports t :=
    ⟨fun howed hgate hnone => leadsTo_of_taking (exec_pourPlanAnswer .refused s) hacting
      (h.trans (reportStopped_of_owed howed hgate hnone)),
    fun hnot => leadsTo_of_taking (exec_pourPlanAnswer .refused s) hacting (h.trans (reportStopped_of_not hnot))⟩
  have hrefused := takePlanAnswer_of_refused (s := took no s) hview hplan
  have hholds {c : Instr} {r : BatchRecord} (h : holds r) : planHolds (took c s) slot = true :=
    (planHolds_iff (took c s) slot).mpr ⟨r, h⟩
  have hnot {c : Instr} (h : ∀ r, ¬holds r) : ¬planHolds (took c s) slot = true := fun hp => by
    obtain ⟨r, hr⟩ := (planHolds_iff (took c s) slot).mp hp
    exact h r hr
  refine ⟨fun a r ha h => ?_, fun a ha h => ?_, fun hportion => ?_, fun r hremainder h => ?_, fun hremainder h => ?_⟩
  · obtain ⟨hgate, hrun, hstate, hpaused, hflow, hhead, hbatch, hlive⟩ := id h
    refine leadsTo_of_taking (exec_pourPlanAnswer a s) hacting
      ((takePlanAnswer_of_granted (s := took _ s) hview hplan ha).trans ((if_pos (hholds h)).trans
        (openDrop_of_live (s := planOver (took _ s)) hbatch k volume)))
  · exact leadsTo_of_taking (exec_pourPlanAnswer a s) hacting
      ((takePlanAnswer_of_granted (s := took _ s) hview hplan ha).trans (if_neg (hnot h)))
  · exact hreports (hrefused.trans (if_neg (Bool.eq_false_iff.mp hportion)))
  · obtain ⟨hgate, hrun, hstate, hpaused, hflow, hhead, hbatch, hlive⟩ := id h
    exact leadsTo_of_taking (exec_pourPlanAnswer .refused s) hacting (hrefused.trans ((if_pos hremainder).trans
      ((if_pos (hholds h)).trans (wasteRemainder_of_live (s := planOver (took _ s)) hbatch))))
  · exact hreports (hrefused.trans ((if_pos hremainder).trans (if_neg (hnot h))))

end Sys2Proof.Machine
end

section
/-! PROOF. The gates close, are cut, and the records follow (07 R131, R132, R135, R136). -/

namespace Sys2Proof.Machine

open Sys2Proof

/-! ## A record settled and a gate closed (07 R122, R123, R131, R132) -/

theorem settleBatch_eq (slot : BatchSlot) (r : BatchRecord) (s : State) : settleBatch slot r s = { s with
    fds := { s.fds with
      line := if r.remaining = 0 then s.fds.line.erase slot else s.fds.line
      records := put s.fds.records slot (if r.settledState = .spent then none else some { r with state := r.settledState }) }
    mail := s.mail ++ [.slotWriteRequest (.batch slot (if r.settledState = r.state then none else some r.settledState) r.report)] } := by
  unfold settleBatch
  dsimp only
  by_cases h : r.remaining = 0
  · rw [if_pos h, if_pos h]
    rfl
  · rw [if_neg h, if_neg h]
    rfl

theorem closeWaste_of_live {s : State} {g : GateRun} {r : BatchRecord} (h : batchOf s g.slot = some r) (cause : WasteCause)
    (volume : Nat) : closeWaste g cause volume s = settleBatch g.slot (r.waste volume cause) (idleGate s) := by
  rw [closeWaste, h]

theorem closeWaste_of_none {s : State} {g : GateRun} (h : batchOf s g.slot = none) (cause : WasteCause) (volume : Nat) :
    closeWaste g cause volume s = idleGate s := by
  rw [closeWaste, h]

section
variable {s : State} (hview : s.fds.view ≠ .halted)
include hview

theorem takeGateClose_of_open {k : Sector} {g : GateRun} (hgate : s.fds.gate = .drop k g) (hopen : g.passed = none) :
    takeGateClose s = closeDrop k g g.volume s := by
  refine (unlessHaltedFeed_of_live hview _).trans ?_
  rw [hgate]
  dsimp only
  rw [hopen]
  rfl

theorem takeGateClose_of_closed (h : ∀ k g, s.fds.gate = .drop k g → g.passed ≠ none) : takeGateClose s = s := by
  refine (unlessHaltedFeed_of_live hview _).trans ?_
  split
  · next k g hgate => exact if_neg fun hp => h k g hgate (Option.isNone_iff_eq_none.mp hp)
  · rfl

theorem takeWasteGateClose_of_open {g : GateRun} {cause : WasteCause} (hgate : s.fds.gate = .waste g cause) :
    takeWasteGateClose s = afterGate (closeWaste g cause g.volume s) := by
  refine (unlessHaltedFeed_of_live hview _).trans ?_
  rw [hgate]

theorem takeWasteGateClose_of_closed (h : ∀ g cause, s.fds.gate ≠ .waste g cause) : takeWasteGateClose s = s := by
  refine (unlessHaltedFeed_of_live hview _).trans ?_
  split
  · next g cause hgate => exact absurd hgate (h g cause)
  · rfl

theorem takePlacementAnswer_of_closed (a : PlacementResult) {k : Sector} {g : GateRun} {volume : Nat} (hgate : s.fds.gate = .drop k g)
    (hclosed : g.passed = some volume) {r : BatchRecord} (hbatch : batchOf s g.slot = some r) : takePlacementAnswer a s =
      afterGate (settleBatch g.slot (r.placed k volume (site s) a) (idleGate s)) := by
  refine (unlessHaltedFeed_of_live hview _).trans ?_
  rw [hgate]
  dsimp only
  rw [hclosed, hbatch]

theorem takePlacementAnswer_of_gone (a : PlacementResult) {k : Sector} {g : GateRun} {volume : Nat} (hgate : s.fds.gate = .drop k g)
    (hclosed : g.passed = some volume) (hbatch : batchOf s g.slot = none) : takePlacementAnswer a s =
      afterGate (idleGate s) := by
  refine (unlessHaltedFeed_of_live hview _).trans ?_
  rw [hgate]
  dsimp only
  rw [hclosed, hbatch]

theorem takePlacementAnswer_of_open (a : PlacementResult) {k : Sector} {g : GateRun} (hgate : s.fds.gate = .drop k g)
    (hopen : g.passed = none) : takePlacementAnswer a s = s := by
  refine (unlessHaltedFeed_of_live hview _).trans ?_
  rw [hgate]
  dsimp only
  rw [hopen]

variable (hgate : ∀ k g, s.fds.gate ≠ .drop k g)
include hgate

theorem takePlacementAnswer_of_ending (hplan : s.fds.plan = .ending) :
    takePlacementAnswer .nothingPlaced s = afterGate (planOver s) := by
  refine (unlessHaltedFeed_of_live hview _).trans ?_
  rw [hplan]
  split
  · next k g hdrop => exact absurd hdrop (hgate k g)
  · exact if_pos rfl
  · next hend => exact absurd rfl hend

theorem takePlacementAnswer_of_other {a : PlacementResult} (h : s.fds.plan ≠ .ending ∨ a ≠ .nothingPlaced) :
    takePlacementAnswer a s = s := by
  refine (unlessHaltedFeed_of_live hview _).trans ?_
  split
  · next k g hdrop => exact absurd hdrop (hgate k g)
  · next hplan _ => exact if_neg (h.resolve_left (not_not_intro hplan))
  · rfl

end

/-- Settles O53. -/
theorem gatesCloseAndTheRecordFollows : Obligations.GatesCloseAndTheRecordFollows := by
  constructor
  · intro s hacting hview c goesOn
    have hgoes {t : State} (h : takeWasteGateClose s = afterGate t) : goesOn t :=
      ⟨fun howed hgate hplan => leadsTo_of_whileActing (exec_wasteGateClose s) hacting
        (h.trans (reportStopped_of_owed howed hgate hplan)),
      fun hnot => leadsTo_of_whileActing (exec_wasteGateClose s) hacting (h.trans (reportStopped_of_not hnot))⟩
    refine ⟨fun k g hgate hopen => ?_, fun h => ?_, fun g cause hgate => ⟨fun r hbatch => hgoes ?_, fun hbatch => hgoes ?_⟩,
      fun h => ?_⟩
    · exact leadsTo_of_whileActing (exec_gateClose s) hacting (takeGateClose_of_open hview hgate hopen)
    · exact leadsTo_of_whileActing (exec_gateClose s) hacting (takeGateClose_of_closed hview h)
    · rw [takeWasteGateClose_of_open hview hgate, closeWaste_of_live hbatch, settleBatch_eq]
      rfl
    · rw [takeWasteGateClose_of_open hview hgate, closeWaste_of_none hbatch]
      rfl
    · exact leadsTo_of_whileActing (exec_wasteGateClose s) hacting (takeWasteGateClose_of_closed hview h)
  · intro s a hacting hview c goesOn
    have hlead {t : State} (h : takePlacementAnswer a (took c s) = t) : leadsTo c s t :=
      leadsTo_of_taking (exec_placementAnswer a s) hacting h
    have hgoes {t : State} (h : takePlacementAnswer a (took c s) = afterGate t) : goesOn t :=
      ⟨fun howed hgate hplan => hlead (h.trans (reportStopped_of_owed howed hgate hplan)),
      fun hnot => hlead (h.trans (reportStopped_of_not hnot))⟩
    refine ⟨fun k g volume hgate hclosed => ⟨fun r hbatch => ?_, fun hbatch => hgoes
      (takePlacementAnswer_of_gone (s := took c s) hview a hgate hclosed hbatch)⟩, fun k g hgate hopen =>
      hlead (takePlacementAnswer_of_open (s := took c s) hview a hgate hopen), fun hgate => ⟨fun hplan ha => hgoes ?_, fun h =>
      hlead (takePlacementAnswer_of_other (s := took c s) hview hgate h)⟩⟩
    · intro kept
      have hkept {r' : BatchRecord} (h : r.placed k volume s.tmb.siteSeconds a = r') (hstate : r'.state = r.state) : kept r' := by
        refine hgoes ((takePlacementAnswer_of_closed (s := took c s) hview a hgate hclosed hbatch).trans ?_)
        rw [settleBatch_eq, show r.placed k volume (site (took c s)) a = r' from h, hstate]
        rfl
      refine ⟨fun i ha => hkept ?_ rfl, fun i ha => hkept ?_ rfl, fun ha => hkept ?_ rfl⟩
      · rw [ha]
        rfl
      · rw [ha]
        rfl
      · rw [ha]
        rfl
    · rw [ha]
      exact takePlacementAnswer_of_ending (s := took c s) hview hgate hplan

end Sys2Proof.Machine
end

section
/-! PROOF. Feed stops and pauses, cancels and exits (07 R133 to R136, R139, R141; 10 R178). -/

namespace Sys2Proof.Machine

open Sys2Proof

/-! ## A cut (07 R135) -/

section
variable {s : State}

theorem cutGate_of_idle (h : s.fds.gate = .idle) : cutGate s = s := by
  rw [cutGate, h]

theorem cutGate_of_open {k : Sector} {g : GateRun} (h : s.fds.gate = .drop k g) (hopen : g.passed = none) :
    cutGate s = closeDrop k (g.withCut (cutVolume s g)) (cutVolume s g) s := by
  rw [cutGate, h]
  exact if_pos (Option.isNone_iff_eq_none.mpr hopen)

theorem cutGate_of_closed {k : Sector} {g : GateRun} (h : s.fds.gate = .drop k g) (hclosed : g.passed ≠ none) : cutGate s = s := by
  rw [cutGate, h]
  exact if_neg fun hp => hclosed (Option.isNone_iff_eq_none.mp hp)

theorem cutGate_of_waste {g : GateRun} {cause : WasteCause} (h : s.fds.gate = .waste g cause) :
    cutGate s = closeWaste g cause (cutVolume s g) s := by
  rw [cutGate, h]

end

/-- A report that is owed once the gate is IDLE. -/
theorem reportStopped_of_idle {s : State} (howed : s.fds.owesReport = true) (hgate : s.fds.gate = .idle) :
    reportStopped s = { s with
      fds := { s.fds with owesReport := decide (s.fds.plan ≠ .none) }
      mail := s.mail ++ (if s.fds.plan = .none then [.feedStopped] else []) } := by
  by_cases hplan : s.fds.plan = .none
  · rw [reportStopped_of_owed howed hgate hplan, if_pos hplan, decide_eq_false (not_not_intro hplan)]
  · rw [reportStopped_of_not (.inr (.inr hplan)), if_neg hplan, decide_eq_true hplan, List.append_nil, ← howed]

/-- The distributor as it is stopped: its view, and the report owed. -/
def feedStopping (view : PartState) (s : State) : State := { s with fds := { s.fds with view := view, owesReport := true } }

/-- Settles O54. -/
theorem feedStopsPausesAndGoesOn : Obligations.FeedStopsPausesAndGoesOn := by
  intro s flow hacting hview stopped ran reported
  have hreported {c : Instr} {view : PartState}
      (h : ∀ t, reportStopped (cutGate (feedStopping view (took c s))) = t → leadsTo c s t) : reported c view := by
    refine ⟨fun hgate hplan => h _ ?_, fun hgate hplan => h _ ?_, fun k g hgate hopen => h _ ?_, fun k g hgate hclosed => h _ ?_,
      fun g cause r hgate hbatch => h _ ?_, fun g cause hgate hbatch => h _ ?_⟩
    · rw [cutGate_of_idle (s := feedStopping view (took c s)) hgate,
        reportStopped_of_owed (s := feedStopping view (took c s)) rfl hgate hplan]
      rfl
    · rw [cutGate_of_idle (s := feedStopping view (took c s)) hgate,
        reportStopped_of_not (s := feedStopping view (took c s)) (.inr (.inr hplan))]
      rfl
    · rw [cutGate_of_open (s := feedStopping view (took c s)) hgate hopen]
      exact reportStopped_of_not (.inr (.inl Gate.noConfusion))
    · have hbusy : (feedStopping view (took c s)).fds.gate ≠ .idle := fun he => Gate.noConfusion (hgate.symm.trans he)
      rw [cutGate_of_closed (s := feedStopping view (took c s)) hgate hclosed, reportStopped_of_not (.inr (.inl hbusy))]
      rfl
    · rw [cutGate_of_waste (s := feedStopping view (took c s)) hgate,
        closeWaste_of_live (s := feedStopping view (took c s)) hbatch, settleBatch_eq, reportStopped_of_idle rfl rfl]
      rfl
    · rw [cutGate_of_waste (s := feedStopping view (took c s)) hgate,
        closeWaste_of_none (s := feedStopping view (took c s)) hbatch, reportStopped_of_idle rfl rfl]
      rfl
  refine ⟨hreported fun t h => ?_, hreported fun t h => ?_, ?_, ?_⟩
  · exact leadsTo_of_taking (exec_feedStop s) hacting ((unlessHaltedFeed_of_live (s := took _ s) hview _).trans h)
  · exact leadsTo_of_taking (exec_feedPowerDown s) hacting ((unlessHaltedFeed_of_live (s := took _ s) hview _).trans h)
  · exact leadsTo_of_taking (exec_feedPauseRequest s) hacting (unlessHaltedFeed_of_live (s := took _ s) hview _)
  · exact leadsTo_of_taking (exec_flowDirective flow s) hacting (unlessHaltedFeed_of_live (s := took _ s) hview _)

end Sys2Proof.Machine
end

section
/-! PROOF. Cancels and exits (07 R139, R141). -/

namespace Sys2Proof.Machine

open Sys2Proof

theorem batchSlotOf_of_eq {w : Word} {slot : BatchSlot} (h : slot.1 = w.toNat) : batchSlotOf w = some slot := by
  have hw : w.toNat < 48 := h ▸ slot.2
  rw [batchSlotOf, dif_pos hw]
  exact congrArg some (Fin.ext h.symm)

theorem batchSlotOf_of_ge {w : Word} (h : 48 ≤ w.toNat) : batchSlotOf w = none := dif_neg (Nat.not_lt.mpr h)

/-! ## Cancels (07 R139) -/

section
variable {s : State} (hview : s.fds.view ≠ .halted) {order : OrderSlot} {batch : Word} {image : BatchState}
include hview

theorem takeCancel_of_no_slot (h : 48 ≤ batch.toNat) :
    takeCancel order batch image s = answerOrder order .badArgument s := by
  refine (unlessHaltedFeed_of_live hview _).trans ?_
  rw [batchSlotOf_of_ge h]

variable {slot : BatchSlot} (hslot : slot.1 = batch.toNat)
include hslot

theorem takeCancel_of_none (h : batchOf s slot = none) : takeCancel order batch image s =
    if image = .posted then answerOrder order .done (refuseBatch slot .cancelled s)
    else answerOrder order .notCancellable s := by
  refine (unlessHaltedFeed_of_live hview _).trans ?_
  rw [batchSlotOf_of_eq hslot]
  dsimp only
  rw [h]

theorem takeCancel_of_live {r : BatchRecord} (h : batchOf s slot = some r) :
    takeCancel order batch image s = cancelLive order slot r s := by
  refine (unlessHaltedFeed_of_live hview _).trans ?_
  rw [batchSlotOf_of_eq hslot]
  dsimp only
  rw [h]

end

section
variable {order : OrderSlot} {slot : BatchSlot} {r : BatchRecord} {s : State}

theorem cancelLive_of_lined (h : r.state = .lined) : cancelLive order slot r s =
    when (decide (s.fds.line.head? = some slot)) tryArbiter (answerOrder order .done (markToWaste slot r s)) := by
  rw [cancelLive, h]

theorem cancelLive_of_open (h : r.state = .pouring) {k : Sector} {g : GateRun} (hgate : s.fds.gate = .drop k g)
    (hslot : g.slot = slot) (hopen : g.passed = none) : cancelLive order slot r s =
      send (.orderOutcome order (.outcome .done (natWord (cutVolume s g)))) (cutGate (markToWaste slot r s)) := by
  have hdrop : openDropOf s slot = some (cutVolume s g) := by
    rw [openDropOf, hgate]
    exact if_pos ⟨hslot, hopen⟩
  rw [cancelLive, h]
  dsimp only
  rw [hdrop]

theorem cancelLive_of_closed (h : r.state = .pouring) (hclosed : ∀ k g, s.fds.gate = .drop k g → g.slot = slot → g.passed ≠ none) :
    cancelLive order slot r s = answerOrder order .done (markToWaste slot r s) := by
  have hdrop : openDropOf s slot = none := by
    rw [openDropOf]
    split
    · next k g hgate => exact if_neg fun hp => hclosed k g hgate hp.1 hp.2
    · rfl
  rw [cancelLive, h]
  dsimp only
  rw [hdrop]

theorem cancelLive_of_other (hlined : r.state ≠ .lined) (hpouring : r.state ≠ .pouring) :
    cancelLive order slot r s = answerOrder order .notCancellable s := by
  rw [cancelLive]
  split
  · next h => exact absurd h hlined
  · next h => exact absurd h hpouring
  · rfl

end

/-! ## Exits (07 R141) -/

theorem standing_eq_false_iff (r : BatchRecord) : r.standing = false ↔ ∀ e ∈ r.entries, e.exit ≠ none := by
  simp [BatchRecord.standing]

section
variable {s : State} (hview : s.fds.view ≠ .halted) {slot : BatchSlot} {i : PortionIndex} (time : Word)
include hview

theorem takeExitNotice_of_standing {r : BatchRecord} {e : PortionEntry} (hbatch : batchOf s slot = some r)
    (hentry : r.entries[i.1]? = some e) (hexit : e.exit = none) :
    takeExitNotice slot i time s = recordExit slot (r.withExit i time) s := by
  refine (unlessHaltedFeed_of_live hview _).trans ?_
  rw [hbatch]
  refine if_pos ?_
  rw [awaitsExit, hentry]
  exact Option.isNone_iff_eq_none.mpr hexit

theorem takeExitNotice_of_other
    (h : batchOf s slot = none ∨ ∃ r, batchOf s slot = some r ∧ ∀ e, r.entries[i.1]? = some e → e.exit ≠ none) :
    takeExitNotice slot i time s = s := by
  refine (unlessHaltedFeed_of_live hview _).trans ?_
  rcases h with hbatch | ⟨r, hbatch, hexited⟩
  · rw [hbatch]
  · rw [hbatch]
    refine if_neg fun hawaits => ?_
    rw [awaitsExit] at hawaits
    split at hawaits
    · next e hentry => exact hexited e hentry (Option.isNone_iff_eq_none.mp hawaits)
    · exact Bool.false_ne_true hawaits

end

/-- Settles O55. -/
theorem cancelsAndExitsSettleABatch : Obligations.CancelsAndExitsSettleABatch := by
  constructor
  · intro s order batch image hacting hview c answered outcome ran
    have hlead {t : State} (h : takeCancel order batch image (took c s) = t) : leadsTo c s t :=
      leadsTo_of_taking (exec_cancelBatch order batch image s) hacting h
    refine ⟨fun h => hlead (takeCancel_of_no_slot (s := took c s) hview h), fun slot hslot => ⟨fun hnone hposted => hlead ?_,
      fun hnone hother => hlead ?_, ?_⟩⟩
    · rw [takeCancel_of_none (s := took c s) hview hslot hnone, if_pos hposted]
      simp only [answerOrder, refuseBatch, writeSlot, send, List.append_assoc]
      rfl
    · rw [takeCancel_of_none (s := took c s) hview hslot hnone, if_neg hother]
      rfl
    intro r hbatch marked write
    have hlive {t : State} (h : cancelLive order slot r (took c s) = t) : leadsTo c s t :=
      hlead ((takeCancel_of_live (s := took c s) hview hslot hbatch).trans h)
    have hmarked : answerOrder order .done (markToWaste slot r (took c s)) =
        { took c s with fds := marked, mail := (s.mail.erase c) ++ [write, outcome .done 0] } := by
      simp only [answerOrder, markToWaste, writeSlot, send, List.append_assoc]
      rfl
    refine ⟨fun hlined hhead => hlive ?_, fun hlined hhead => hlive ?_, fun hpouring k g hgate hof hopen => hlive ?_,
      fun hpouring hclosed => hlive ?_, fun hlined hpouring => hlive (cancelLive_of_other hlined hpouring)⟩
    · rw [cancelLive_of_lined hlined, hmarked, decide_eq_false (p := (took c s).fds.line.head? = some slot) hhead]
      rfl
    · rw [cancelLive_of_lined hlined, hmarked, decide_eq_true (p := (took c s).fds.line.head? = some slot) hhead]
      rfl
    · rw [cancelLive_of_open (s := took c s) hpouring hgate hof hopen,
        cutGate_of_open (s := markToWaste slot r (took c s)) hgate hopen]
      subst hof
      have happend (m : List Instr) (a b d : Instr) : m ++ [a, b, d] = m ++ [a] ++ [b] ++ [d] := by simp
      rw [happend]
      rfl
    · rw [cancelLive_of_closed (s := took c s) hpouring hclosed, hmarked]
  · intro s slot i time hacting hview c
    have hlead {t : State} (h : takeExitNotice slot i time (took c s) = t) : leadsTo c s t :=
      leadsTo_of_taking (exec_exitNotice slot i time s) hacting h
    refine ⟨?_, fun h => hlead (takeExitNotice_of_other (s := took c s) hview time h)⟩
    intro r e hbatch hentry hexit r' spent
    have htakes := takeExitNotice_of_standing (s := took c s) hview time hbatch hentry hexit
    have hspent : (r' : BatchRecord).remaining = 0 ∧ r'.standing = false ↔ spent := by
      rw [standing_eq_false_iff]
    exact ⟨fun h => hlead (htakes.trans (if_pos (hspent.mpr h))), fun h => hlead (htakes.trans (if_neg (mt hspent.mp h)))⟩

end Sys2Proof.Machine
end

section
/-! PROOF. Handovers of batches (07 R120, R121; 08 R149). -/

namespace Sys2Proof.Machine

open Sys2Proof

/-! ## The next candidate (08 R149) -/

theorem stillPosted_iff (s : State) (slot : BatchSlot) : stillPosted s slot = true ↔ s.exc.batchImages[slot] = .posted
    ∧ ∀ state report, .slotWriteRequest (.batch slot (some state) report) ∉ s.mail := by
  have hwaits : writeWaits s slot = true ↔ ∃ state report, .slotWriteRequest (.batch slot (some state) report) ∈ s.mail := by
    rw [writeWaits, List.any_eq_true]
    constructor
    · rintro ⟨c, hc, hp⟩
      split at hp
      · next other state report => exact ⟨state, report, (of_decide_eq_true hp) ▸ hc⟩
      · exact absurd hp Bool.false_ne_true
    · rintro ⟨state, report, hc⟩
      exact ⟨_, hc, decide_eq_true rfl⟩
  rw [stillPosted, Bool.and_eq_true, decide_eq_true_iff, Bool.not_eq_true', ← Bool.not_eq_true, hwaits]
  push Not
  rfl

theorem readHalf_eq (m : Memory) (o : Nat) : readHalf m o = (readWord m o).setWidth 16 := by
  refine BitVec.eq_of_getLsbD_eq fun i hi => ?_
  rw [BitVec.getLsbD_setWidth, readWord, BitVec.getLsbD_append, if_pos hi, decide_eq_true hi, Bool.true_and]

/-- The batch request in a slot, as the host wrote it. -/
theorem readRequest_eq (m : Memory) (slot : BatchSlot) : readRequest m slot =
    let word (o : Nat) : Word := readWord m (0x800 + 256 * slot.1 + o)
    ⟨word 0x04, word 0x08, word 0x0C, word 0x10, (word 0x14).setWidth 16⟩ := by
  rw [readRequest, readHalf_eq]
  rfl

theorem handNext_of_none {s : State} (h : ∀ x ∈ s.exc.candidates, stillPosted s x = false) :
    handNext s = { s with exc := { s.exc with candidates := [] } } := by
  have hdrop : s.exc.candidates.dropWhile (fun slot => !stillPosted s slot) = [] := by
    rw [List.dropWhile_eq_nil_iff]
    intro x hx
    rw [h x hx]
    rfl
  rw [handNext, hdrop]
  rfl

theorem handNext_of_split {s : State} {before rest : List BatchSlot} {slot : BatchSlot}
    (hsplit : s.exc.candidates = before ++ slot :: rest) (hbefore : ∀ x ∈ before, stillPosted s x = false)
    (hslot : stillPosted s slot = true) : handNext s = { s with
      exc := { s.exc with candidates := rest, batchHanded := put s.exc.batchHanded slot true }
      mail := s.mail ++ [.batchHandover slot (readRequest s.window slot)] } := by
  have hdrop : s.exc.candidates.dropWhile (fun slot => !stillPosted s slot) = slot :: rest := by
    rw [hsplit, List.dropWhile_append_of_pos]
    · rw [List.dropWhile_cons, hslot]
      rfl
    · intro x hx
      rw [hbefore x hx]
      rfl
  rw [handNext, hdrop]
  rfl

/-! ## The checks of a batch (07 R120) -/

theorem mixOf_of_eq {w : Word} {m : MixClass} (h : m.1 = w.toNat) : mixOf w = some m := by
  have hw : w.toNat < 4 := h ▸ m.2
  rw [mixOf, dif_pos hw]
  exact congrArg some (Fin.ext h.symm)

theorem mixOf_of_ge {w : Word} (h : 4 ≤ w.toNat) : mixOf w = none := dif_neg (Nat.not_lt.mpr h)

theorem namesUsed_iff (s : State) (destination : BitVec 16) : namesUsed s destination = true ↔
    ∃ k, used s k = true ∧ destination.getLsbD k.1 = true := by
  rw [namesUsed, List.any_eq_true]
  exact exists_congr fun k => and_congr_left' (mem_usedSectors s k)

section
variable {s : State} {q : BatchRequest}

theorem checkBatch_of_stale (h : ¬s.fds.lastPost.toNat < q.postNumber.toNat) : checkBatch s q = .error .stale :=
  if_pos (Nat.not_lt.mp h)

variable (hfresh : s.fds.lastPost.toNat < q.postNumber.toNat)
include hfresh

theorem checkBatch_of_volume (h : ¬(50 ≤ q.volume.toNat ∧ q.volume.toNat ≤ 12000)) : checkBatch s q = .error .badVolume :=
  (if_neg (Nat.not_le.mpr hfresh)).trans (if_pos (by omega))

variable (hvolume : 50 ≤ q.volume.toNat ∧ q.volume.toNat ≤ 12000)
include hvolume

theorem checkBatch_of_age (h : ¬q.ageAtPost.toNat ≤ 7200) : checkBatch s q = .error .badAge :=
  (if_neg (Nat.not_le.mpr hfresh)).trans ((if_neg (by omega)).trans (if_pos (by omega)))

variable (hage : q.ageAtPost.toNat ≤ 7200)
include hage

theorem checkBatch_of_good : checkBatch s q = match mixOf q.mixClass with
    | none => .error .badMix
    | some c =>
      if !namesUsed s q.destination then .error .badMask
      else if (s.psv.rig.mixes[c]).maxPlacement ≤ q.ageAtPost.toNat then .error .tooOld
      else .ok c :=
  (if_neg (Nat.not_le.mpr hfresh)).trans ((if_neg (by omega)).trans (if_neg (by omega)))

theorem checkBatch_of_mix (h : 4 ≤ q.mixClass.toNat) : checkBatch s q = .error .badMix := by
  rw [checkBatch_of_good hfresh hvolume hage, mixOf_of_ge h]

variable {m : MixClass} (hmix : m.1 = q.mixClass.toNat)
include hmix

theorem checkBatch_of_mask (h : ¬∃ k, used s k = true ∧ q.destination.getLsbD k.1 = true) :
    checkBatch s q = .error .badMask := by
  rw [checkBatch_of_good hfresh hvolume hage, mixOf_of_eq hmix]
  refine if_pos ?_
  rw [Bool.eq_false_iff.mpr (mt (namesUsed_iff s q.destination).mp h)]
  rfl

theorem checkBatch_of_named (h : ∃ k, used s k = true ∧ q.destination.getLsbD k.1 = true) : checkBatch s q =
    if (s.psv.rig.mixes[m]).maxPlacement ≤ q.ageAtPost.toNat then .error .tooOld else .ok m := by
  rw [checkBatch_of_good hfresh hvolume hage, mixOf_of_eq hmix]
  refine if_neg ?_
  rw [(namesUsed_iff s q.destination).mpr h]
  exact Bool.false_ne_true

end

/-! ## A handover taken (08 R149) -/

section
variable {s : State} (hview : s.fds.view ≠ .halted) {slot : BatchSlot} (q : BatchRequest)
include hview

theorem takeHandover_of_passed (h : stillPosted s slot = false) : takeHandover slot q s =
    handNext (onExc (fun e => { e with batchHanded := put e.batchHanded slot false }) s) := by
  refine (unlessHaltedFeed_of_live hview _).trans (if_pos ?_)
  rw [h]
  rfl

variable (hposted : stillPosted s slot = true)
include hposted

theorem takeHandover_of_full (h : 4 ≤ s.fds.line.length) : takeHandover slot q s =
    onExc (fun e => { e with candidates := [], batchHanded := put e.batchHanded slot false }) s := by
  refine (unlessHaltedFeed_of_live hview _).trans ((if_neg ?_).trans (if_pos (decide_eq_true h)))
  rw [hposted]
  exact Bool.false_ne_true

theorem takeHandover_of_room (h : s.fds.line.length < 4) : takeHandover slot q s = handNext (judgeBatch slot q s) := by
  refine (unlessHaltedFeed_of_live hview _).trans ((if_neg ?_).trans (if_neg fun hp => ?_))
  · rw [hposted]
    exact Bool.false_ne_true
  · exact Nat.not_le.mpr h (of_decide_eq_true hp)

end

/-- Settles O56. -/
theorem handoversTakeOrRefuseABatch : Obligations.HandoversTakeOrRefuseABatch := by
  intro s slot q hacting hview c ready goesOn refused fresh volumeOk ageOk
  have hlead {t : State} (h : takeHandover slot q (took c s) = t) : leadsTo c s t :=
    leadsTo_of_taking (exec_batchHandover slot q s) hacting h
  have hready (w : State) (x : BatchSlot) : ready w x ↔ stillPosted w x = true := (stillPosted_iff w x).symm
  have hpassed {w : State} {x : BatchSlot} (h : ¬ready w x) : stillPosted w x = false :=
    Bool.eq_false_iff.mpr (mt (hready w x).mpr h)
  have hgoes {w : State} (h : takeHandover slot q (took c s) = handNext w) : goesOn w :=
    ⟨_, hlead h, fun hnone => handNext_of_none fun x hx => hpassed (hnone x hx),
      fun before x rest hsplit hbefore hx => by
        rw [handNext_of_split hsplit (fun y hy => hpassed (hbefore y hy)) ((hready w x).mp hx), readRequest_eq]⟩
  refine ⟨fun hnot => hgoes (takeHandover_of_passed (s := took c s) hview q (hpassed hnot)), fun hposted hfull =>
    hlead (takeHandover_of_full (s := took c s) hview q ((hready _ _).mp hposted) hfull), fun hposted hroom => ?_⟩
  have htakes := takeHandover_of_room (s := took c s) hview q ((hready _ _).mp hposted) hroom
  have hrefused {reason : Reason} (h : checkBatch (took c s) q = .error reason) : refused reason := by
    refine hgoes (htakes.trans ?_)
    rw [judgeBatch, h]
    rfl
  refine ⟨fun hstale => hrefused (checkBatch_of_stale (s := took c s) hstale), fun hfresh hvolume =>
    hrefused (checkBatch_of_volume (s := took c s) hfresh hvolume), fun hfresh hvolume hage =>
    hrefused (checkBatch_of_age (s := took c s) hfresh hvolume hage), fun hfresh hvolume hage hmix =>
    hrefused (checkBatch_of_mix (s := took c s) hfresh hvolume hage hmix), ?_⟩
  intro m hfresh hvolume hage hmix named
  refine ⟨fun hnot => hrefused (checkBatch_of_mask (s := took c s) hfresh hvolume hage hmix hnot), fun hnamed hold =>
    hrefused ((checkBatch_of_named (s := took c s) hfresh hvolume hage hmix hnamed).trans (if_pos hold)),
    fun hnamed hyoung => hgoes (htakes.trans ?_)⟩
  rw [judgeBatch, checkBatch_of_named (s := took c s) hfresh hvolume hage hmix hnamed,
    if_neg (c := (took c s).psv.rig.mixes[m].maxPlacement ≤ q.ageAtPost.toNat) (Nat.not_le.mpr hyoung)]
  rfl

end Sys2Proof.Machine
end

section
/-! PROOF. The boards compared with their images (08 R145 to R147). -/

namespace Sys2Proof.Machine

open Sys2Proof

/-! ## A board walked -/

/-- What a misuse changes of the controller. -/
structure MisuseTrace where
  /-- The misuse record. -/
  record : Option (Board × Nat)
  /-- The misuse event. -/
  event : Bool
  /-- The attention sources. -/
  attn : BitVec 6

/-- The trace of misuses in a state. -/
def misuseTrace (s : State) : MisuseTrace := ⟨s.exc.misuse, s.exc.misuseEvent, s.exc.attn⟩

/-- A misuse added. -/
def MisuseTrace.add (t : MisuseTrace) (board : Board) (index : Nat) : MisuseTrace :=
  ⟨some (board, index), true, if t.event = true then t.attn else t.attn ||| 4#6⟩

/-- An operation that compares one slot of a board: what it finds there decides what it leaves of the slot, and it leaves the
other slots alone. -/
structure Compares {ι κ : Type} (op : ι → State → State) (get : State → ι → κ) (misused : κ → Prop) (left : κ → κ)
    (entry : ι → Board × Nat) : Prop where
  canonical : ∀ i s, windowCanonical s → windowCanonical (op i s)
  same : ∀ i s, windowCanonical s → get (op i s) i = left (get s i)
  other : ∀ i j s, windowCanonical s → i ≠ j → get (op i s) j = get s j
  quiet : ∀ i s, ¬misused (get s i) → misuseTrace (op i s) = misuseTrace s
  found : ∀ i s, misused (get s i) → misuseTrace (op i s) = (misuseTrace s).add (entry i).1 (entry i).2

/-- What such operations leave of the slots of a list. -/
structure Compared {ι κ : Type} (get : State → ι → κ) (misused : κ → Prop) (left : κ → κ) (entry : ι → Board × Nat)
    (is : List ι) (s t : State) : Prop where
  canonical : windowCanonical t
  done : ∀ i ∈ is, get t i = left (get s i)
  rest : ∀ i, i ∉ is → get t i = get s i
  quiet : (∀ i ∈ is, ¬misused (get s i)) → misuseTrace t = misuseTrace s
  last : ∀ before i after, is = before ++ i :: after → misused (get s i) → (∀ j ∈ after, ¬misused (get s j)) →
    t.exc.misuse = some (entry i)
  event : t.exc.misuseEvent = true ↔ s.exc.misuseEvent = true ∨ ∃ i ∈ is, misused (get s i)
  flag : (s.exc.misuseEvent = true → s.exc.attn.getLsbD 2 = true) → t.exc.misuseEvent = true → t.exc.attn.getLsbD 2 = true

namespace Compares

variable {ι κ : Type} {op : ι → State → State} {get : State → ι → κ} {misused : κ → Prop} {left : κ → κ}
  {entry : ι → Board × Nat} (h : Compares op get misused left entry)
include h

theorem event_op (i : ι) (s : State) :
    (op i s).exc.misuseEvent = true ↔ s.exc.misuseEvent = true ∨ misused (get s i) := by
  by_cases hm : misused (get s i)
  · exact iff_of_true (congrArg MisuseTrace.event (h.found i s hm)) (.inr hm)
  · rw [show (op i s).exc.misuseEvent = s.exc.misuseEvent from congrArg MisuseTrace.event (h.quiet i s hm)]
    exact (or_iff_left hm).symm

theorem flag_op (i : ι) (s : State) (hs : s.exc.misuseEvent = true → s.exc.attn.getLsbD 2 = true)
    (ht : (op i s).exc.misuseEvent = true) : (op i s).exc.attn.getLsbD 2 = true := by
  by_cases hm : misused (get s i)
  · have hattn : (op i s).exc.attn = if s.exc.misuseEvent = true then s.exc.attn else s.exc.attn ||| 4#6 :=
      congrArg MisuseTrace.attn (h.found i s hm)
    rw [hattn]
    split
    · next he => exact hs he
    · rw [BitVec.getLsbD_or]
      exact Bool.or_true _
  · have hquiet := h.quiet i s hm
    have hevent : (op i s).exc.misuseEvent = s.exc.misuseEvent := congrArg MisuseTrace.event hquiet
    have hattn : (op i s).exc.attn = s.exc.attn := congrArg MisuseTrace.attn hquiet
    rw [hattn]
    exact hs (hevent ▸ ht)

theorem compared : ∀ (is : List ι) (s : State), is.Nodup → windowCanonical s →
    Compared get misused left entry is s (is.foldl (fun t i => op i t) s)
  | [], s, _, hs => ⟨hs, nofun, fun _ _ => rfl, fun _ => rfl, fun _ _ _ he => absurd he (by simp), by simp, fun hf => hf⟩
  | i :: is, s, hnodup, hs => by
    obtain ⟨hi, his⟩ := List.nodup_cons.mp hnodup
    obtain ⟨hcanonical, hdone, hrest, hquiet, hlast, hevent, hflag⟩ := compared is (op i s) his (h.canonical i s hs)
    have hne {j : ι} (hj : j ∈ is) : i ≠ j := fun he => hi (he ▸ hj)
    have hget {j : ι} (hj : j ∈ is) : get (op i s) j = get s j := h.other i j s hs (hne hj)
    refine ⟨hcanonical, fun j hj => ?_, fun j hj => ?_, fun hnone => ?_, fun before j after hsplit hj hafter => ?_, ?_,
      fun hf => hflag (h.flag_op i s hf)⟩
    · obtain rfl | hj := List.mem_cons.mp hj
      · exact (hrest j hi).trans (h.same j s hs)
      · exact (hdone j hj).trans (by rw [hget hj])
    · obtain ⟨hij, hj⟩ := not_or.mp (mt List.mem_cons.mpr hj)
      exact (hrest j hj).trans (h.other i j s hs (Ne.symm hij))
    · rw [← h.quiet i s (hnone i List.mem_cons_self)]
      refine hquiet fun j hj => ?_
      rw [hget hj]
      exact hnone j (List.mem_cons_of_mem i hj)
    · cases before with
      | nil =>
        obtain ⟨rfl, rfl⟩ := List.cons.inj hsplit
        have hstill : misuseTrace (is.foldl (fun t i => op i t) (op i s)) = misuseTrace (op i s) := hquiet fun j hj => by
          rw [hget hj]
          exact hafter j hj
        have hrecord := congrArg MisuseTrace.record (hstill.trans (h.found i s hj))
        exact hrecord
      | cons k before =>
        obtain ⟨rfl, rfl⟩ := List.cons.inj hsplit
        refine hlast before j after rfl ?_ fun x hx => ?_
        · rw [hget (List.mem_append_right _ List.mem_cons_self)]
          exact hj
        · rw [hget (List.mem_append_right _ (List.mem_cons_of_mem j hx))]
          exact hafter x hx
    · have hsome : (∃ j ∈ is, misused (get (op i s) j)) ↔ ∃ j ∈ is, misused (get s j) :=
        exists_congr fun j => and_congr_right fun hj => by rw [hget hj]
      refine hevent.trans ?_
      rw [h.event_op i s, hsome, List.exists_mem_cons_iff, or_assoc]

end Compares

/-- What each operation keeps of a canonical window's state, a walk keeps. -/
theorem foldl_keeps {ι κ : Type} {op : ι → State → State} {get : State → κ}
    (hcanonical : ∀ i s, windowCanonical s → windowCanonical (op i s)) (h : ∀ i s, windowCanonical s → get (op i s) = get s)
    (is : List ι) (s : State) (hs : windowCanonical s) : get (is.foldl (fun t i => op i t) s) = get s := by
  induction is generalizing s with
  | nil => rfl
  | cons i is ih => exact (ih (op i s) (hcanonical i s hs)).trans (h i s hs)

theorem finRange_split {n : Nat} (i : Fin n) : ∃ before after, List.finRange n = before ++ i :: after
    ∧ ∀ j ∈ after, i < j := by
  obtain ⟨before, after, hsplit⟩ := List.append_of_mem (List.mem_finRange i)
  refine ⟨before, after, hsplit, ?_⟩
  have hsorted := List.pairwise_lt_finRange n
  rw [hsplit, List.pairwise_append, List.pairwise_cons] at hsorted
  obtain ⟨-, ⟨hafter, -⟩, -⟩ := hsorted
  exact hafter

/-! ## What is found (08 R146) -/

section
variable {w : Word}

theorem word_cases (w : Word) : w = 0 ∨ w = 1 ∨ (w ≠ 0 ∧ w ≠ 1) := by tauto

theorem toNat_ne_zero (h : w ≠ 0) : w.toNat ≠ 0 := fun he => h (BitVec.eq_of_toNat_eq he)

theorem toNat_ne_one (h : w ≠ 1) : w.toNat ≠ 1 := fun he => h (BitVec.eq_of_toNat_eq he)

theorem batchStateOf_of_other (h0 : w ≠ 0) (h1 : w ≠ 1) : batchStateOf w ≠ some .posted ∧ batchStateOf w ≠ some .free := by
  have h0 := toNat_ne_zero h0
  have h1 := toNat_ne_one h1
  unfold batchStateOf
  split <;> simp_all

theorem orderStateOf_of_other (h0 : w ≠ 0) (h1 : w ≠ 1) : orderStateOf w ≠ some .posted ∧ orderStateOf w ≠ some .free := by
  have h0 := toNat_ne_zero h0
  have h1 := toNat_ne_one h1
  unfold orderStateOf
  split <;> simp_all

end

/-- The host has posted a batch slot. -/
def batchPosted (x : BatchState × Word) : Prop := x.2 = 1 ∧ (x.1 = .free ∨ x.1 = .spent ∨ x.1 = .refused)

/-- The host has freed a batch slot. -/
def batchFreed (x : BatchState × Word) : Prop := x.2 = 0 ∧ (x.1 = .spent ∨ x.1 = .refused)

/-- The host has misused a batch slot. -/
def batchMisused (x : BatchState × Word) : Prop := x.2 ≠ batchStateCode x.1 ∧ ¬batchPosted x ∧ ¬batchFreed x

theorem batchFinding_spec (x : BatchState × Word) :
    (batchFinding x.1 x.2 = .posted ↔ batchPosted x) ∧ (batchFinding x.1 x.2 = .returned ↔ batchFreed x)
      ∧ (batchFinding x.1 x.2 = .misuse ↔ batchMisused x) ∧ (batchFinding x.1 x.2 = .same ↔ x.2 = batchStateCode x.1) := by
  obtain ⟨image, w⟩ := x
  rcases word_cases w with rfl | rfl | ⟨h0, h1⟩
  · cases image <;> simp [batchFinding, batchPosted, batchFreed, batchMisused, batchStateCode, batchStateOf, batchTerminal]
  · cases image <;> simp [batchFinding, batchPosted, batchFreed, batchMisused, batchStateCode, batchStateOf, batchTerminal]
  · obtain ⟨hposted, hfree⟩ := batchStateOf_of_other h0 h1
    have hfinding : batchFinding image w = if batchStateCode image = w then .same else .misuse := by
      unfold batchFinding
      split
      · rfl
      · split
        · next h => exact absurd h hposted
        · next h => exact absurd h hfree
        · rfl
    simp only [hfinding, batchMisused, batchPosted, batchFreed, h0, h1, false_and, not_false_eq_true, and_true]
    split
    · next h => simp [h]
    · next h => simp [Ne.symm h]

/-- The host has posted an order slot. -/
def orderPosted (x : OrderState × Word) : Prop := x.2 = 1 ∧ (x.1 = .free ∨ x.1 = .answered)

/-- The host has freed an order slot. -/
def orderFreed (x : OrderState × Word) : Prop := x.2 = 0 ∧ x.1 = .answered

/-- The host has misused an order slot. -/
def orderMisused (x : OrderState × Word) : Prop := x.2 ≠ orderStateCode x.1 ∧ ¬orderPosted x ∧ ¬orderFreed x

theorem orderFinding_spec (x : OrderState × Word) :
    (orderFinding x.1 x.2 = .posted ↔ orderPosted x) ∧ (orderFinding x.1 x.2 = .returned ↔ orderFreed x)
      ∧ (orderFinding x.1 x.2 = .misuse ↔ orderMisused x) ∧ (orderFinding x.1 x.2 = .same ↔ x.2 = orderStateCode x.1) := by
  obtain ⟨image, w⟩ := x
  rcases word_cases w with rfl | rfl | ⟨h0, h1⟩
  · cases image <;> simp [orderFinding, orderPosted, orderFreed, orderMisused, orderStateCode, orderStateOf, orderTerminal]
  · cases image <;> simp [orderFinding, orderPosted, orderFreed, orderMisused, orderStateCode, orderStateOf, orderTerminal]
  · obtain ⟨hposted, hfree⟩ := orderStateOf_of_other h0 h1
    have hfinding : orderFinding image w = if orderStateCode image = w then .same else .misuse := by
      unfold orderFinding
      split
      · rfl
      · split
        · next h => exact absurd h hposted
        · next h => exact absurd h hfree
        · rfl
    simp only [hfinding, orderMisused, orderPosted, orderFreed, h0, h1, false_and, not_false_eq_true, and_true]
    split
    · next h => simp [h]
    · next h => simp [Ne.symm h]

/-! ## The two boards (08 R146, R147) -/

/-- A batch slot's image and the state word in the window. -/
def batchEntry (s : State) (slot : BatchSlot) : BatchState × Word := (s.exc.batchImages[slot], readWord s.window (batchBase slot))

/-- An order slot's image and the state word in the window. -/
def orderEntry (s : State) (slot : OrderSlot) : OrderState × Word := (s.exc.orderImages[slot], readWord s.window (orderBase slot))

theorem recordMisuse_window (board : Board) (index : Nat) (s : State) : (recordMisuse board index s).window = s.window := by
  unfold recordMisuse
  dsimp only
  split <;> rfl

theorem recordMisuse_images (board : Board) (index : Nat) (s : State) :
    (recordMisuse board index s).exc.batchImages = s.exc.batchImages
      ∧ (recordMisuse board index s).exc.orderImages = s.exc.orderImages
      ∧ (recordMisuse board index s).exc.scanTimer = s.exc.scanTimer := by
  unfold recordMisuse
  dsimp only
  split <;> exact ⟨rfl, rfl, rfl⟩

theorem recordMisuse_psv (board : Board) (index : Nat) (s : State) : (recordMisuse board index s).psv = s.psv := by
  unfold recordMisuse
  dsimp only
  split <;> rfl

theorem misuseTrace_recordMisuse (board : Board) (index : Nat) (s : State) :
    misuseTrace (recordMisuse board index s) = (misuseTrace s).add board index := by
  unfold recordMisuse misuseTrace MisuseTrace.add
  dsimp only
  split <;> rfl

/-- What a comparison leaves of a slot of either board, by what it finds. -/
def leftOf {κ : Type} (posted free : κ) (code : κ → Word) : Finding → κ × Word → κ × Word
  | .same, x => x
  | .posted, x => (posted, x.2)
  | .returned, x => (free, x.2)
  | .misuse, x => (x.1, code x.1)

/-- A comparison of one slot of a board: its image by `image`, set by `set`, its state word at `base`. -/
structure ComparesSlots {n : Nat} {κ : Type} (op : Fin n → State → State) (image : State → Fin n → κ) (base : Fin n → Nat)
    (find : κ × Word → Finding) (posted free : κ) (code : κ → Word) (set : Fin n → κ → State → State) (board : Board) : Prop where
  op_eq : ∀ i s, op i s = match find (image s i, readWord s.window (base i)) with
    | .same => s
    | .posted => set i posted s
    | .returned => set i free s
    | .misuse => recordMisuse board i.1 (onWindow (fun m => writeWord m (base i) (code (image s i))) s)
  set_window : ∀ i k s, (set i k s).window = s.window
  set_trace : ∀ i k s, misuseTrace (set i k s) = misuseTrace s
  set_same : ∀ i k s, image (set i k s) i = k
  set_other : ∀ i j k s, i ≠ j → image (set i k s) j = image s j
  image_misuse : ∀ i f s, image (recordMisuse board i (onWindow f s)) = image s
  apart : ∀ i j, i ≠ j → base j + 4 ≤ base i ∨ base i + 4 ≤ base j

theorem ComparesSlots.compares {n : Nat} {κ : Type} {op : Fin n → State → State} {image : State → Fin n → κ} {base : Fin n → Nat}
    {find : κ × Word → Finding} {posted free : κ} {code : κ → Word} {set : Fin n → κ → State → State} {board : Board}
    (h : ComparesSlots op image base find posted free code set board) :
    Compares op (fun s i => (image s i, readWord s.window (base i))) (fun x => find x = .misuse)
      (fun x => leftOf posted free code (find x) x) fun i => (board, i.1) where
  canonical i s hs := by
    rw [h.op_eq, windowCanonical]
    split
    · exact hs
    · rw [h.set_window]
      exact hs
    · rw [h.set_window]
      exact hs
    · rw [recordMisuse_window]
      exact wf_writeWord _ _ hs
  same i s hs := by
    rw [h.op_eq]
    cases hf : find (image s i, readWord s.window (base i)) with
    | same => rfl
    | posted => exact Prod.ext (h.set_same i posted s) (by rw [h.set_window]; rfl)
    | returned => exact Prod.ext (h.set_same i free s) (by rw [h.set_window]; rfl)
    | misuse =>
      dsimp only
      rw [h.image_misuse, recordMisuse_window]
      exact Prod.ext rfl (readWord_writeWord hs _ _)
  other i j s hs hij := by
    rw [h.op_eq]
    split
    · rfl
    · exact Prod.ext (h.set_other i j posted s hij) (by rw [h.set_window])
    · exact Prod.ext (h.set_other i j free s hij) (by rw [h.set_window])
    · rw [h.image_misuse, recordMisuse_window]
      exact Prod.ext rfl (readWord_writeWord_other hs _ (h.apart i j hij))
  quiet i s hm := by
    rw [h.op_eq]
    split
    · rfl
    · exact h.set_trace i posted s
    · exact h.set_trace i free s
    · next hf => exact absurd hf hm
  found i s hm := by
    rw [h.op_eq, show find (image s i, readWord s.window (base i)) = .misuse from hm]
    exact misuseTrace_recordMisuse board i.1 _

theorem compareBatch_slots : ComparesSlots compareBatch (fun s slot => s.exc.batchImages[slot]) batchBase
    (fun x => batchFinding x.1 x.2) .posted .free batchStateCode setBatchImage .batch where
  op_eq _ _ := rfl
  set_window _ _ _ := rfl
  set_trace _ _ _ := rfl
  set_same _ _ _ := put_same _ _ _
  set_other _ _ _ _ h := put_other _ _ h
  image_misuse i f s := by rw [(recordMisuse_images .batch i (onWindow f s)).1]; rfl
  apart i j h := by
    have hne : i.1 ≠ j.1 := fun he => h (Fin.ext he)
    rw [batchBase, batchBase]
    omega

theorem compareOrder_slots : ComparesSlots compareOrder (fun s slot => s.exc.orderImages[slot]) orderBase
    (fun x => orderFinding x.1 x.2) .posted .free orderStateCode setOrderImage .order where
  op_eq _ _ := rfl
  set_window _ _ _ := rfl
  set_trace _ _ _ := rfl
  set_same _ _ _ := put_same _ _ _
  set_other _ _ _ _ h := put_other _ _ h
  image_misuse i f s := by rw [(recordMisuse_images .order i (onWindow f s)).2.1]; rfl
  apart i j h := by
    have hne : i.1 ≠ j.1 := fun he => h (Fin.ext he)
    rw [orderBase, orderBase]
    omega

/-- What a comparison leaves of a batch slot. -/
def batchCompared (x : BatchState × Word) : BatchState × Word := leftOf .posted .free batchStateCode (batchFinding x.1 x.2) x

/-- What a comparison leaves of an order slot. -/
def orderCompared (x : OrderState × Word) : OrderState × Word := leftOf .posted .free orderStateCode (orderFinding x.1 x.2) x

theorem compareBatch_compares :
    Compares compareBatch batchEntry batchMisused batchCompared fun slot => (.batch, slot.1) := by
  have hmisused : batchMisused = fun x => batchFinding x.1 x.2 = .misuse :=
    funext fun x => propext (batchFinding_spec x).2.2.1.symm
  rw [hmisused]
  exact compareBatch_slots.compares

theorem compareOrder_compares :
    Compares compareOrder orderEntry orderMisused orderCompared fun slot => (.order, slot.1) := by
  have hmisused : orderMisused = fun x => orderFinding x.1 x.2 = .misuse :=
    funext fun x => propext (orderFinding_spec x).2.2.1.symm
  rw [hmisused]
  exact compareOrder_slots.compares

theorem batchCompared_of_posted {x : BatchState × Word} (h : batchPosted x) : batchCompared x = (.posted, 1) := by
  rw [batchCompared, (batchFinding_spec x).1.mpr h, ← h.1]
  rfl

theorem batchCompared_of_freed {x : BatchState × Word} (h : batchFreed x) : batchCompared x = (.free, 0) := by
  rw [batchCompared, (batchFinding_spec x).2.1.mpr h, ← h.1]
  rfl

theorem batchCompared_of_neither {x : BatchState × Word} (hposted : ¬batchPosted x) (hfreed : ¬batchFreed x) :
    batchCompared x = (x.1, batchStateCode x.1) := by
  obtain ⟨-, -, hmisuse, hsame⟩ := batchFinding_spec x
  by_cases h : x.2 = batchStateCode x.1
  · rw [batchCompared, hsame.mpr h, ← h]
    rfl
  · rw [batchCompared, hmisuse.mpr ⟨h, hposted, hfreed⟩]
    rfl

theorem orderCompared_of_posted {x : OrderState × Word} (h : orderPosted x) : orderCompared x = (.posted, 1) := by
  rw [orderCompared, (orderFinding_spec x).1.mpr h, ← h.1]
  rfl

theorem orderCompared_of_freed {x : OrderState × Word} (h : orderFreed x) : orderCompared x = (.free, 0) := by
  rw [orderCompared, (orderFinding_spec x).2.1.mpr h, ← h.1]
  rfl

theorem orderCompared_of_neither {x : OrderState × Word} (hposted : ¬orderPosted x) (hfreed : ¬orderFreed x) :
    orderCompared x = (x.1, orderStateCode x.1) := by
  obtain ⟨-, -, hmisuse, hsame⟩ := orderFinding_spec x
  by_cases h : x.2 = orderStateCode x.1
  · rw [orderCompared, hsame.mpr h, ← h]
    rfl
  · rw [orderCompared, hmisuse.mpr ⟨h, hposted, hfreed⟩]
    rfl

/-! ## Both boards -/

/-- The boards compared: what is left of the slots, and the misuses recorded. -/
structure BoardsCompared (s t : State) : Prop where
  canonical : windowCanonical t
  batches : ∀ slot, batchEntry t slot = batchCompared (batchEntry s slot)
  orders : ∀ slot, orderEntry t slot = orderCompared (orderEntry s slot)
  timer : t.exc.scanTimer = s.exc.scanTimer
  state : t.psv = s.psv
  lastBatch : ∀ slot, batchMisused (batchEntry s slot) → (∀ x, slot < x → ¬batchMisused (batchEntry s x)) →
    t.exc.misuse = some (.batch, slot.1)
  lastOrder : ∀ slot, orderMisused (orderEntry s slot) → (∀ x, slot < x → ¬orderMisused (orderEntry s x)) →
    (∀ x, ¬batchMisused (batchEntry s x)) → t.exc.misuse = some (.order, slot.1)
  quiet : (∀ x, ¬orderMisused (orderEntry s x)) → (∀ x, ¬batchMisused (batchEntry s x)) → misuseTrace t = misuseTrace s
  event : t.exc.misuseEvent = true ↔ s.exc.misuseEvent = true ∨ (∃ x, orderMisused (orderEntry s x))
    ∨ ∃ x, batchMisused (batchEntry s x)
  flag : s.exc.misuseEvent = false → t.exc.misuseEvent = true → t.exc.attn.getLsbD 2 = true

theorem compareOrder_kept (slot : OrderSlot) (s : State) (hs : windowCanonical s) :
    ((compareOrder slot s).psv, (compareOrder slot s).exc.scanTimer, batchEntry (compareOrder slot s)) =
      (s.psv, s.exc.scanTimer, batchEntry s) := by
  rw [compareOrder_slots.op_eq]
  split
  · rfl
  · rfl
  · rfl
  · obtain ⟨hbatch, -, htimer⟩ := recordMisuse_images .order slot.1
      (onWindow (fun m => writeWord m (orderBase slot) (orderStateCode s.exc.orderImages[slot])) s)
    refine Prod.ext (recordMisuse_psv _ _ _) (Prod.ext htimer (funext fun x => ?_))
    have hslot := slot.2
    refine Prod.ext (congrArg (fun images => images[x]) hbatch) ?_
    change readWord (recordMisuse _ _ _).window _ = _
    rw [recordMisuse_window]
    refine readWord_writeWord_other hs _ (.inr ?_)
    rw [batchBase, orderBase]
    omega

theorem compareBatch_kept (slot : BatchSlot) (s : State) (hs : windowCanonical s) :
    ((compareBatch slot s).psv, (compareBatch slot s).exc.scanTimer, orderEntry (compareBatch slot s)) =
      (s.psv, s.exc.scanTimer, orderEntry s) := by
  rw [compareBatch_slots.op_eq]
  split
  · rfl
  · rfl
  · rfl
  · obtain ⟨-, horder, htimer⟩ := recordMisuse_images .batch slot.1
      (onWindow (fun m => writeWord m (batchBase slot) (batchStateCode s.exc.batchImages[slot])) s)
    refine Prod.ext (recordMisuse_psv _ _ _) (Prod.ext htimer (funext fun x => ?_))
    have hx := x.2
    refine Prod.ext (congrArg (fun images => images[x]) horder) ?_
    change readWord (recordMisuse _ _ _).window _ = _
    rw [recordMisuse_window]
    refine readWord_writeWord_other hs _ (.inl ?_)
    rw [batchBase, orderBase]
    omega

theorem boardsCompared_compareBoards {s : State} (hs : windowCanonical s) : BoardsCompared s (compareBoards s) := by
  have horders := compareOrder_compares.compared (List.finRange 16) s (List.nodup_finRange 16) hs
  have hkeptO := foldl_keeps (get := fun t => (t.psv, t.exc.scanTimer, batchEntry t)) compareOrder_compares.canonical
    compareOrder_kept (List.finRange 16) s hs
  unfold compareBoards
  generalize (List.finRange 16).foldl (fun t slot => compareOrder slot t) s = v at *
  have hbatches := compareBatch_compares.compared (List.finRange 48) v (List.nodup_finRange 48) horders.canonical
  have hkeptB := foldl_keeps (get := fun t => (t.psv, t.exc.scanTimer, orderEntry t)) compareBatch_compares.canonical
    compareBatch_kept (List.finRange 48) v horders.canonical
  generalize (List.finRange 48).foldl (fun t slot => compareBatch slot t) v = u at *
  obtain ⟨hstateO, hrestO⟩ := Prod.ext_iff.mp hkeptO
  obtain ⟨htimerO, hentryO⟩ := Prod.ext_iff.mp hrestO
  obtain ⟨hstateB, hrestB⟩ := Prod.ext_iff.mp hkeptB
  obtain ⟨htimerB, hentryB⟩ := Prod.ext_iff.mp hrestB
  dsimp only at hstateO htimerO hentryO hstateB htimerB hentryB
  obtain ⟨-, hdoneO, -, hquietO, hlastO, heventO, hflagO⟩ := horders
  obtain ⟨hcanonical, hdoneB, -, hquietB, hlastB, heventB, hflagB⟩ := hbatches
  have hentry (x : BatchSlot) : batchEntry v x = batchEntry s x := congrFun hentryO x
  simp only [hentry, List.mem_finRange, true_and, forall_true_left] at hdoneB hquietB hlastB heventB
  simp only [List.mem_finRange, true_and, forall_true_left] at hdoneO hquietO heventO
  refine ⟨hcanonical, hdoneB, fun slot => (congrFun hentryB slot).trans (hdoneO slot), htimerB.trans htimerO,
    hstateB.trans hstateO, fun slot hslot hafter => ?_, fun slot hslot hafter hnone => ?_,
    fun hnoneO hnoneB => (hquietB hnoneB).trans (hquietO hnoneO), ?_, fun hclear =>
    hflagB (hflagO fun h => absurd (hclear.symm.trans h) Bool.false_ne_true)⟩
  · obtain ⟨before, after, hsplit, hless⟩ := finRange_split slot
    exact hlastB before slot after hsplit hslot fun x hx => hafter x (hless x hx)
  · obtain ⟨before, after, hsplit, hless⟩ := finRange_split slot
    have hsame : u.exc.misuse = v.exc.misuse := congrArg MisuseTrace.record (hquietB hnone)
    exact hsame.trans (hlastO before slot after hsplit hslot fun x hx => hafter x (hless x hx))
  · rw [heventB, heventO, or_assoc]

end Sys2Proof.Machine
end

section
/-! PROOF. Orders handed over (08 R145, R150). -/

namespace Sys2Proof.Machine

open Sys2Proof

/-! ## Operations that act alone while the window is canonical -/

/-- `ActsAlone` for operations that keep a canonical window, and act so on states with one. -/
structure ActsCanonically {ι ρ : Type} (get : State → ι → ρ) (op : ι → State → State) (out : State → ι → ρ × List Instr) :
    Prop where
  canonical : ∀ i s, windowCanonical s → windowCanonical (op i s)
  same : ∀ i s, windowCanonical s → get (op i s) i = (out s i).1
  other : ∀ i j s, windowCanonical s → i ≠ j → get (op i s) j = get s j
  mail : ∀ i s, windowCanonical s → (op i s).mail = s.mail ++ (out s i).2
  apart : ∀ i j s, windowCanonical s → i ≠ j → out (op i s) j = out s j

theorem ActsCanonically.doneAt {ι ρ : Type} {get : State → ι → ρ} {op : ι → State → State} {out : State → ι → ρ × List Instr}
    (h : ActsCanonically get op out) : ∀ (is : List ι) (s : State), is.Nodup → windowCanonical s →
      windowCanonical (is.foldl (fun t i => op i t) s) ∧ DoneAt get out is s (is.foldl (fun t i => op i t) s)
  | [], _, _, hs => ⟨hs, nofun, fun _ _ => rfl, (List.append_nil _).symm⟩
  | i :: is, s, hnodup, hs => by
    obtain ⟨hi, his⟩ := List.nodup_cons.mp hnodup
    obtain ⟨hcanonical, hdone, hleft, hmail⟩ := h.doneAt is (op i s) his (h.canonical i s hs)
    have hne {j : ι} (hj : j ∈ is) : i ≠ j := fun he => hi (he ▸ hj)
    refine ⟨hcanonical, fun j hj => ?_, fun j hj => ?_, ?_⟩
    · obtain rfl | hj := List.mem_cons.mp hj
      · exact (hleft j hi).trans (h.same j s hs)
      · exact (hdone j hj).trans (by rw [h.apart i j s hs (hne hj)])
    · obtain ⟨hij, hj⟩ := not_or.mp (mt List.mem_cons.mpr hj)
      exact (hleft j hj).trans (h.other i j s hs (Ne.symm hij))
    · have hflat : is.flatMap (fun j => (out (op i s) j).2) = is.flatMap fun j => (out s j).2 :=
        List.flatMap_congr fun j hj => by rw [h.apart i j s hs (hne hj)]
      exact hmail.trans (by rw [hflat, h.mail i s hs, List.append_assoc, List.flatMap_cons])

/-! ## An order slot (08 R150) -/

/-- An order slot: its image, whether it has been handed over, and its words in the window. -/
structure OrderRoom where
  /-- The image. -/
  image : OrderState
  /-- Handed over. -/
  handed : Bool
  /-- The words of the slot. -/
  words : Fin 8 → Word

/-- The room of an order slot. -/
def orderRoom (s : State) (slot : OrderSlot) : OrderRoom :=
  ⟨s.exc.orderImages[slot], s.exc.orderHanded[slot], fun i => readWord s.window (orderBase slot + 4 * i.1)⟩

/-- The slot waits to be handed over. -/
def OrderRoom.waits (r : OrderRoom) : Bool := decide (r.image = .posted) && !r.handed

/-- The order in a slot routed. -/
def routed (s : State) (slot : OrderSlot) : Except (OrderOutcome × Word) Instr :=
  let words := (orderRoom s slot).words
  routeOrder s slot (words 1) (words 2) (words 3) (words 4)

/-- A slot answered by the controller itself. -/
def OrderRoom.answer (r : OrderRoom) (result : OrderOutcome) (detail : Word) : OrderRoom :=
  ⟨.answered, false, fun i => if i = 0 then 3 else if i = 5 then orderOutcomeCode (some result) else if i = 6 then detail
    else r.words i⟩

/-- What a hand-over leaves of its slot, and what it sends. -/
def handedOut (s : State) (slot : OrderSlot) : OrderRoom × List Instr :=
  if (orderRoom s slot).waits then
    match routed s slot with
    | .ok c => ({ orderRoom s slot with handed := true }, [c])
    | .error (result, detail) => ((orderRoom s slot).answer result detail, [])
  else (orderRoom s slot, [])

theorem handOrder_of_still {s : State} {slot : OrderSlot} (h : (orderRoom s slot).waits = false) : handOrder slot s = s := by
  refine if_neg fun hp => ?_
  rw [OrderRoom.waits, Bool.and_eq_false_iff] at h
  rcases h with h | h
  · exact of_decide_eq_false h hp.1
  · have hhanded : (!s.exc.orderHanded[slot]) = false := h
    rw [hp.2] at hhanded
    exact Bool.false_ne_true hhanded.symm

theorem handOrder_of_waits {s : State} {slot : OrderSlot} (h : (orderRoom s slot).waits = true) : handOrder slot s =
    match routed s slot with
    | .ok c => send c (onExc (fun e => { e with orderHanded := put e.orderHanded slot true }) s)
    | .error (result, detail) => finishOrder slot result detail s := by
  refine if_pos ?_
  obtain ⟨himage, hhanded⟩ := (Bool.and_eq_true _ _).mp h
  exact ⟨of_decide_eq_true himage, (Bool.not_eq_true' _).mp hhanded⟩

theorem handedOut_of_waits {s : State} {slot : OrderSlot} (h : (orderRoom s slot).waits = true) : handedOut s slot =
    match routed s slot with
    | .ok c => ({ orderRoom s slot with handed := true }, [c])
    | .error (result, detail) => ((orderRoom s slot).answer result detail, []) := if_pos h

/-- A hand-over in its three cases. -/
theorem handOrder_cases (slot : OrderSlot) (s : State) :
    ((orderRoom s slot).waits = false ∧ handedOut s slot = (orderRoom s slot, []) ∧ handOrder slot s = s)
      ∨ (∃ c, (orderRoom s slot).waits = true ∧ routed s slot = .ok c
        ∧ handedOut s slot = ({ orderRoom s slot with handed := true }, [c])
        ∧ handOrder slot s = send c (onExc (fun e => { e with orderHanded := put e.orderHanded slot true }) s))
      ∨ ∃ result detail, (orderRoom s slot).waits = true ∧ routed s slot = .error (result, detail)
        ∧ handedOut s slot = ((orderRoom s slot).answer result detail, [])
        ∧ handOrder slot s = writeOrderSlot slot (some .answered) (some result) detail s := by
  cases hwaits : (orderRoom s slot).waits with
  | false => exact .inl ⟨rfl, if_neg (by simp [hwaits]), handOrder_of_still hwaits⟩
  | true =>
    have hhand := handOrder_of_waits hwaits
    have hout := handedOut_of_waits hwaits
    cases hroute : routed s slot with
    | ok c =>
      rw [hroute] at hhand hout
      exact .inr (.inl ⟨c, rfl, rfl, hout, hhand⟩)
    | error e =>
      obtain ⟨result, detail⟩ := e
      rw [hroute] at hhand hout
      exact .inr (.inr ⟨result, detail, rfl, rfl, hout, hhand⟩)

theorem wf_writeOrderSlot {s : State} (hs : windowCanonical s) (slot : OrderSlot) (st : OrderState)
    (result : Option OrderOutcome) (detail : Word) : windowCanonical (writeOrderSlot slot (some st) result detail s) := by
  rw [windowCanonical, writeOrderSlot_window_some]
  exact wf_writeWord _ _ (wf_answeredIn hs _ _ _)

theorem orderRoom_writeOrderSlot {s : State} (hs : windowCanonical s) (slot : OrderSlot) (result : OrderOutcome) (detail : Word) :
    orderRoom (writeOrderSlot slot (some .answered) (some result) detail s) slot = (orderRoom s slot).answer result detail := by
  have hexc := writeOrderSlot_exc_some slot .answered (some result) detail s
  have himage : (writeOrderSlot slot (some .answered) (some result) detail s).exc.orderImages[slot] = .answered := by
    rw [hexc]
    exact put_same _ _ _
  have hhanded : (writeOrderSlot slot (some .answered) (some result) detail s).exc.orderHanded[slot] = false := by
    rw [hexc]
    exact put_same _ _ _
  rw [orderRoom, himage, hhanded, OrderRoom.answer]
  refine congrArg (OrderRoom.mk .answered false) (funext fun i => ?_)
  by_cases h0 : i = 0
  · rw [if_pos h0, h0]
    exact readWord_writeOrderSlot_state hs slot _ _ .answered
  · rw [if_neg h0]
    by_cases h5 : i = 5
    · rw [if_pos h5, h5]
      exact readWord_writeOrderSlot_outcome hs slot _ _ _
    · rw [if_neg h5]
      by_cases h6 : i = 6
      · rw [if_pos h6, h6]
        exact readWord_writeOrderSlot_detail hs slot _ _ _
      · rw [if_neg h6]
        have hi := i.2
        have h0 : i.1 ≠ 0 := fun he => h0 (Fin.ext he)
        have h5 : i.1 ≠ 5 := fun he => h5 (Fin.ext he)
        have h6 : i.1 ≠ 6 := fun he => h6 (Fin.ext he)
        exact readWord_congr fun a hlow hhigh => readByte_writeOrderSlot hs slot _ _ _ (by omega)

theorem orderRoom_writeOrderSlot_other {s : State} (hs : windowCanonical s) {slot x : OrderSlot} (hx : slot ≠ x)
    (result : OrderOutcome) (detail : Word) :
    orderRoom (writeOrderSlot slot (some .answered) (some result) detail s) x = orderRoom s x := by
  have hexc := writeOrderSlot_exc_some slot .answered (some result) detail s
  have himage : (writeOrderSlot slot (some .answered) (some result) detail s).exc.orderImages[x] = s.exc.orderImages[x] := by
    rw [hexc]
    exact put_other _ _ hx
  have hhanded : (writeOrderSlot slot (some .answered) (some result) detail s).exc.orderHanded[x] = s.exc.orderHanded[x] := by
    rw [hexc]
    exact put_other _ _ hx
  rw [orderRoom, himage, hhanded, orderRoom]
  refine congrArg (OrderRoom.mk _ _) (funext fun i => readWord_congr fun a hlow hhigh => readByte_writeOrderSlot hs slot _ _ _ ?_)
  have hi := i.2
  have hne : slot.1 ≠ x.1 := fun he => hx (Fin.ext he)
  unfold orderBase at *
  omega

theorem batchImages_handOrder (slot : OrderSlot) (s : State) : (handOrder slot s).exc.batchImages = s.exc.batchImages := by
  rcases handOrder_cases slot s with ⟨-, -, h⟩ | ⟨c, -, -, -, h⟩ | ⟨result, detail, -, -, -, h⟩
  · rw [h]
  · rw [h]
    rfl
  · rw [h, writeOrderSlot_exc_some]

theorem routed_congr {s t : State} {slot : OrderSlot} (himages : t.exc.batchImages = s.exc.batchImages)
    (hroom : orderRoom t slot = orderRoom s slot) : routed t slot = routed s slot := by
  have hnamed (a : Word) : imageNamed t a = imageNamed s a := by rw [imageNamed, imageNamed, himages]
  rw [routed, routed, hroom]
  unfold routeOrder
  simp only [hnamed]

theorem orderRoom_handOrder_other {slot x : OrderSlot} {s : State} (hs : windowCanonical s) (hx : slot ≠ x) :
    orderRoom (handOrder slot s) x = orderRoom s x := by
  rcases handOrder_cases slot s with ⟨-, -, h⟩ | ⟨c, -, -, -, h⟩ | ⟨result, detail, -, -, -, h⟩
  · rw [h]
  · rw [h]
    exact congrArg (fun b => OrderRoom.mk _ b _) (put_other _ _ hx)
  · rw [h]
    exact orderRoom_writeOrderSlot_other hs hx result detail

theorem handOrder_acts : ActsCanonically orderRoom handOrder handedOut where
  canonical slot s hs := by
    rcases handOrder_cases slot s with ⟨-, -, h⟩ | ⟨c, -, -, -, h⟩ | ⟨result, detail, -, -, -, h⟩
    · rw [h]
      exact hs
    · rw [h]
      exact hs
    · rw [h]
      exact wf_writeOrderSlot hs _ _ _ _
  same slot s hs := by
    rcases handOrder_cases slot s with ⟨-, hout, h⟩ | ⟨c, -, -, hout, h⟩ | ⟨result, detail, -, -, hout, h⟩
    · rw [h, hout]
    · rw [h, hout]
      exact congrArg (fun b => OrderRoom.mk _ b _) (put_same _ _ _)
    · rw [h, hout]
      exact orderRoom_writeOrderSlot hs slot result detail
  other slot x s hs hx := orderRoom_handOrder_other hs hx
  mail slot s hs := by
    rcases handOrder_cases slot s with ⟨-, hout, h⟩ | ⟨c, -, -, hout, h⟩ | ⟨result, detail, -, -, hout, h⟩
    · rw [h, hout, List.append_nil]
    · rw [h, hout]
      rfl
    · rw [h, hout, writeOrderSlot_rest, List.append_nil]
  apart slot x s hs hx := by
    have hroom := orderRoom_handOrder_other hs hx
    rw [handedOut, handedOut, hroom, routed_congr (batchImages_handOrder slot s) hroom]

end Sys2Proof.Machine
end

section
/-! PROOF. What the orders of a scan come to (08 R145, R150). -/

namespace Sys2Proof.Machine

open Sys2Proof

/-- What an order is handed over as, by the fields of its slot. -/
def ownerOf (s : State) (slot : OrderSlot) (kind a b c : Word) : Option Instr :=
  match kind.toNat with
  | 1 => some (.cancelBatch slot a (if h : a.toNat < 48 then s.exc.batchImages[(⟨a.toNat, h⟩ : BatchSlot)] else .free))
  | 2 => some (.requalify slot a b)
  | 3 => some (.retire slot a)
  | 4 => if a = 1 then some (.clearEventsStation slot b c)
    else if a = 2 then some (.clearEventsSector slot b c)
    else if a = 3 then some (.clearEventsRig slot c) else none
  | 5 => some (.addOpening slot a b c)
  | 6 => some (.dropOpening slot a b)
  | _ => none

/-- The answer to an order with no owner. -/
def unowned (kind : Word) : OrderOutcome × Word := if kind = 4 then (.badArgument, 0) else (.badKind, kind)

theorem imageNamed_eq (s : State) (a : Word) :
    imageNamed s a = if h : a.toNat < 48 then s.exc.batchImages[(⟨a.toNat, h⟩ : BatchSlot)] else .free := by
  unfold imageNamed batchSlotOf
  by_cases h : a.toNat < 48
  · rw [dif_pos h, dif_pos h]
  · rw [dif_neg h, dif_neg h]

theorem word_eq_iff_toNat (a : Word) (n : Nat) (hn : n < 2 ^ 32) : a = BitVec.ofNat 32 n ↔ a.toNat = n := by
  rw [← BitVec.toNat_inj, BitVec.toNat_ofNat, Nat.mod_eq_of_lt hn]

theorem scope_match (a : Word) (x y z : Instr) :
    (match a.toNat with
      | 1 => Except.ok x
      | 2 => .ok y
      | 3 => .ok z
      | _ => .error (OrderOutcome.badArgument, (0 : Word))) =
    match (if a = 1 then some x else if a = 2 then some y else if a = 3 then some z else none) with
      | some c => .ok c
      | none => .error (.badArgument, 0) := by
  have h1 : a = 1 ↔ a.toNat = 1 := word_eq_iff_toNat a 1 (by decide)
  have h2 : a = 2 ↔ a.toNat = 2 := word_eq_iff_toNat a 2 (by decide)
  have h3 : a = 3 ↔ a.toNat = 3 := word_eq_iff_toNat a 3 (by decide)
  simp only [h1, h2, h3]
  split
  · next h => simp [h]
  · next h => simp [h]
  · next h => simp [h]
  · next hne1 hne2 hne3 =>
    rw [if_neg hne1, if_neg hne2, if_neg hne3]

theorem routeOrder_eq (s : State) (slot : OrderSlot) (kind a b c : Word) : routeOrder s slot kind a b c =
    match ownerOf s slot kind a b c with
    | some i => .ok i
    | none => .error (unowned kind) := by
  have h4 : kind = 4 ↔ kind.toNat = 4 := word_eq_iff_toNat kind 4 (by decide)
  rw [routeOrder, ownerOf, unowned, imageNamed_eq]
  simp only [h4]
  generalize kind.toNat = n
  split
  · rfl
  · rfl
  · rfl
  · exact scope_match a _ _ _
  · rfl
  · rfl
  · next _ _ _ h4 _ _ =>
    simp [show ¬ n = 4 from h4]

/-- The order a slot waits with, if it has an owner. -/
def orderOwner (s : State) (slot : OrderSlot) : Option Instr :=
  let words := (orderRoom s slot).words
  ownerOf s slot (words 1) (words 2) (words 3) (words 4)

theorem handedOut_eq (s : State) (slot : OrderSlot) : handedOut s slot =
    if (orderRoom s slot).waits then
      match orderOwner s slot with
      | some c => ({ orderRoom s slot with handed := true }, [c])
      | none => ((orderRoom s slot).answer (unowned ((orderRoom s slot).words 1)).1 (unowned ((orderRoom s slot).words 1)).2, [])
    else (orderRoom s slot, []) := by
  rw [handedOut, routed, routeOrder_eq]
  change (if _ then (match (match orderOwner s slot with
    | some i => Except.ok i
    | none => .error (unowned ((orderRoom s slot).words 1))) with
    | .ok c => _
    | .error (result, detail) => _) else _) = _
  cases orderOwner s slot <;> rfl

/-! ## The attention an answer asks for (08 R150, R158) -/

theorem attn_handOrder_mono {slot : OrderSlot} {s : State} {n : Nat} (h : s.exc.attn.getLsbD n = true) :
    (handOrder slot s).exc.attn.getLsbD n = true := by
  rcases handOrder_cases slot s with ⟨-, -, he⟩ | ⟨c, -, -, -, he⟩ | ⟨result, detail, -, -, -, he⟩
  · rw [he]
    exact h
  · rw [he]
    exact h
  · rw [he, writeOrderSlot_exc_some]
    change (setBit s.exc.attn 1).getLsbD n = true
    rw [setBit, BitVec.getLsbD_or, h, Bool.true_or]

theorem attn_handOrders_mono {n : Nat} (is : List OrderSlot) {s : State} (h : s.exc.attn.getLsbD n = true) :
    (is.foldl (fun t slot => handOrder slot t) s).exc.attn.getLsbD n = true := by
  induction is generalizing s with
  | nil => exact h
  | cons i is ih => exact ih (attn_handOrder_mono h)

/-- An order that the controller answers itself sets ORDER. -/
theorem attn_handOrders_answered {s : State} (hs : windowCanonical s) {slot : OrderSlot}
    (hanswered : (handedOut s slot).1.image = .answered) (hwaits : (orderRoom s slot).waits = true) :
    (handOrders s).exc.attn.getLsbD 1 = true := by
  obtain ⟨before, after, hsplit, -⟩ := finRange_split slot
  have hnodup : (before ++ slot :: after).Nodup := hsplit ▸ List.nodup_finRange 16
  obtain ⟨hbefore, -, hapart⟩ := List.nodup_append.mp hnodup
  obtain ⟨hcanonical, -, hleft, -⟩ := handOrder_acts.doneAt before s hbefore hs
  have hfold : handOrders s = after.foldl (fun t slot => handOrder slot t)
      (handOrder slot (before.foldl (fun t slot => handOrder slot t) s)) := by
    rw [handOrders, hsplit, List.foldl_append, List.foldl_cons]
  have hroom : orderRoom (before.foldl (fun t slot => handOrder slot t) s) slot = orderRoom s slot :=
    hleft slot fun hmem => hapart slot hmem slot List.mem_cons_self rfl
  have himages : (before.foldl (fun t slot => handOrder slot t) s).exc.batchImages = s.exc.batchImages :=
    foldl_keeps (get := fun t => t.exc.batchImages) handOrder_acts.canonical (fun i t _ => batchImages_handOrder i t) before s hs
  rw [hfold]
  generalize before.foldl (fun t slot => handOrder slot t) s = v at *
  refine attn_handOrders_mono after ?_
  have hout : handedOut v slot = handedOut s slot := by rw [handedOut, handedOut, hroom, routed_congr himages hroom]
  rw [← hout] at hanswered
  rw [← hroom] at hwaits
  rcases handOrder_cases slot v with ⟨hstill, -, -⟩ | ⟨c, -, -, hok, -⟩ | ⟨result, detail, -, -, -, he⟩
  · exact absurd (hstill.symm.trans hwaits) Bool.false_ne_true
  · have himage : (orderRoom v slot).image = .answered := (congrArg (fun x => x.1.image) hok).symm.trans hanswered
    have hposted : (orderRoom v slot).image = .posted := of_decide_eq_true ((Bool.and_eq_true _ _).mp hwaits).1
    exact absurd (hposted.symm.trans himage) OrderState.noConfusion
  · rw [he, writeOrderSlot_exc_some]
    change (setBit v.exc.attn 1).getLsbD 1 = true
    rw [getLsbD_setBit _ 1 (by decide)]
    exact Bool.or_true _

theorem filterMap_eq_flatMap_of {α : Type} {f : α → Option Instr} {g : α → List Instr} (h : ∀ a, g a = (f a).toList) (l : List α) :
    l.flatMap g = l.filterMap f := by
  rw [List.filterMap_eq_flatMap_toList]
  exact List.flatMap_congr fun a _ => h a

theorem doneAt_handOrders {s : State} (hs : windowCanonical s) :
    windowCanonical (handOrders s) ∧ DoneAt orderRoom handedOut (List.finRange 16) s (handOrders s) :=
  handOrder_acts.doneAt (List.finRange 16) s (List.nodup_finRange 16) hs

theorem batchImages_handOrders {s : State} (hs : windowCanonical s) : (handOrders s).exc.batchImages = s.exc.batchImages := by
  have hkept := foldl_keeps (get := fun t : State => t.exc.batchImages) handOrder_acts.canonical
    (fun i t _ => batchImages_handOrder i t) (List.finRange 16) s hs
  unfold handOrders
  exact hkept

/-- The fourth part of O59: what becomes of the posted orders. -/
theorem handOrders_spec (s : State) (hs : windowCanonical s) :
    handOrders s = { s with exc := (handOrders s).exc, window := (handOrders s).window, mail := (handOrders s).mail }
      ∧ (handOrders s).mail = s.mail ++ (List.finRange 16).filterMap
        (fun slot => if (orderRoom s slot).waits then orderOwner s slot else none)
      ∧ (handOrders s).exc.batchImages = s.exc.batchImages
      ∧ ∀ slot, orderRoom (handOrders s) slot = if (orderRoom s slot).waits then
          (if orderOwner s slot = none then (orderRoom s slot).answer (unowned ((orderRoom s slot).words 1)).1
              (unowned ((orderRoom s slot).words 1)).2
            else { orderRoom s slot with handed := true })
          else orderRoom s slot := by
  obtain ⟨-, hdone, -, hmail⟩ := doneAt_handOrders hs
  refine ⟨exchangeless_eq (exchangeless_handOrders s), ?_, ?_, fun slot => ?_⟩
  · have hsent (slot : OrderSlot) : (handedOut s slot).2 =
        (if (orderRoom s slot).waits then orderOwner s slot else none).toList := by
      rw [handedOut_eq]
      cases (orderRoom s slot).waits with
      | false => rfl
      | true => cases orderOwner s slot <;> rfl
    rw [hmail, filterMap_eq_flatMap_of hsent]
  · exact batchImages_handOrders hs
  · rw [hdone slot (List.mem_finRange slot), handedOut_eq]
    cases (orderRoom s slot).waits with
    | false => rfl
    | true => cases orderOwner s slot <;> rfl

end Sys2Proof.Machine
end

section
/-! PROOF. The directive read and the candidates of a scan (08 R149, R153 to R155). -/

namespace Sys2Proof.Machine

open Sys2Proof

/-! ## The first bad field (08 R154) -/

/-- The fields of the directive body with what holds of each. -/
def directiveFields (m : Memory) : List (Nat × Bool) :=
  [(1, decide ((readWord m 0x204).toNat ≤ 1)), (2, decide ((readWord m 0x208).toNat ≤ 600)),
    (3, decide ((readWord m 0x20C).toNat ≤ 200000)), (4, decide ((readWord m 0x210).toNat ≤ 1000)),
    (5, decide ((readWord m 0x214).toNat ≤ 65535))]
    ++ allStations.map fun st => (6 + st.1, decide (-4 ≤ trimOf m st ∧ trimOf m st ≤ 4))

/-- The first field of a list that fails. -/
def firstBad (fields : List (Nat × Bool)) : Option Nat := (fields.find? fun c => !c.2).map Prod.fst

theorem firstBad_cons (n : Nat) (b : Bool) (fields : List (Nat × Bool)) :
    firstBad ((n, b) :: fields) = if b = true then firstBad fields else some n := by
  cases b <;> rfl

theorem firstBad_trims (m : Memory) :
    firstBad (allStations.map fun st => (6 + st.1, decide (-4 ≤ trimOf m st ∧ trimOf m st ≤ 4))) =
      (badTrim m).map fun st => 6 + st.1 := by
  have hbad (st : Station) : (!decide (-4 ≤ trimOf m st ∧ trimOf m st ≤ 4)) = (decide (trimOf m st < -4) || decide (4 < trimOf m st)) := by
    rw [← decide_not, ← Bool.decide_or, decide_eq_decide]
    omega
  rw [firstBad, badTrim, List.find?_map, Option.map_map]
  simp only [Function.comp_def, hbad]

theorem badDirectiveField_eq (m : Memory) : badDirectiveField m = firstBad (directiveFields m) := by
  unfold badDirectiveField directiveFields
  simp only [List.cons_append, List.nil_append, firstBad_cons, firstBad_trims, decide_eq_true_iff, ← Nat.not_lt, ite_not]

theorem firstBad_eq_none_iff (fields : List (Nat × Bool)) : firstBad fields = none ↔ ∀ c ∈ fields, c.2 = true := by
  simp [firstBad]

theorem firstBad_eq_some_iff {fields : List (Nat × Bool)} (hsorted : fields.Pairwise fun a b => a.1 < b.1) (f : Nat) :
    firstBad fields = some f ↔ (f, false) ∈ fields ∧ ∀ c ∈ fields, c.1 < f → c.2 = true := by
  induction fields with
  | nil => simp [firstBad]
  | cons c fields ih =>
    obtain ⟨n, b⟩ := c
    obtain ⟨hless, hrest⟩ := List.pairwise_cons.mp hsorted
    rw [firstBad_cons]
    cases b with
    | true =>
      rw [if_pos rfl, ih hrest]
      simp
    | false =>
      rw [if_neg Bool.false_ne_true]
      constructor
      · rintro h
        obtain rfl := Option.some.inj h
        refine ⟨List.mem_cons_self, fun c hc hlt => ?_⟩
        rcases List.mem_cons.mp hc with rfl | hc
        · exact absurd hlt (Nat.lt_irrefl _)
        · exact absurd hlt (Nat.lt_asymm (hless c hc))
      · rintro ⟨hmem, hall⟩
        rcases List.mem_cons.mp hmem with he | hmem
        · exact congrArg some (congrArg Prod.fst he).symm
        · exact absurd (hall (n, false) List.mem_cons_self (hless _ hmem)) Bool.false_ne_true

theorem directiveFields_sorted (m : Memory) : (directiveFields m).Pairwise fun a b => a.1 < b.1 := by
  unfold directiveFields
  rw [List.pairwise_append]
  refine ⟨by simp, ?_, ?_⟩
  · rw [List.pairwise_map]
    exact (List.pairwise_lt_finRange 64).imp fun h => Nat.add_lt_add_left h 6
  · intro a ha b hb
    obtain ⟨st, -, rfl⟩ := List.mem_map.mp hb
    have ha5 : a.1 ≤ 5 := by
      simp only [List.mem_cons, List.not_mem_nil, or_false] at ha
      rcases ha with rfl | rfl | rfl | rfl | rfl <;> simp
    exact Nat.lt_of_le_of_lt ha5 (Nat.lt_add_right _ (by decide))

/-! ## The directive (08 R153 to R155) -/

/-- The page holds a new edition. -/
def editionNew (s : State) : Prop := readWord s.window 0x200 = readWord s.window 0x2FC ∧ readWord s.window 0x200 ≠ 0
  ∧ readWord s.window 0x200 ≠ s.exc.edition ∧ readWord s.window 0x200 ≠ s.exc.lastRejected

theorem readDirective_of_old {s : State} (h : ¬editionNew s) : readDirective s = s := by
  refine if_pos ?_
  by_contra hnot
  obtain ⟨htail, hrest⟩ := not_or.mp hnot
  obtain ⟨hzero, hrest⟩ := not_or.mp hrest
  obtain ⟨hedition, hrejected⟩ := not_or.mp hrest
  exact h ⟨not_not.mp htail, hzero, hedition, hrejected⟩

theorem readDirective_of_new {s : State} (h : editionNew s) : readDirective s =
    match badDirectiveField s.window with
    | some field => rejectEdition (readWord s.window 0x200) field s
    | none => acceptEdition (readWord s.window 0x200) s := by
  obtain ⟨htail, hzero, hedition, hrejected⟩ := h
  exact if_neg (not_or.mpr ⟨not_not_intro htail, not_or.mpr ⟨hzero, not_or.mpr ⟨hedition, hrejected⟩⟩⟩)

theorem rejectEdition_cases (edition : Word) (field : Nat) (s : State) :
    (s.exc.directiveBad = true ∧ rejectEdition edition field s =
      { s with exc := { s.exc with lastRejected := edition, badField := field, directiveBad := true } })
      ∨ (s.exc.directiveBad = false ∧ rejectEdition edition field s = setAttn .event
        { s with exc := { s.exc with lastRejected := edition, badField := field, directiveBad := true } }) := by
  cases h : s.exc.directiveBad with
  | true => exact .inl ⟨rfl, if_pos h⟩
  | false => exact .inr ⟨rfl, if_neg (Bool.eq_false_iff.mp h)⟩

/-! ## The candidates of a scan (08 R149) -/

/-- The order of the candidates: by post number, equal ones by index. -/
def postedBefore (m : Memory) (a b : BatchSlot) : Prop :=
  postNumberOf m a < postNumberOf m b ∨ (postNumberOf m a = postNumberOf m b ∧ a < b)

theorem insertCandidate_perm (m : Memory) (slot : BatchSlot) (cs : List BatchSlot) :
    (insertCandidate m slot cs).Perm (slot :: cs) := by
  induction cs with
  | nil => exact .refl _
  | cons c cs ih =>
    rw [insertCandidate]
    split
    · exact .refl _
    · exact (ih.cons c).trans (.swap slot c cs)

theorem insertCandidate_sorted {m : Memory} {slot : BatchSlot} {cs : List BatchSlot} (hless : ∀ c ∈ cs, c < slot)
    (h : cs.Pairwise (postedBefore m)) : (insertCandidate m slot cs).Pairwise (postedBefore m) := by
  induction cs with
  | nil => exact List.pairwise_singleton _ _
  | cons c cs ih =>
    obtain ⟨hfirst, hrest⟩ := List.pairwise_cons.mp h
    rw [insertCandidate]
    split
    · next hlt =>
      refine List.pairwise_cons.mpr ⟨fun d hd => .inl ?_, h⟩
      rcases List.mem_cons.mp hd with rfl | hd
      · exact hlt
      · exact Nat.lt_of_lt_of_le hlt ((hfirst d hd).elim Nat.le_of_lt fun he => Nat.le_of_eq he.1)
    · next hnot =>
      refine List.pairwise_cons.mpr ⟨fun d hd => ?_, ih (fun d hd => hless d (List.mem_cons_of_mem c hd)) hrest⟩
      rcases List.mem_cons.mp ((insertCandidate_perm m slot cs).mem_iff.mp hd) with rfl | hd
      · rcases Nat.lt_or_eq_of_le (Nat.not_lt.mp hnot) with hlt | heq
        · exact .inl hlt
        · exact .inr ⟨heq, hless c List.mem_cons_self⟩
      · exact hfirst d hd

theorem foldl_insertCandidate (m : Memory) (slots cs : List BatchSlot) (hslots : slots.Pairwise (· < ·))
    (hless : ∀ c ∈ cs, ∀ slot ∈ slots, c < slot) (h : cs.Pairwise (postedBefore m)) :
    (slots.foldl (fun cs slot => insertCandidate m slot cs) cs).Perm (cs ++ slots)
      ∧ (slots.foldl (fun cs slot => insertCandidate m slot cs) cs).Pairwise (postedBefore m) := by
  induction slots generalizing cs with
  | nil => exact ⟨by rw [List.append_nil]; exact .refl _, h⟩
  | cons slot slots ih =>
    obtain ⟨hfirst, hrest⟩ := List.pairwise_cons.mp hslots
    have hperm := insertCandidate_perm m slot cs
    obtain ⟨hp, hsorted⟩ := ih (insertCandidate m slot cs) hrest (fun c hc x hx => by
        rcases List.mem_cons.mp (hperm.mem_iff.mp hc) with rfl | hc
        · exact hfirst x hx
        · exact hless c hc x (List.mem_cons_of_mem slot hx))
      (insertCandidate_sorted (fun c hc => hless c hc slot List.mem_cons_self) h)
    exact ⟨hp.trans ((hperm.append_right slots).trans List.perm_middle.symm), hsorted⟩

theorem sortedCandidates_spec (s : State) : (sortedCandidates s).Perm ((List.finRange 48).filter (isCandidate s))
    ∧ (sortedCandidates s).Pairwise (postedBefore s.window) := by
  have hsorted : ((List.finRange 48).filter (isCandidate s)).Pairwise (· < ·) := (List.pairwise_lt_finRange 48).filter _
  exact foldl_insertCandidate s.window ((List.finRange 48).filter (isCandidate s)) [] hsorted nofun .nil

theorem mem_sortedCandidates (s : State) (slot : BatchSlot) : slot ∈ sortedCandidates s ↔
    s.exc.batchImages[slot] = .posted ∧ s.exc.batchHanded[slot] = false := by
  rw [(sortedCandidates_spec s).1.mem_iff, List.mem_filter, isCandidate, Bool.and_eq_true, decide_eq_true_iff, Bool.not_eq_true']
  exact and_iff_right (List.mem_finRange slot)

theorem nodup_sortedCandidates (s : State) : (sortedCandidates s).Nodup :=
  (sortedCandidates_spec s).1.nodup_iff.mpr ((List.nodup_finRange 48).filter _)

theorem handoverWaits_iff (s : State) : handoverWaits s = true ↔ ∃ slot q, .batchHandover slot q ∈ s.mail := by
  rw [handoverWaits, List.any_eq_true]
  constructor
  · rintro ⟨c, hc, hp⟩
    split at hp
    · next slot q => exact ⟨slot, q, hc⟩
    · exact absurd hp Bool.false_ne_true
  · rintro ⟨slot, q, hc⟩
    exact ⟨_, hc, rfl⟩

end Sys2Proof.Machine
end

section
/-! PROOF. The exchange scan (08 R145 to R155). -/

namespace Sys2Proof.Machine

open Sys2Proof

/-! ## What a scan's takes keep of its comparisons -/

/-- What the takes of a scan keep. -/
structure ScanKept (s t : State) : Prop where
  batches : batchEntry t = batchEntry s
  misuse : t.exc.misuse = s.exc.misuse
  event : t.exc.misuseEvent = s.exc.misuseEvent
  timer : t.exc.scanTimer = s.exc.scanTimer
  flag : s.exc.attn.getLsbD 2 = true → t.exc.attn.getLsbD 2 = true

namespace ScanKept

theorem refl (s : State) : ScanKept s s := ⟨rfl, rfl, rfl, rfl, id⟩

theorem trans {s t u : State} (h : ScanKept s t) (k : ScanKept t u) : ScanKept s u :=
  ⟨k.batches.trans h.batches, k.misuse.trans h.misuse, k.event.trans h.event, k.timer.trans h.timer, k.flag ∘ h.flag⟩

end ScanKept

theorem scanKept_handOrder {s : State} (hs : windowCanonical s) (slot : OrderSlot) : ScanKept s (handOrder slot s) := by
  rcases handOrder_cases slot s with ⟨-, -, h⟩ | ⟨c, -, -, -, h⟩ | ⟨result, detail, -, -, -, h⟩
  · rw [h]
    exact .refl s
  · rw [h]
    exact ⟨rfl, rfl, rfl, rfl, id⟩
  · have hexc := writeOrderSlot_exc_some slot .answered (some result) detail s
    refine ⟨funext fun x => ?_, ?_, ?_, ?_, attn_handOrder_mono⟩
    · rw [h]
      have hslot := slot.2
      refine Prod.ext (by rw [batchEntry, hexc]; rfl) (readWord_congr fun a hlow _ => readByte_writeOrderSlot hs slot _ _ _ (.inr (.inr ?_)))
      unfold batchBase at hlow
      unfold orderBase
      omega
    · rw [h, hexc]
    · rw [h, hexc]
    · rw [h, hexc]

theorem scanKept_handOrders {s : State} (hs : windowCanonical s) : ScanKept s (handOrders s) := by
  unfold handOrders
  generalize List.finRange 16 = is
  induction is generalizing s with
  | nil => exact .refl s
  | cons slot is ih => exact (scanKept_handOrder hs slot).trans (ih (handOrder_acts.canonical slot s hs))

theorem handBatches_rest (s : State) : ∃ C H M, handBatches s =
    { s with exc := { s.exc with candidates := C, batchHanded := H }, mail := M } := by
  unfold handBatches
  dsimp only
  split
  · exact ⟨_, _, _, rfl⟩
  · unfold handNext
    split
    · exact ⟨_, _, _, rfl⟩
    · exact ⟨_, _, _, rfl⟩

theorem scanKept_handBatches (s : State) : ScanKept s (handBatches s) := by
  obtain ⟨C, H, M, h⟩ := handBatches_rest s
  rw [h]
  exact ⟨rfl, rfl, rfl, rfl, id⟩

theorem scanKept_readDirective (s : State) : ScanKept s (readDirective s) := by
  by_cases hnew : editionNew s
  · rw [readDirective_of_new hnew]
    split
    · next field _ =>
      rcases rejectEdition_cases (readWord s.window 0x200) field s with ⟨-, h⟩ | ⟨-, h⟩
      · rw [h]
        exact ⟨rfl, rfl, rfl, rfl, id⟩
      · rw [h]
        refine ⟨rfl, rfl, rfl, rfl, fun hflag => ?_⟩
        change (setBit s.exc.attn 2).getLsbD 2 = true
        rw [setBit, BitVec.getLsbD_or, hflag, Bool.true_or]
    · exact ⟨rfl, rfl, rfl, rfl, id⟩
  · rw [readDirective_of_old hnew]
    exact .refl s

/-! ## The orders of a scan's takes -/

theorem orderEntry_eq (s : State) (slot : OrderSlot) :
    orderEntry s slot = ((orderRoom s slot).image, (orderRoom s slot).words 0) := rfl

theorem orderEntry_handOrders {s : State} (hs : windowCanonical s) {slot : OrderSlot} (h : s.exc.orderImages[slot] ≠ .posted) :
    orderEntry (handOrders s) slot = orderEntry s slot := by
  obtain ⟨-, -, -, hroom⟩ := handOrders_spec s hs
  have hstill : (orderRoom s slot).waits = false := by
    rw [OrderRoom.waits, show (orderRoom s slot).image = s.exc.orderImages[slot] from rfl, decide_eq_false h]
    rfl
  have hsame := hroom slot
  rw [hstill] at hsame
  rw [orderEntry_eq, orderEntry_eq, hsame]
  rfl

theorem orderEntry_handBatches (s : State) : orderEntry (handBatches s) = orderEntry s := by
  obtain ⟨C, H, M, h⟩ := handBatches_rest s
  rw [h]
  rfl

theorem orderEntry_readDirective (s : State) : orderEntry (readDirective s) = orderEntry s := by
  by_cases hnew : editionNew s
  · rw [readDirective_of_new hnew]
    split
    · next field _ =>
      rcases rejectEdition_cases (readWord s.window 0x200) field s with ⟨-, h⟩ | ⟨-, h⟩ <;> rw [h] <;> rfl
    · rfl
  · rw [readDirective_of_old hnew]

/-- What a scan does beside its comparisons, as far as the comparisons go. -/
theorem scanTakes_kept {s : State} (hs : windowCanonical s) : ScanKept s (scanTakes s)
    ∧ ∀ slot, (s.exc.orderImages[slot] ≠ .posted ∨ s.psv.state = .stopping ∨ s.psv.state = .recovery) →
      orderEntry (scanTakes s) slot = orderEntry s slot := by
  unfold scanTakes
  cases hstate : s.psv.state with
  | config =>
    refine ⟨(scanKept_handOrders hs).trans (scanKept_readDirective _), fun slot hslot => ?_⟩
    rw [orderEntry_readDirective]
    exact orderEntry_handOrders hs (hslot.resolve_right (by simp))
  | run =>
    refine ⟨((scanKept_handOrders hs).trans (scanKept_handBatches _)).trans (scanKept_readDirective _), fun slot hslot => ?_⟩
    rw [orderEntry_readDirective, orderEntry_handBatches]
    exact orderEntry_handOrders hs (hslot.resolve_right (by simp))
  | stopping => exact ⟨scanKept_readDirective s, fun slot _ => congrFun (orderEntry_readDirective s) slot⟩
  | bench => exact ⟨.refl s, fun _ _ => rfl⟩
  | powerDown => exact ⟨.refl s, fun _ _ => rfl⟩
  | recovery => exact ⟨.refl s, fun _ _ => rfl⟩
  | halted => exact ⟨.refl s, fun _ _ => rfl⟩

/-! ## The scan (08 R145) -/

theorem takeScan_of_stopped {s : State} (h : exchanges s.psv.state = false ∨ s.exc.scanTimer = none) : takeScan s = s := by
  refine if_neg fun hp => ?_
  obtain ⟨hruns, htimer⟩ := (Bool.and_eq_true _ _).mp hp
  rcases h with h | h
  · exact Bool.false_ne_true (h.symm.trans hruns)
  · rw [h] at htimer
    exact Bool.false_ne_true htimer

/-- The scan timer restarted. -/
def scanBegun (s : State) : State := { s with exc := { s.exc with scanTimer := some s.tmb.fineTime } }

theorem takeScan_of_running {s : State} (hruns : exchanges s.psv.state = true) (htimer : s.exc.scanTimer ≠ none) :
    takeScan s = if s.exc.clearStage = .none then scanTakes (compareBoards (scanBegun s)) else scanBegun s := by
  refine if_pos ?_
  rw [hruns, Bool.true_and]
  exact Option.isSome_iff_ne_none.mpr htimer

theorem exchanges_of_state {s : State} {p : PartState} (h : s.psv.state = p) (hp : exchanges p = true) :
    exchanges s.psv.state = true := by rw [h, hp]

theorem psv_compareBoards (s : State) : (compareBoards s).psv = s.psv := by
  rw [exchangeless_eq (exchangeless_compareBoards s)]

/-- The third part of O59's first clause. -/
theorem scan_compares {s : State} (hs : windowCanonical s) : ∃ v, BoardsCompared (scanBegun s) v
    ∧ ScanKept v (scanTakes (compareBoards (scanBegun s)))
    ∧ ∀ slot, (v.exc.orderImages[slot] ≠ .posted ∨ s.psv.state = .stopping ∨ s.psv.state = .recovery) →
      orderEntry (scanTakes (compareBoards (scanBegun s))) slot = orderEntry v slot := by
  have hcompared := boardsCompared_compareBoards (s := scanBegun s) hs
  obtain ⟨hkept, horders⟩ := scanTakes_kept hcompared.canonical
  refine ⟨_, hcompared, hkept, fun slot hslot => horders slot ?_⟩
  rw [psv_compareBoards]
  exact hslot

theorem firstBad_spec (m : Memory) :
    let fields : List (Nat × Prop) := [(1, (readWord m 0x204).toNat ≤ 1), (2, (readWord m 0x208).toNat ≤ 600),
      (3, (readWord m 0x20C).toNat ≤ 200000), (4, (readWord m 0x210).toNat ≤ 1000), (5, (readWord m 0x214).toNat ≤ 65535)]
      ++ allStations.map fun st => (6 + st.1, -4 ≤ trimOf m st ∧ trimOf m st ≤ 4)
    (badDirectiveField m = none ↔ ∀ c ∈ fields, c.2)
      ∧ ∀ f, badDirectiveField m = some f ↔ ∃ p, (f, p) ∈ fields ∧ ¬p ∧ ∀ c ∈ fields, c.1 < f → c.2 := by
  have hfields : [(1, (readWord m 0x204).toNat ≤ 1), (2, (readWord m 0x208).toNat ≤ 600),
      (3, (readWord m 0x20C).toNat ≤ 200000), (4, (readWord m 0x210).toNat ≤ 1000), (5, (readWord m 0x214).toNat ≤ 65535)]
      ++ (allStations.map fun st => (6 + st.1, -4 ≤ trimOf m st ∧ trimOf m st ≤ 4)) =
      (directiveFields m).map fun c => (c.1, c.2 = true) := by
    simp [directiveFields]
  dsimp only
  rw [hfields, badDirectiveField_eq]
  refine ⟨?_, fun f => ?_⟩
  · rw [firstBad_eq_none_iff, List.forall_mem_map]
  · rw [firstBad_eq_some_iff (directiveFields_sorted m), List.forall_mem_map]
    constructor
    · rintro ⟨hmem, hall⟩
      exact ⟨_, List.mem_map_of_mem hmem, Bool.false_ne_true, hall⟩
    · rintro ⟨p, hmem, hp, hall⟩
      obtain ⟨⟨n, b⟩, hc, he⟩ := List.mem_map.mp hmem
      obtain ⟨rfl, rfl⟩ := Prod.ext_iff.mp he
      exact ⟨(Bool.eq_false_iff.mpr hp) ▸ hc, hall⟩

/-- Settles O59. -/
theorem scansCompareSlotsAndReadTheDirective : Obligations.ScansCompareSlotsAndReadTheDirective := by
  refine ⟨⟨fun s hacting h => ?_, fun s hacting hruns htimer hclear => ?_, ?_⟩, ?_, fun s hacting htimer hclear => ?_, ?_, ?_⟩
  · exact leadsTo_of_whileActing (exec_exchangeScan s) hacting (takeScan_of_stopped h)
  · exact leadsTo_of_whileActing (exec_exchangeScan s) hacting ((takeScan_of_running hruns htimer).trans (if_neg hclear))
  · intro s hacting hruns htimer hclear hs batchAt orderAt batchCode orderCode batchWord orderWord terminal postedB freedB wrongB
      postedO freedO wrongO
    obtain ⟨v, hcompared, hkept, horders⟩ := scan_compares hs
    have hlead : leadsTo .exchangeScan s (scanTakes (compareBoards (scanBegun s))) :=
      leadsTo_of_whileActing (exec_exchangeScan s) hacting ((takeScan_of_running hruns htimer).trans (if_pos hclear))
    generalize scanTakes (compareBoards (scanBegun s)) = u at *
    have hbatch (slot : BatchSlot) : (u.exc.batchImages[slot], batchAt u.window slot) = batchCompared (batchEntry s slot) :=
      (congrFun hkept.batches slot).trans (hcompared.batches slot)
    have horder (slot : OrderSlot) (h : v.exc.orderImages[slot] ≠ .posted ∨ s.psv.state = .stopping ∨ s.psv.state = .recovery) :
        (u.exc.orderImages[slot], orderAt u.window slot) = orderCompared (orderEntry s slot) :=
      (horders slot h).trans (hcompared.orders slot)
    have himage (slot : OrderSlot) : v.exc.orderImages[slot] = (orderCompared (orderEntry s slot)).1 :=
      congrArg Prod.fst (hcompared.orders slot)
    have hbatchCode (image : BatchState) : batchCode image = batchStateCode image := by cases image <;> rfl
    have horderCode (image : OrderState) : orderCode image = orderStateCode image := by cases image <;> rfl
    have hwrongB (slot : BatchSlot) : wrongB slot ↔ batchMisused (batchEntry s slot) := by
      unfold wrongB
      rw [hbatchCode]
      rfl
    have hwrongO (slot : OrderSlot) : wrongO slot ↔ orderMisused (orderEntry s slot) := by
      unfold wrongO
      rw [horderCode]
      rfl
    have hevent : u.exc.misuseEvent = true ↔ s.exc.misuseEvent = true ∨ (∃ x, wrongO x) ∨ ∃ x, wrongB x := by
      rw [hkept.event, hcompared.event]
      simp only [hwrongB, hwrongO]
      rfl
    refine ⟨u, hlead, hkept.timer.trans hcompared.timer, fun slot => ⟨fun h => ?_, fun h => ?_, fun hposted hfreed => ?_⟩,
      fun slot => ⟨fun h hstate => ?_, fun h => ?_, fun hposted hfreed hstate => ?_⟩, fun slot hslot hlast => ⟨?_, ?_⟩,
      fun slot hslot hlast hnone => ⟨?_, ?_⟩, fun hnoneO hnoneB => ?_, fun hsome hclean => ?_⟩
    · exact Prod.ext_iff.mp ((hbatch slot).trans (batchCompared_of_posted (x := batchEntry s slot) h))
    · exact Prod.ext_iff.mp ((hbatch slot).trans (batchCompared_of_freed (x := batchEntry s slot) h))
    · rw [hbatchCode]
      exact Prod.ext_iff.mp ((hbatch slot).trans (batchCompared_of_neither (x := batchEntry s slot) hposted hfreed))
    · exact Prod.ext_iff.mp ((horder slot (.inr hstate)).trans (orderCompared_of_posted (x := orderEntry s slot) h))
    · have hleft := orderCompared_of_freed (x := orderEntry s slot) h
      refine Prod.ext_iff.mp ((horder slot (.inl ?_)).trans hleft)
      rw [himage, hleft]
      exact OrderState.noConfusion
    · have hleft := orderCompared_of_neither (x := orderEntry s slot) hposted hfreed
      rw [horderCode]
      refine Prod.ext_iff.mp ((horder slot (hstate.imp_left fun hne => ?_)).trans hleft)
      rw [himage, hleft]
      exact hne
    · exact hkept.misuse.trans (hcompared.lastBatch slot ((hwrongB slot).mp hslot) fun x hx => mt (hwrongB x).mpr (hlast x hx))
    · exact hevent.mpr (.inr (.inr ⟨slot, hslot⟩))
    · exact hkept.misuse.trans (hcompared.lastOrder slot ((hwrongO slot).mp hslot)
        (fun x hx => mt (hwrongO x).mpr (hlast x hx)) fun x => mt (hwrongB x).mpr (hnone x))
    · exact hevent.mpr (.inr (.inl ⟨slot, hslot⟩))
    · have hquiet := hcompared.quiet (fun x => mt (hwrongO x).mpr (hnoneO x)) fun x => mt (hwrongB x).mpr (hnoneB x)
      exact ⟨hkept.misuse.trans (congrArg MisuseTrace.record hquiet), hkept.event.trans (congrArg MisuseTrace.event hquiet)⟩
    · exact hkept.flag (hcompared.flag hclean (hkept.event.symm.trans (hevent.mpr (.inr hsome))))
  · intro s head isNew first atMost trim
    refine ⟨fun hold => readDirective_of_old hold, fun hnew hgood => ?_, rfl, fun f hnew hbad => ?_, ?_⟩
    · rw [readDirective_of_new hnew, hgood]
      rfl
    · rw [readDirective_of_new hnew, hbad]
      refine ⟨_, rfl, ?_⟩
      rcases rejectEdition_cases (readWord s.window 0x200) f s with ⟨hknown, h⟩ | ⟨hknown, h⟩
      · dsimp only
        rw [h]
        exact ⟨rfl, rfl, fun _ => rfl, rfl, rfl, rfl, rfl, fun hp => absurd (hp.symm.trans hknown) Bool.false_ne_true⟩
      · dsimp only
        rw [h]
        exact ⟨rfl, rfl, fun hp => absurd (hknown.symm.trans hp) Bool.false_ne_true, rfl, rfl, rfl, rfl, fun _ => rfl⟩
    · exact firstBad_spec s.window
  · intro compared
    have hlead {p : PartState} (h : s.psv.state = p) (hp : exchanges p = true) :
        leadsTo .exchangeScan s (scanTakes (compareBoards (scanBegun s))) :=
      leadsTo_of_whileActing (exec_exchangeScan s) hacting
        ((takeScan_of_running (exchanges_of_state h hp) htimer).trans (if_pos hclear))
    have htakes {p : PartState} (h : s.psv.state = p) : (compareBoards (scanBegun s)).psv.state = p := by
      rw [psv_compareBoards]
      exact h
    refine ⟨fun h => ?_, fun h => ?_, fun h => ?_, fun h => ?_⟩
    all_goals
      have hgo := hlead h rfl
      rw [scanTakes, htakes h] at hgo
      exact hgo
  · intro s hs u base word waits owner
    obtain ⟨hrest, hmail, himages, hroom⟩ := handOrders_spec s hs
    have hattn (slot : OrderSlot) := attn_handOrders_answered (slot := slot) hs
    have howner (slot : OrderSlot) : owner slot = orderOwner s slot := rfl
    have hwaits (slot : OrderSlot) : waits slot = (orderRoom s slot).waits := rfl
    unfold u
    generalize handOrders s = u at *
    refine ⟨hrest, hmail, himages, fun slot => ⟨fun hstill => ?_, fun hw hsome => ?_, fun hw hnone => ?_⟩⟩
    · have hsame := hroom slot
      rw [← hwaits, hstill] at hsame
      exact ⟨congrArg OrderRoom.image hsame, congrArg OrderRoom.handed hsame, fun i hi =>
        congrFun (congrArg OrderRoom.words hsame) ⟨i, hi⟩⟩
    · have hsame := hroom slot
      have hposted : (orderRoom s slot).image = .posted := of_decide_eq_true ((Bool.and_eq_true _ _).mp hw).1
      rw [← hwaits, hw, if_pos rfl, ← howner, if_neg hsome] at hsame
      exact ⟨(congrArg OrderRoom.image hsame).trans hposted, congrArg OrderRoom.handed hsame⟩
    · have hsame := hroom slot
      rw [← hwaits, hw, if_pos rfl, ← howner, if_pos hnone] at hsame
      have hwords (i : Fin 8) := congrFun (congrArg OrderRoom.words hsame) i
      have hanswered : (handedOut s slot).1.image = .answered := by
        rw [handedOut_eq, ← hwaits, hw, if_pos rfl, ← howner, hnone]
        rfl
      refine ⟨congrArg OrderRoom.image hsame, hattn slot hanswered hw, hwords 0, fun hkind => ⟨(hwords 5).trans ?_, (hwords 6).trans ?_⟩,
        fun hkind => ⟨(hwords 5).trans ?_, (hwords 6).trans ?_⟩⟩
      · rw [show (orderRoom s slot).words 1 = 4 from hkind]
        rfl
      · rw [show (orderRoom s slot).words 1 = 4 from hkind]
        rfl
      · rw [unowned, if_neg (show ¬(orderRoom s slot).words 1 = 4 from hkind)]
        rfl
      · rw [unowned, if_neg (show ¬(orderRoom s slot).words 1 = 4 from hkind)]
        rfl
  · intro s cs word number
    refine ⟨mem_sortedCandidates s, nodup_sortedCandidates s, (sortedCandidates_spec s).2, fun h => ?_, fun h => ?_,
      stillPosted_iff s, fun before slot rest hsplit hbefore hslot => ?_, handNext_of_none⟩
    · exact if_pos ((handoverWaits_iff s).mpr h)
    · refine if_neg fun hp => ?_
      obtain ⟨slot, q, hc⟩ := (handoverWaits_iff s).mp hp
      exact h slot q hc
    · rw [handNext_of_split hsplit hbefore hslot, readRequest_eq]

end Sys2Proof.Machine
end

section
/-! PROOF. Publications (08 R156, R157). -/

namespace Sys2Proof.Machine

open Sys2Proof

/-! ## The body shows the state (11, Status Page) -/

/-- The body does not show the publication itself, nor the attention. -/
theorem statusBody_congr {s t : State} (hrest : t = { s with exc := t.exc, window := t.window, mail := t.mail })
    (hedition : t.exc.edition = s.exc.edition) (hrejected : t.exc.lastRejected = s.exc.lastRejected)
    (hfield : t.exc.badField = s.exc.badField) (hmisuse : t.exc.misuse = s.exc.misuse)
    (hevent : t.exc.misuseEvent = s.exc.misuseEvent) (hbad : t.exc.directiveBad = s.exc.directiveBad) :
    statusBody t = statusBody s := by
  have hstations : stationRecord t = stationRecord s := by
    rw [hrest]
    rfl
  have hsectors : sectorRecord t = sectorRecord s := by
    rw [hrest]
    rfl
  have hevents : rigEvents t = rigEvents s := by
    rw [rigEvents, hevent, hbad, hrest]
    rfl
  have hrig : rigNamed t = rigNamed s := by
    rw [rigNamed, hevents, hedition, hrejected, hfield, hmisuse, hrest]
    rfl
  rw [statusBody, rigRecord, hstations, hsectors, hrig]
  rfl

theorem readWord_publishedWindow_body {s : State} {edition : Word} {i : Nat} {w : Word} (h : (statusBody s)[i]? = some w) :
    readWord (publishedWindow s edition) (0x4004 + 4 * i) = w := by
  have hi : i < 3135 := length_statusBody s ▸ (List.getElem?_eq_some_iff.mp h).1
  rw [← readWord_writeWords (writeWord s.window statusHead edition) statusBodyStart h]
  refine readWord_congr fun a hlow hhigh => ?_
  rw [publishedWindow, readByte_clearBytes, if_neg]
  simp only [statusUnnamed, statusTail]
  omega

/-- What a publication writes, `s` being what it shows and `t` the state it begins in. -/
theorem beginPublication_shows {s t : State} (ht : windowCanonical t) (hbody : statusBody t = statusBody s) :
    readWord (beginPublication t).window 0x4000 = nextEdition t.exc.statusEdition
      ∧ (∀ i w, (statusBody s)[i]? = some w → readWord (beginPublication t).window (0x4004 + 4 * i) = w)
      ∧ (∀ a, 0x7100 ≤ a → a < 0x7FFC → readByte (beginPublication t).window a = 0)
      ∧ ∀ a, a < 0x4000 ∨ 0x7FFC ≤ a → readByte (beginPublication t).window a = readByte t.window a := by
  have hsame : statusBody (onExc (fun x => { x with
      statusEdition := nextEdition t.exc.statusEdition, publication := some (nextEdition t.exc.statusEdition) }) t) = statusBody s :=
    (statusBody_congr rfl rfl rfl rfl rfl rfl rfl).trans hbody
  refine ⟨?_, fun i w h => ?_, fun a hlow hhigh => ?_, fun a ha => readByte_beginPublication ht ha⟩
  · rw [beginPublication_window]
    exact readWord_publishedWindow_head _ (s := onExc _ t) ht
  · rw [beginPublication_window]
    exact readWord_publishedWindow_body (hsame ▸ h)
  · rw [beginPublication_window]
    exact readByte_publishedWindow_unnamed _ _ hlow hhigh

end Sys2Proof.Machine
end

section
/-! PROOF. A publication begins, is deferred, and ends (08 R156, R157). -/

namespace Sys2Proof.Machine

open Sys2Proof

/-! ## The timer (08 R156) -/

theorem takePublishExpiry_of_idle {s : State} (h : exchanges s.psv.state = false ∨ s.exc.publishTimer = none) :
    takePublishExpiry s = s := by
  refine if_neg fun hp => ?_
  obtain ⟨hexchanges, hset⟩ := Bool.and_eq_true_iff.mp hp
  obtain hoff | hnone := h
  · exact Bool.noConfusion (hoff.symm.trans hexchanges)
  · rw [hnone] at hset
    exact Bool.noConfusion hset

section
variable {s : State} (hexchanges : exchanges s.psv.state = true) (htimer : s.exc.publishTimer ≠ none)

include hexchanges htimer

theorem publishExpiry_taken : (exchanges s.psv.state && s.exc.publishTimer.isSome) = true :=
  Bool.and_eq_true_iff.mpr ⟨hexchanges, Option.isSome_iff_ne_none.mpr htimer⟩

theorem takePublishExpiry_of_busy (h : s.exc.publication ≠ none ∨ s.exc.clearStage ≠ .none) :
    takePublishExpiry s = onExc (fun e => { e with deferred := true }) (startPublishTimer s) := by
  refine (if_pos (publishExpiry_taken hexchanges htimer)).trans (if_pos ?_)
  rw [Bool.or_eq_true, decide_eq_true_iff, Option.isSome_iff_ne_none]
  exact h

theorem takePublishExpiry_of_free (hpublication : s.exc.publication = none) (hclear : s.exc.clearStage = .none) :
    takePublishExpiry s = beginPublication (startPublishTimer s) := by
  refine (if_pos (publishExpiry_taken hexchanges htimer)).trans (if_neg ?_)
  rw [Bool.or_eq_true, decide_eq_true_iff, Option.isSome_iff_ne_none]
  exact fun hor => hor.elim (fun h => h hpublication) fun h => h hclear

end

/-! ## The end (08 R156, R157) -/

/-- What the count towards PUBLISH leaves of a controller whose publication ended. -/
def countedExc (e : Exc) : Exc :=
  if e.attnPace ≠ 0 ∧ e.attnPace ≤ e.postscaler + 1
  then { e with publication := none, postscaler := 0, attn := e.attn ||| 0x10#6
                attnLine := decide ((e.attn ||| 0x10#6) &&& ~~~e.attnMask ≠ 0) }
  else { e with publication := none, postscaler := min 16 (e.postscaler + 1) }

theorem publicationOver_eq (e : Word) (s : State) : publicationOver e s =
    { s with exc := countedExc s.exc, window := writeWord s.window statusTail e } := by
  unfold publicationOver countPublication countedExc
  by_cases h : s.exc.attnPace ≠ 0 ∧ s.exc.attnPace ≤ s.exc.postscaler + 1
  · rw [if_pos h]
    exact if_pos (by exact h)
  · rw [if_neg h]
    exact if_neg (by exact h)

/-- The count towards PUBLISH leaves what a publication shows, its edition, and whether another waits. -/
theorem countedExc_kept (e : Exc) : countedExc e = { e with
    publication := none, postscaler := (countedExc e).postscaler, attn := (countedExc e).attn
    attnLine := (countedExc e).attnLine } := by
  unfold countedExc
  split <;> rfl

theorem afterPublication_of_still {s : State} (h : s.exc.clearStage = .begun ∨ (s.exc.clearStage = .none ∧ s.exc.deferred = false)) :
    afterPublication s = s := by
  obtain hbegun | ⟨hnone, hdeferred⟩ := h
  · simp [afterPublication, hbegun]
  · simp [afterPublication, hnone, hdeferred]

theorem afterPublication_of_deferred {s : State} (h : s.exc.clearStage = .none) (hdeferred : s.exc.deferred = true) :
    afterPublication s = beginPublication (onExc (fun e => { e with deferred := false }) s) := by
  simp [afterPublication, h, hdeferred]

/-- Behind a CLEAR's own publication a deferred one follows. -/
theorem afterPublication_of_publishing_deferred {s : State} (h : s.exc.clearStage = .publishing) (hdeferred : s.exc.deferred = true) :
    afterPublication s = beginPublication (onExc (fun e => { e with deferred := false })
      (send (.clearDone .exc) (onExc (fun e => { e with clearStage := .none }) s))) := by
  simp [afterPublication, h, hdeferred]

/-- A publication that begins over a window with the tail of the one before it written. -/
theorem beginPublication_behind {s t : State} {edition : Word} (hs : windowCanonical s)
    (hwindow : t.window = writeWord s.window statusTail edition) (hbody : statusBody t = statusBody s) :
    readWord (beginPublication t).window 0x7FFC = edition
      ∧ readWord (beginPublication t).window 0x4000 = nextEdition t.exc.statusEdition
      ∧ (∀ i w, (statusBody s)[i]? = some w → readWord (beginPublication t).window (0x4004 + 4 * i) = w)
      ∧ (∀ a, 0x7100 ≤ a → a < 0x7FFC → readByte (beginPublication t).window a = 0)
      ∧ ∀ a, a < 0x4000 ∨ 0x8000 ≤ a → readByte (beginPublication t).window a = readByte s.window a := by
  have ht : windowCanonical t := by
    rw [windowCanonical, hwindow]
    exact wf_writeWord statusTail edition hs
  obtain ⟨hhead, hshown, hunnamed, hkept⟩ := beginPublication_shows ht hbody
  refine ⟨?_, hhead, hshown, hunnamed, fun a ha => ?_⟩
  · rw [readWord_congr fun a hlow _ => hkept a (.inr hlow), hwindow]
    exact readWord_writeWord hs statusTail edition
  · rw [hkept a (by omega), hwindow, readByte_writeWord hs, if_neg]
    rw [statusTail]
    omega

theorem publishTimerExpiry_does {s : State} (hacting : acting s = true) (hs : windowCanonical s) :
    let c : Instr := .publishTimerExpiry
    let edition : Word := if s.exc.statusEdition = 0xFFFFFFFF#32 then 1 else s.exc.statusEdition + 1
    let timer : Option Timer := some ⟨s.tmb.fineTime, 1000 * s.psv.rig.publishInterval⟩
    ((exchanges s.psv.state = false ∨ s.exc.publishTimer = none) → leadsTo c s (took c s))
    ∧ (exchanges s.psv.state = true → s.exc.publishTimer ≠ none → (s.exc.publication ≠ none ∨ s.exc.clearStage ≠ .none) →
        leadsTo c s { took c s with exc := { s.exc with publishTimer := timer, deferred := true } })
    ∧ (exchanges s.psv.state = true → s.exc.publishTimer ≠ none → s.exc.publication = none → s.exc.clearStage = .none → ∃ u, leadsTo c s u
        ∧ u.exc = { s.exc with publishTimer := timer, statusEdition := edition, publication := some edition }
        ∧ u.mail = (s.mail.erase c) ++ [.publicationEnd]
        ∧ readWord u.window 0x4000 = edition
        ∧ (∀ i w, (statusBody s)[i]? = some w → readWord u.window (0x4004 + 4 * i) = w)
        ∧ (∀ a, 0x7100 ≤ a → a < 0x7FFC → readByte u.window a = 0)
        ∧ (∀ a, a < 0x4000 ∨ 0x7FFC ≤ a → readByte u.window a = readByte s.window a)) := by
  intro c edition timer
  have htaken {t : State} (e : takePublishExpiry (took c s) = t) : leadsTo c s t :=
    leadsTo_of_taking (exec_publishTimerExpiry s) hacting e
  refine ⟨fun hidle => htaken (takePublishExpiry_of_idle (by exact hidle)), fun hexchanges htimer hbusy =>
    htaken (takePublishExpiry_of_busy (s := took c s) hexchanges htimer hbusy), fun hexchanges htimer hpublication hclear => ?_⟩
  have hbody : statusBody (startPublishTimer (took c s)) = statusBody s :=
    statusBody_congr rfl rfl rfl rfl rfl rfl rfl
  obtain ⟨hhead, hshown, hunnamed, hkept⟩ := beginPublication_shows (t := startPublishTimer (took c s)) hs hbody
  have hedition : nextEdition (startPublishTimer (took c s)).exc.statusEdition = edition := nextEdition_eq _
  refine ⟨_, htaken (takePublishExpiry_of_free (s := took c s) hexchanges htimer hpublication hclear), ?_, rfl,
    hhead.trans hedition, hshown, hunnamed, hkept⟩
  rw [beginPublication_eq, ← hedition]
  rfl

theorem publicationEnd_does {s : State} (hacting : acting s = true) (hs : windowCanonical s) :
    let c : Instr := .publicationEnd
    let next : Word := if s.exc.statusEdition = 0xFFFFFFFF#32 then 1 else s.exc.statusEdition + 1
    let counted : Exc := countedExc s.exc
    let begins (u : State) : Prop := readWord u.window 0x4000 = next
      ∧ (∀ i w, (statusBody s)[i]? = some w → readWord u.window (0x4004 + 4 * i) = w)
      ∧ (∀ a, 0x7100 ≤ a → a < 0x7FFC → readByte u.window a = 0)
      ∧ ∀ a, a < 0x4000 ∨ 0x8000 ≤ a → readByte u.window a = readByte s.window a
    (s.exc.publication = none → leadsTo c s (took c s))
    ∧ ∀ edition, s.exc.publication = some edition →
      ((s.exc.clearStage = .begun ∨ (s.exc.clearStage = .none ∧ s.exc.deferred = false)) → ∃ u, leadsTo c s u
        ∧ u = { took c s with exc := counted, window := u.window } ∧ readWord u.window 0x7FFC = edition
        ∧ ∀ a, a < 0x7FFC ∨ 0x8000 ≤ a → readByte u.window a = readByte s.window a)
      ∧ (s.exc.clearStage = .none → s.exc.deferred = true → ∃ u, leadsTo c s u
        ∧ u = { took c s with
            exc := { counted with deferred := false, statusEdition := next, publication := some next }
            window := u.window, mail := (s.mail.erase c) ++ [.publicationEnd] }
        ∧ readWord u.window 0x7FFC = edition ∧ begins u)
      ∧ (s.exc.clearStage = .publishing → s.exc.deferred = true → ∃ u, leadsTo c s u
        ∧ u = { took c s with
            exc := { counted with clearStage := .none, deferred := false, statusEdition := next, publication := some next }
            window := u.window, mail := (s.mail.erase c) ++ [.clearDone .exc, .publicationEnd] }
        ∧ readWord u.window 0x7FFC = edition ∧ begins u) := by
  intro c next counted begins
  have htaken {t : State} (e : takePublicationEnd (took c s) = t) : leadsTo c s t :=
    leadsTo_of_taking (exec_publicationEnd s) hacting e
  have hcounted := countedExc_kept s.exc
  have hnext : nextEdition s.exc.statusEdition = next := nextEdition_eq _
  have hstage : counted.clearStage = s.exc.clearStage := (congrArg Exc.clearStage hcounted :)
  have hstays : counted.deferred = s.exc.deferred := (congrArg Exc.deferred hcounted :)
  have hagain : nextEdition counted.statusEdition = next := (congrArg (fun e => nextEdition e.statusEdition) hcounted :).trans hnext
  refine ⟨fun hnone => htaken ?_, fun edition hsome => ?_⟩
  · simp [takePublicationEnd, hnone]
  have hover {t : State} (e : afterPublication { took c s with exc := counted, window := writeWord s.window statusTail edition } = t) :
      leadsTo c s t := by
    refine htaken ((takePublicationEnd_of_some (s := took c s) hsome).trans ?_)
    rw [publicationOver_eq]
    exact e
  have hbody {t : State} (hrest : t = { s with exc := t.exc, window := t.window, mail := t.mail })
      (hexc : t.exc = { counted with deferred := false, clearStage := t.exc.clearStage }) : statusBody t = statusBody s := by
    refine statusBody_congr hrest ?_ ?_ ?_ ?_ ?_ ?_ <;> (rw [hexc, show counted = _ from hcounted])
  refine ⟨fun hstill => ⟨_, hover (afterPublication_of_still ?_), rfl, readWord_writeWord hs statusTail edition, fun a ha => ?_⟩,
    fun hclear hdeferred => ?_, fun hclear hdeferred => ?_⟩
  · exact hstill.imp hstage.trans fun h => ⟨hstage.trans h.1, hstays.trans h.2⟩
  · rw [readByte_writeWord hs, if_neg]
    rw [statusTail]
    omega
  · obtain ⟨htail, hhead, hshown, hunnamed, hkept⟩ := beginPublication_behind (edition := edition) hs
      (t := onExc (fun e => { e with deferred := false }) { took c s with exc := counted, window := writeWord s.window statusTail edition })
      rfl (hbody rfl rfl)
    refine ⟨_, hover (afterPublication_of_deferred (hstage.trans hclear) (hstays.trans hdeferred)), ?_, htail,
      hhead.trans hagain, hshown, hunnamed, hkept⟩
    rw [beginPublication_eq, ← hagain]
    rfl
  · obtain ⟨htail, hhead, hshown, hunnamed, hkept⟩ := beginPublication_behind (edition := edition) hs
      (t := onExc (fun e => { e with deferred := false }) (send (.clearDone .exc) (onExc (fun e => { e with clearStage := .none })
        { took c s with exc := counted, window := writeWord s.window statusTail edition })))
      rfl (hbody rfl rfl)
    refine ⟨_, hover (afterPublication_of_publishing_deferred (hstage.trans hclear) (hstays.trans hdeferred)), ?_, htail,
      hhead.trans hagain, hshown, hunnamed, hkept⟩
    rw [List.append_cons _ (Instr.clearDone .exc) [Instr.publicationEnd], beginPublication_eq, ← hagain]
    rfl

end Sys2Proof.Machine
end

section
/-! SUPPORT. The words of the Status Page's body by their places (11, Status Page). -/

namespace Sys2Proof.Machine

open Sys2Proof

/-- The word at a place of the body. -/
def shows (s : State) (i : Nat) (w : Word) : Prop := (statusBody s)[i]? = some w

/-- Places of the body without a name. -/
def showsZeros (s : State) (i n : Nat) : Prop := ∀ x, i ≤ x → x < i + n → shows s x 0

/-- A word of flags, by what its bits say. -/
def showsFlags (s : State) (i : Nat) (ps : List Prop) : Prop :=
  ∃ w, shows s i w ∧ ∀ n, w.getLsbD n = true ↔ ∃ p, ps[n]? = some p ∧ p

/-! ## Flags -/

/-- Flags by their positions, as a number. -/
def flagsNat : List Bool → Nat
  | [] => 0
  | b :: bs => flagNat b + 2 * flagsNat bs

theorem testBit_flagsNat (bs : List Bool) (n : Nat) : (flagsNat bs).testBit n = true ↔ bs[n]? = some true := by
  induction bs generalizing n with
  | nil => simp [flagsNat]
  | cons b bs ih =>
    cases n with
    | zero => cases b <;> simp [flagsNat, flagNat, Nat.testBit_zero]
    | succ n =>
      have hhalf : (flagNat b + 2 * flagsNat bs) / 2 = flagsNat bs := by
        cases b with
        | false => simp [flagNat]
        | true =>
          simp [flagNat]
          omega
      rw [flagsNat, Nat.testBit_succ, hhalf, List.getElem?_cons_succ]
      exact ih n

theorem getLsbD_flagsWord {bs : List Bool} (h : bs.length ≤ 32) (n : Nat) :
    (natWord (flagsNat bs)).getLsbD n = true ↔ bs[n]? = some true := by
  rw [natWord, BitVec.getLsbD_ofNat, Bool.and_eq_true, decide_eq_true_iff, testBit_flagsNat]
  refine ⟨fun hn => hn.2, fun hn => ⟨?_, hn⟩⟩
  have := (List.getElem?_eq_some_iff.mp hn).1
  omega

theorem getElem?_eq_some_true_iff {bs : List Bool} {ps : List Prop} (h : List.Forall₂ (fun b p => b = true ↔ p) bs ps) (n : Nat) :
    bs[n]? = some true ↔ ∃ p, ps[n]? = some p ∧ p := by
  induction h generalizing n with
  | nil => simp
  | cons hbp _ ih =>
    cases n with
    | zero => exact ⟨fun h => ⟨_, rfl, hbp.mp (Option.some.inj h)⟩, fun ⟨_, h, hp⟩ => congrArg some (hbp.mpr (Option.some.inj h ▸ hp))⟩
    | succ n => simpa using ih n

theorem showsFlags_of_natWord {s : State} {i : Nat} {bs : List Bool} {ps : List Prop} (hlength : bs.length ≤ 32)
    (h : shows s i (natWord (flagsNat bs))) (hall : List.Forall₂ (fun b p => b = true ↔ p) bs ps) : showsFlags s i ps :=
  ⟨_, h, fun n => (getLsbD_flagsWord hlength n).trans (getElem?_eq_some_true_iff hall n)⟩

/-! ## Bytes -/

theorem toNat_bytesWord (b0 b1 b2 b3 : Nat) : (bytesWord b0 b1 b2 b3).toNat =
    ((b3 % 256 * 256 + b2 % 256) * 256 + b1 % 256) * 256 + b0 % 256 := by
  simp only [bytesWord, toNat_append_eq, BitVec.toNat_ofNat]
  rfl

theorem wordByte_bytesWord (b0 b1 b2 b3 : Nat) : wordByte (bytesWord b0 b1 b2 b3) 0 = BitVec.ofNat 8 b0
    ∧ wordByte (bytesWord b0 b1 b2 b3) 1 = BitVec.ofNat 8 b1 ∧ wordByte (bytesWord b0 b1 b2 b3) 2 = BitVec.ofNat 8 b2
    ∧ wordByte (bytesWord b0 b1 b2 b3) 3 = BitVec.ofNat 8 b3 := by
  simp only [wordByte, BitVec.toNat_eq, BitVec.extractLsb'_toNat, toNat_bytesWord, BitVec.toNat_ofNat, Nat.shiftRight_eq_div_pow]
  omega

theorem bytesWord_zero : bytesWord 0 0 0 0 = 0 := by decide

/-! ## The records in the body -/

theorem length_rigRecord (s : State) : (rigRecord s).length = 63 := length_recordWords _ _

theorem length_stationRecords (s : State) : (allStations.flatMap (stationRecord s)).length = 1024 := by
  rw [length_flatMap_const (stationRecord s) fun st => length_recordWords _ _]
  rfl

theorem shows_rig {s : State} {i : Nat} (h : i < 63) : shows s i ((rigNamed s)[i]?.getD 0) := by
  have hrig : i < (rigRecord s).length := length_rigRecord s ▸ h
  rw [shows, statusBody, List.append_assoc, List.getElem?_append_left hrig]
  exact getElem?_recordWords _ h

theorem getElem?_allStations (st : Station) : allStations[st.1]? = some st := by simp [allStations]

theorem getElem?_allSectors (k : Sector) : allSectors[k.1]? = some k := by simp [allSectors]

theorem statusBody_station (s : State) (st : Station) {i : Nat} (h : i < 16) :
    (statusBody s)[63 + 16 * st.1 + i]? = (stationRecord s st)[i]? := by
  have hst := st.2
  rw [statusBody, List.append_assoc, List.getElem?_append_right (by rw [length_rigRecord]; omega), length_rigRecord,
    List.getElem?_append_left (by rw [length_stationRecords]; omega), show 63 + 16 * st.1 + i - 63 = 16 * st.1 + i by omega,
    getElem?_flatMap_const (f := stationRecord s) (fun x => length_recordWords 16 _) allStations st.1 h, getElem?_allStations]
  rfl

theorem statusBody_sector (s : State) (k : Sector) {i : Nat} (h : i < 128) :
    (statusBody s)[63 + 16 * 64 + 128 * k.1 + i]? = (sectorRecord s k)[i]? := by
  have hk := k.2
  rw [statusBody, List.append_assoc, List.getElem?_append_right (by rw [length_rigRecord]; omega), length_rigRecord,
    List.getElem?_append_right (by rw [length_stationRecords]; omega), length_stationRecords,
    show 63 + 16 * 64 + 128 * k.1 + i - 63 - 1024 = 128 * k.1 + i by omega,
    getElem?_flatMap_const (length_sectorRecord s) allSectors k.1 h, getElem?_allSectors]
  rfl

theorem showsZeros_of {s : State} {base n m : Nat} {ws : List Word}
    (hat : ∀ i, i < n → shows s (base + i) (ws[i]?.getD 0)) {i : Nat} (hws : ws.length ≤ i) (hn : i + m ≤ n) :
    showsZeros s (base + i) m := by
  intro x hlow hhigh
  have hx := hat (x - base) (by omega)
  rw [List.getElem?_eq_none (by omega), Nat.add_sub_cancel' (by omega)] at hx
  exact hx

end Sys2Proof.Machine
end

section
/-! PROOF. The rig record and the station records show the state (11, Rig record, Station record; 04 R52; 08 R152). -/

namespace Sys2Proof.Machine

open Sys2Proof

/-! ## The least and the greatest effective count (04 R52, R60) -/

theorem leastOf_of_least {l : List Int} {z : Int} (hmem : z ∈ l) (hle : ∀ x ∈ l, z ≤ x) : leastOf l = some z := by
  cases h : leastOf l with
  | none => exact absurd hmem ((leastOf_none_iff l).mp h ▸ List.not_mem_nil)
  | some m =>
    obtain ⟨hm, hleast⟩ := leastOf_spec h
    exact congrArg some (Int.le_antisymm (hleast z hmem) (hle m hm))

/-- The greatest is the least of what is turned about. -/
theorem greatestOf_eq (l : List Int) : greatestOf l = (leastOf (l.map fun z => -z)).map fun z => -z := by
  induction l with
  | nil => rfl
  | cons z l ih =>
    rw [greatestOf, ih, List.map_cons, leastOf]
    cases leastOf (l.map fun z => -z) with
    | none => simp
    | some m =>
      simp only [Option.map_some, Option.some.injEq]
      omega

theorem greatestOf_of_greatest {l : List Int} {z : Int} (hmem : z ∈ l) (hle : ∀ x ∈ l, x ≤ z) : greatestOf l = some z := by
  rw [greatestOf_eq, leastOf_of_least (z := -z) (List.mem_map_of_mem hmem)]
  · rw [Option.map_some, Int.neg_neg]
  · intro x hx
    obtain ⟨y, hy, rfl⟩ := List.mem_map.mp hx
    have := hle y hy
    omega

theorem mem_effective_iff (s : State) (z : Int) : z ∈ (activeStations s).map (effectiveCount s) ↔
    ∃ x, (recordOf s x).service = .active ∧ effectiveCount s x = z := by
  simp only [List.mem_map, mem_activeStations]

theorem minEffective_of_least {s : State} {st : Station} (h : (recordOf s st).service = .active)
    (hle : ∀ x, (recordOf s x).service = .active → effectiveCount s st ≤ effectiveCount s x) :
    minEffective s = some (effectiveCount s st) := by
  refine leastOf_of_least ((mem_effective_iff s _).mpr ⟨st, h, rfl⟩) fun z hz => ?_
  obtain ⟨x, hx, rfl⟩ := (mem_effective_iff s z).mp hz
  exact hle x hx

theorem maxEffective_of_greatest {s : State} {st : Station} (h : (recordOf s st).service = .active)
    (hle : ∀ x, (recordOf s x).service = .active → effectiveCount s x ≤ effectiveCount s st) :
    maxEffective s = some (effectiveCount s st) := by
  refine greatestOf_of_greatest ((mem_effective_iff s _).mpr ⟨st, h, rfl⟩) fun z hz => ?_
  obtain ⟨x, hx, rfl⟩ := (mem_effective_iff s z).mp hz
  exact hle x hx

theorem maxEffective_of_none {s : State} (h : ∀ x, (recordOf s x).service ≠ .active) : maxEffective s = none := by
  have hnone : activeStations s = [] :=
    List.eq_nil_iff_forall_not_mem.mpr fun x hx => h x ((mem_activeStations s x).mp hx)
  rw [maxEffective, hnone]
  rfl

/-! ## The rig record (11, Rig record) -/

theorem shows_rigNamed {s : State} {i : Nat} {w : Word} (hi : i < 63) (h : (rigNamed s)[i]? = some w) : shows s i w := by
  have hat := shows_rig (s := s) hi
  rw [h] at hat
  exact hat

/-- The places of the rig record before and behind the portion or waste in flight. -/
theorem rigNamed_eq (s : State) {slot volume opened : Word} (h : flightWords s = [slot, volume, opened]) : rigNamed s =
    [bytesWord (partStateCode s.psv.state) (climbCode s.wvc.climb) (gateBytes s.fds.gate).1 (gateBytes s.fds.gate).2,
     s.wvc.holds.setWidth 32, s.wvc.waveNumber, nextStartWord s,
     intWord ((minEffective s).getD 0), intWord ((maxEffective s).getD 0),
     s.exc.edition, s.exc.lastRejected, natWord s.exc.badField, slot, volume, opened,
     natWord s.fds.line.length, lineWord s.fds.line,
     natWord (flagNat s.fds.paused + 2 * flagNat s.tmb.clockValid), site s,
     (rigEvents s).setWidth 32, misuseWord s.exc.misuse, rigCheckWord s.psv.rigCheck] := by
  rw [rigNamed, h]
  rfl

theorem exists_flightWords (s : State) : ∃ slot volume opened, flightWords s = [slot, volume, opened] := by
  unfold flightWords
  split <;> exact ⟨_, _, _, rfl⟩

/-- The gate, and what is in flight (07 R142). -/
theorem shows_gate {s : State} {code sector slot volume : Nat} {opened : Word} (hgate : gateBytes s.fds.gate = (code, sector))
    (h : flightWords s = [bytesWord slot 0 0 0, natWord volume, opened]) :
    shows s 0 (bytesWord (partStateCode s.psv.state) (climbCode s.wvc.climb) code sector)
      ∧ shows s 9 (bytesWord slot 0 0 0) ∧ shows s 10 (natWord volume) ∧ shows s 11 opened := by
  have hat := rigNamed_eq s h
  rw [hgate] at hat
  refine ⟨?_, ?_, ?_, ?_⟩ <;> exact shows_rigNamed (by decide) (by rw [hat]; rfl)

theorem flightWords_of_run {s : State} {g : GateRun} (h : runOf s.fds.gate = some g) :
    flightWords s = [bytesWord g.slot.1 0 0 0, natWord g.volume, s.tmb.fineTime - g.openedAt] := by
  unfold flightWords
  rw [h]
  rfl

theorem flightWords_of_idle {s : State} (h : s.fds.gate = .idle) : flightWords s = [bytesWord 255 0 0 0, natWord 0, 0] := by
  unfold flightWords
  rw [h]
  rfl

theorem nextStartWord_eq (s : State) : nextStartWord s = if s.wvc.values.riseRate = 0 then 0xFFFFFFFF#32
    else natWord (s.psv.rig.strokeLength * 3600000 / s.wvc.values.riseRate - s.wvc.dwell) := by
  unfold nextStartWord wavePeriod
  split_ifs <;> rfl

/-- The feed line's slot indices, none where the line is shorter. -/
theorem wordByte_lineWord (slots : List BatchSlot) {i : Nat} (h : i < 4) :
    wordByte (lineWord slots) i = slots[i]?.elim 0xFF#8 fun slot => BitVec.ofNat 8 slot.1 := by
  have hbyte (x : Option BatchSlot) : BitVec.ofNat 8 (match x with | some slot => slot.1 | none => absentByte) =
      x.elim 0xFF#8 fun slot => BitVec.ofNat 8 slot.1 := by
    cases x <;> rfl
  unfold lineWord
  interval_cases i
  · exact (wordByte_bytesWord _ _ _ _).1.trans (hbyte _)
  · exact (wordByte_bytesWord _ _ _ _).2.1.trans (hbyte _)
  · exact (wordByte_bytesWord _ _ _ _).2.2.1.trans (hbyte _)
  · exact (wordByte_bytesWord _ _ _ _).2.2.2.trans (hbyte _)

theorem rigEvents_flags (s : State) : (rigEvents s).setWidth 32 = natWord (flagsNat
    [s.exc.misuseEvent, s.exc.directiveBad, s.tmb.clockLost, s.lbp.probeBus, s.psv.repeatedOutage]) := by
  unfold rigEvents
  generalize s.exc.misuseEvent = a, s.exc.directiveBad = b, s.tmb.clockLost = c, s.lbp.probeBus = d, s.psv.repeatedOutage = e
  cases a <;> cases b <;> cases c <;> cases d <;> cases e <;> decide

/-- The words of the rig record that do not tell of the gate, by their places. -/
theorem shows_rigWords (s : State) :
    shows s 1 (s.wvc.holds.setWidth 32) ∧ shows s 2 s.wvc.waveNumber ∧ shows s 3 (nextStartWord s)
      ∧ shows s 4 (intWord ((minEffective s).getD 0)) ∧ shows s 5 (intWord ((maxEffective s).getD 0))
      ∧ shows s 6 s.exc.edition ∧ shows s 7 s.exc.lastRejected ∧ shows s 8 (natWord s.exc.badField)
      ∧ shows s 12 (natWord s.fds.line.length) ∧ shows s 13 (lineWord s.fds.line)
      ∧ shows s 14 (natWord (flagsNat [s.fds.paused, s.tmb.clockValid])) ∧ shows s 15 s.tmb.siteSeconds
      ∧ shows s 16 ((rigEvents s).setWidth 32) ∧ shows s 17 (misuseWord s.exc.misuse)
      ∧ shows s 18 (rigCheckWord s.psv.rigCheck) ∧ showsZeros s 19 44 := by
  obtain ⟨slot, volume, opened, h⟩ := exists_flightWords s
  have hat {i : Nat} {w : Word} := shows_rigNamed (s := s) (i := i) (w := w)
  have hlength : (rigNamed s).length = 19 := congrArg List.length (rigNamed_eq s h)
  have hzeros : showsZeros s (0 + 19) 44 := showsZeros_of (n := 63) (ws := rigNamed s)
    (fun i hi => (Nat.zero_add i).symm ▸ shows_rig hi) (Nat.le_of_eq hlength) (by decide)
  rw [rigNamed_eq s h] at hat
  refine ⟨?_, ?_, ?_, ?_, ?_, ?_, ?_, ?_, ?_, ?_, ?_, ?_, ?_, ?_, ?_, hzeros⟩ <;> exact hat (by decide) rfl

theorem shows_rigRecord (s : State) :
    let word (i : Nat) (w : Word) : Prop := shows s i w
    let bytes (a b c d : Nat) : Word := BitVec.ofNat 8 d ++ BitVec.ofNat 8 c ++ BitVec.ofNat 8 b ++ BitVec.ofNat 8 a
    let effective (st : Station) : Int := ((recordOf s st).count : Int) - s.wvc.values.trims[st]
    let active (st : Station) : Prop := (recordOf s st).service = .active
    let gate (code sector slot volume : Nat) (opened : Word) : Prop :=
      word 0 (bytes (partStateCode s.psv.state) (climbCode s.wvc.climb) code sector)
      ∧ word 9 (bytes slot 0 0 0) ∧ word 10 (natWord volume) ∧ word 11 opened
    let shown : Prop :=
      (s.fds.gate = .idle → gate 0 255 255 0 0)
      ∧ (∀ k g, s.fds.gate = .drop k g → gate 1 k.1 g.slot.1 g.volume (s.tmb.fineTime - g.openedAt))
      ∧ (∀ g cause, s.fds.gate = .waste g cause → gate 2 255 g.slot.1 g.volume (s.tmb.fineTime - g.openedAt))
    let deck : Prop :=
      ((∀ x, ¬active x) → word 4 0 ∧ word 5 0)
      ∧ ∀ st, active st → ((∀ x, active x → effective st ≤ effective x) → word 4 (intWord (effective st)))
        ∧ ((∀ x, active x → effective x ≤ effective st) → word 5 (intWord (effective st)))
    shown ∧ deck ∧ word 1 (s.wvc.holds.setWidth 32) ∧ word 2 s.wvc.waveNumber
      ∧ (s.wvc.values.riseRate = 0 → word 3 0xFFFFFFFF#32)
      ∧ (s.wvc.values.riseRate ≠ 0 →
          word 3 (natWord (s.psv.rig.strokeLength * 3600000 / s.wvc.values.riseRate - s.wvc.dwell)))
      ∧ word 6 s.exc.edition ∧ word 7 s.exc.lastRejected ∧ word 8 (natWord s.exc.badField)
      ∧ word 12 (natWord s.fds.line.length)
      ∧ (∃ w, word 13 w ∧ ∀ i, i < 4 → wordByte w i = s.fds.line[i]?.elim 0xFF#8 fun slot => BitVec.ofNat 8 slot.1)
      ∧ showsFlags s 14 [s.fds.paused = true, s.tmb.clockValid = true] ∧ word 15 s.tmb.siteSeconds
      ∧ showsFlags s 16 [s.exc.misuseEvent = true, s.exc.directiveBad = true, s.tmb.clockLost = true, s.lbp.probeBus = true,
          s.psv.repeatedOutage = true]
      ∧ (s.exc.misuse = none → word 17 0)
      ∧ (∀ i, (s.exc.misuse = some (.order, i) → word 17 (bytes 1 i 0 0))
          ∧ (s.exc.misuse = some (.batch, i) → word 17 (bytes 2 i 0 0)))
      ∧ (s.psv.rigCheck = none → word 18 0)
      ∧ (∀ o f, s.psv.rigCheck = some (o, f) → word 18 (bytes (commandOutcomeCode o) f 0 0))
      ∧ showsZeros s 19 44 := by
  intro word bytes effective active gate shown deck
  obtain ⟨hholds, hwave, hnext, hmin, hmax, hedition, hrejected, hfield, hline, hslots, hpaused, hsite, hevents, hmisuse,
    hcheck, hzeros⟩ := shows_rigWords s
  have hshown : shown := by
    refine ⟨fun hgate => ?_, fun k g hgate => ?_, fun g cause hgate => ?_⟩
    · exact shows_gate (congrArg gateBytes hgate) (flightWords_of_idle hgate)
    · exact shows_gate (congrArg gateBytes hgate) (flightWords_of_run (congrArg runOf hgate))
    · exact shows_gate (congrArg gateBytes hgate) (flightWords_of_run (congrArg runOf hgate))
  have hdeck : deck := by
    refine ⟨fun hnone => ?_, fun st hst => ⟨fun hle => ?_, fun hle => ?_⟩⟩
    · rw [(minEffective_none_iff s).mpr hnone] at hmin
      rw [maxEffective_of_none hnone] at hmax
      exact ⟨hmin, hmax⟩
    · rw [minEffective_of_least hst hle] at hmin
      exact hmin
    · rw [maxEffective_of_greatest hst hle] at hmax
      exact hmax
  refine ⟨hshown, hdeck, hholds, hwave, fun hrate => ?_, fun hrate => ?_, hedition, hrejected, hfield, hline,
    ⟨_, hslots, fun i hi => wordByte_lineWord _ hi⟩, showsFlags_of_natWord (by simp) hpaused (by simp), hsite,
    showsFlags_of_natWord (by simp) (rigEvents_flags s ▸ hevents) (by simp), fun h => ?_, fun i => ⟨fun h => ?_, fun h => ?_⟩,
    fun h => ?_, fun o f h => ?_, hzeros⟩
  · rw [nextStartWord_eq, if_pos hrate] at hnext
    exact hnext
  · rw [nextStartWord_eq, if_neg hrate] at hnext
    exact hnext
  · rw [h] at hmisuse
    exact hmisuse
  · rw [h] at hmisuse
    exact hmisuse
  · rw [h] at hmisuse
    exact hmisuse
  · rw [h] at hcheck
    exact hcheck
  · rw [h] at hcheck
    exact hcheck

end Sys2Proof.Machine
end

section
/-! PROOF. The station records show the state (11, Station record; 05 R92). -/

namespace Sys2Proof.Machine

open Sys2Proof

theorem intWord_toInt (x : BitVec 24) : intWord x.toInt = x.signExtend 32 := rfl

theorem natWord_toNat (w : Word) : natWord w.toNat = w := BitVec.eq_of_toNat_eq (by rw [natWord, BitVec.toNat_ofNat, Nat.mod_eq_of_lt w.isLt])

/-- The named words of a station record. -/
def stationNamed (s : State) (st : Station) : List Word :=
  [bytesWord (serviceCode (recordOf s st).service) (recordOf s st).marks (recordOf s st).cleanRun (ssuOf s st).strays,
    natWord (recordOf s st).count, intWord s.wvc.values.trims[st], intWord (effectiveCount s st),
    (recordOf s st).events.setWidth 32, natWord (stationFlags s st), natWord ((recordOf s st).lastStroke.getD 0)]
  ++ readingWords s st

theorem shows_station {s : State} {st : Station} {i : Nat} (h : i < 16) :
    shows s (63 + 16 * st.1 + i) ((stationNamed s st)[i]?.getD 0) :=
  (statusBody_station s st h).trans (getElem?_recordWords _ h)

theorem shows_stationWord {s : State} {st : Station} {i : Nat} {w : Word} (h : i < 16) (hw : (stationNamed s st)[i]? = some w) :
    shows s (63 + 16 * st.1 + i) w := by
  have hat := shows_station (s := s) (st := st) h
  rw [hw] at hat
  exact hat

theorem length_readingWords (s : State) (st : Station) : (readingWords s st).length = 3 := by
  unfold readingWords
  split <;> rfl

theorem isFresh_iff (s : State) (st : Station) : isFresh s st = true ↔ ∃ x, readingOf s st = some x ∧ x.status = .good
    ∧ x.inMotion = false ∧ (s.tmb.fineTime - x.taken).toNat < 1000 * s.psv.rig.freshnessLimit := by
  unfold isFresh
  cases readingOf s st with
  | none => simp
  | some x =>
    simp only [isFreshReading, Bool.and_eq_true, decide_eq_true_iff, Bool.not_eq_true', Option.some.injEq, exists_eq_left']
    exact and_assoc

theorem stationFlags_eq (s : State) (st : Station) : stationFlags s st = flagsNat
    [(recordOf s st).inDoubt, (recordOf s st).lastStroke.isSome, (readingOf s st).isSome, isFresh s st,
      (readingOf s st).any Reading.inMotion] := by
  simp only [stationFlags, flagsNat]
  omega

theorem any_inMotion_iff (x : Option Reading) : x.any Reading.inMotion = true ↔ ∃ r, x = some r ∧ r.inMotion = true := by
  cases x <;> simp

theorem shows_stationRecord (s : State) (st : Station) :
    let word (i : Nat) (w : Word) : Prop := shows s i w
    let bytes (a b c d : Nat) : Word := BitVec.ofNat 8 d ++ BitVec.ofNat 8 c ++ BitVec.ofNat 8 b ++ BitVec.ofNat 8 a
    let effective (st : Station) : Int := ((recordOf s st).count : Int) - s.wvc.values.trims[st]
    let base := 63 + 16 * st.1
    let r := recordOf s st
    let read := readingOf s st
    word base (bytes (serviceCode r.service) r.marks r.cleanRun (ssuOf s st).strays) ∧ word (base + 1) (natWord r.count)
    ∧ word (base + 2) (intWord s.wvc.values.trims[st]) ∧ word (base + 3) (intWord (effective st))
    ∧ word (base + 4) (r.events.setWidth 32)
    ∧ showsFlags s (base + 5) [r.inDoubt = true, r.lastStroke ≠ none, read ≠ none,
        ∃ x, read = some x ∧ x.status = .good ∧ x.inMotion = false
          ∧ (s.tmb.fineTime - x.taken).toNat < 1000 * s.psv.rig.freshnessLimit,
        ∃ x, read = some x ∧ x.inMotion = true]
    ∧ word (base + 6) (natWord (r.lastStroke.getD 0))
    ∧ (read = none → word (base + 7) 0 ∧ word (base + 8) 0 ∧ word (base + 9) 0xFFFFFFFF#32)
    ∧ (∀ x, read = some x → word (base + 7) (x.elevation.signExtend 32)
        ∧ word (base + 8) (if x.status = .good then 0 else 1) ∧ word (base + 9) (s.tmb.fineTime - x.taken))
    ∧ showsZeros s (base + 10) 6 := by
  intro word bytes effective base r read
  have hat {i : Nat} {w : Word} := shows_stationWord (s := s) (st := st) (i := i) (w := w)
  have hreading {i : Nat} {w : Word} (h : (readingWords s st)[i]? = some w) (hi : i + 7 < 16) : word (base + (i + 7)) w :=
    hat hi h
  have hflags : shows s (base + 5) (natWord (flagsNat [r.inDoubt, r.lastStroke.isSome, read.isSome, isFresh s st, read.any Reading.inMotion])) := by
    rw [← stationFlags_eq]
    exact hat (by decide) rfl
  refine ⟨hat (i := 0) (by decide) rfl, hat (by decide) rfl, hat (by decide) rfl, hat (by decide) rfl, hat (by decide) rfl,
    showsFlags_of_natWord (by simp) hflags ?_, hat (by decide) rfl, fun h => ?_, fun x h => ?_, ?_⟩
  · simp only [List.forall₂_cons, List.Forall₂.nil, and_true, Option.isSome_iff_ne_none]
    exact ⟨trivial, trivial, trivial, isFresh_iff s st, any_inMotion_iff _⟩
  · have hwords : readingWords s st = [0, 0, 0xFFFFFFFF#32] := by
      rw [readingWords, show readingOf s st = _ from h]
      rfl
    rw [hwords] at hreading
    exact ⟨hreading (i := 0) rfl (by decide), hreading (i := 1) rfl (by decide), hreading (i := 2) rfl (by decide)⟩
  · have hwords : readingWords s st = [x.elevation.signExtend 32, if x.status = .good then 0 else 1, s.tmb.fineTime - x.taken] := by
      rw [readingWords, show readingOf s st = _ from h, ← intWord_toInt, ← natWord_toNat (s.tmb.fineTime - x.taken)]
      rfl
    rw [hwords] at hreading
    exact ⟨hreading (i := 0) rfl (by decide), hreading (i := 1) rfl (by decide), hreading (i := 2) rfl (by decide)⟩
  · refine showsZeros_of (n := 16) (ws := stationNamed s st) (fun i hi => shows_station hi) (i := 10) ?_ (by decide)
    rw [stationNamed, List.length_append, length_readingWords]
    exact Nat.le_refl 10

end Sys2Proof.Machine
end

section
/-! PROOF. The sector records show the state (11, Sector record; 06 R115). -/

namespace Sys2Proof.Machine

open Sys2Proof

/-! ## The records of a sector by their places -/

/-- The words of a used sector. -/
def sectorNamed (s : State) (k : Sector) : List Word :=
  recordWords 16 (sectorHead s k) ++ (recordWords 80 ((stackOf s k).flatMap (layerWords s)) ++ (s.ltr.openings[k]).flatMap openingWords)

theorem length_layerWords (s : State) (l : Layer) : (layerWords s l).length = 8 := by
  unfold layerWords
  split <;> exact length_recordWords _ _

theorem length_sectorHead (s : State) (k : Sector) : (sectorHead s k).length = 8 := by
  unfold sectorHead
  split <;> rfl

theorem shows_unused {s : State} {k : Sector} (hused : used s k = false) {i : Nat} (h : i < 128) :
    shows s (63 + 16 * 64 + 128 * k.1 + i) (([0, 0, 0, 0, 0, 0, (s.ltr.events[k]).setWidth 32] : List Word)[i]?.getD 0) := by
  refine (statusBody_sector s k h).trans ?_
  rw [sectorRecord, sectorHead, hused]
  refine (getElem?_recordWords _ h).trans (congrArg some ?_)
  rcases Nat.lt_or_ge i 8 with hi | hi
  · interval_cases i <;> rfl
  · have hnone {ws : List Word} (hws : ws.length ≤ 8) : ws[i]?.getD 0 = 0 := by
      rw [List.getElem?_eq_none (Nat.le_trans hws hi)]
      rfl
    exact (hnone (ws := [0, 0, 0, 0, 0, 0, (s.ltr.events[k]).setWidth 32, 0]) (Nat.le_refl 8)).trans
      (hnone (ws := [0, 0, 0, 0, 0, 0, (s.ltr.events[k]).setWidth 32]) (Nat.le_succ 7)).symm

section
variable {s : State} {k : Sector} (hused : used s k = true)

include hused

theorem shows_used {i : Nat} (h : i < 128) :
    shows s (63 + 16 * 64 + 128 * k.1 + i) ((sectorNamed s k)[i]?.getD 0) := by
  refine (statusBody_sector s k h).trans ?_
  rw [sectorRecord, if_pos hused, List.append_assoc]
  exact getElem?_recordWords _ h

theorem shows_sectorHead {i : Nat} (h : i < 16) :
    shows s (63 + 16 * 64 + 128 * k.1 + i) ((sectorHead s k)[i]?.getD 0) := by
  have hat := shows_used hused (i := i) (by omega)
  rw [sectorNamed, List.getElem?_append_left (by rw [length_recordWords]; exact h), getElem?_recordWords _ h] at hat
  exact hat

theorem shows_layerWord {j i : Nat} (hj : j < 10) (hi : i < 8) :
    shows s (63 + 16 * 64 + 128 * k.1 + 16 + 8 * j + i) (((stackOf s k)[j]?.bind fun l => (layerWords s l)[i]?).getD 0) := by
  have hat := shows_used hused (i := 16 + (8 * j + i)) (by omega)
  rw [sectorNamed, List.getElem?_append_right (by rw [length_recordWords]; omega), length_recordWords, Nat.add_sub_cancel_left,
    List.getElem?_append_left (by rw [length_recordWords]; omega), getElem?_recordWords _ (by omega),
    getElem?_flatMap_const (f := layerWords s) (length_layerWords s) _ j hi] at hat
  rw [Nat.add_assoc, Nat.add_assoc]
  exact hat

theorem shows_openingWord {j i : Nat} (hj : j < 2) (hi : i < 2) :
    shows s (63 + 16 * 64 + 128 * k.1 + 96 + 2 * j + i)
      (((s.ltr.openings[k])[j]?.bind fun o => (openingWords o)[i]?).getD 0) := by
  have hat := shows_used hused (i := 16 + (80 + (2 * j + i))) (by omega)
  rw [sectorNamed, List.getElem?_append_right (by rw [length_recordWords]; omega), length_recordWords, Nat.add_sub_cancel_left,
    List.getElem?_append_right (by rw [length_recordWords]; omega), length_recordWords, Nat.add_sub_cancel_left,
    getElem?_flatMap_const (f := openingWords) (fun _ => rfl) _ j hi, ← Nat.add_assoc 16 80] at hat
  rw [Nat.add_assoc, Nat.add_assoc]
  exact hat

theorem shows_openingWord_of {j i : Nat} (hj : j < 2) {o : Option Opening} (h : (s.ltr.openings[k])[j]? = o) (hi : i < 2) :
    shows s (63 + 16 * 64 + 128 * k.1 + 96 + 2 * j + i) ((o.bind fun o => (openingWords o)[i]?).getD 0) :=
  h ▸ shows_openingWord hused hj hi

theorem shows_sectorRest (h : (s.ltr.openings[k]).length ≤ 2) : showsZeros s (63 + 16 * 64 + 128 * k.1 + 100) 28 := by
  refine showsZeros_of (n := 128) (fun i hi => shows_used hused hi) ?_ (by decide)
  rw [sectorNamed, List.length_append, List.length_append, length_recordWords, length_recordWords,
    length_flatMap_const openingWords (n := 2) fun _ => rfl]
  omega

theorem shows_layer_absent {j : Nat} (hj : j < 10) (h : (stackOf s k)[j]? = none) :
    showsZeros s (63 + 16 * 64 + 128 * k.1 + 16 + 8 * j) 8 := by
  have hat {i : Nat} := shows_layerWord hused hj (i := i)
  rw [h] at hat
  exact showsZeros_of (n := 8) (ws := []) (i := 0) (fun i hi => hat hi) (by decide) (by decide)

theorem shows_opening_absent {j : Nat} (hj : j < 2) (h : (s.ltr.openings[k])[j]? = none) :
    showsZeros s (63 + 16 * 64 + 128 * k.1 + 96 + 2 * j) 2 := by
  have hat {i : Nat} (hi : i < 2) := shows_openingWord_of hused hj h hi
  exact showsZeros_of (n := 2) (ws := []) (i := 0) (fun i hi => hat hi) (by decide) (by decide)

/-- A layer present, by its five words. -/
theorem shows_layer {j : Nat} (hj : j < 10) {l : Layer} (h : (stackOf s k)[j]? = some l) {w0 w1 w2 w3 w4 : Word}
    (hl : layerWords s l = recordWords 8 [w0, w1, w2, w3, w4]) :
    let at_ := 63 + 16 * 64 + 128 * k.1 + 16 + 8 * j
    shows s at_ w0 ∧ shows s (at_ + 1) w1 ∧ shows s (at_ + 2) w2 ∧ shows s (at_ + 3) w3 ∧ shows s (at_ + 4) w4
      ∧ showsZeros s (at_ + 5) 3 := by
  intro at_
  have hat {i : Nat} (hi : i < 8) : shows s (at_ + i) ([w0, w1, w2, w3, w4][i]?.getD 0) := by
    have hword := shows_layerWord hused hj hi
    rw [h, Option.bind_some, hl, getElem?_recordWords _ hi] at hword
    exact hword
  exact ⟨hat (i := 0) (by decide), hat (i := 1) (by decide), hat (i := 2) (by decide), hat (i := 3) (by decide),
    hat (i := 4) (by decide), showsZeros_of (n := 8) (fun i hi => hat hi) (i := 5) (by exact Nat.le_refl 5) (by decide)⟩

theorem shows_opening {j : Nat} (hj : j < 2) {o : Opening} (h : (s.ltr.openings[k])[j]? = some o) :
    let at_ := 63 + 16 * 64 + 128 * k.1 + 96 + 2 * j
    shows s at_ (intWord o.lower) ∧ shows s (at_ + 1) (intWord o.upper) := by
  have hat {i : Nat} (hi : i < 2) := shows_openingWord_of hused hj h hi
  exact ⟨hat (i := 0) (by decide), hat (i := 1) (by decide)⟩

end

theorem sectorFlags_eq (s : State) (k : Sector) : sectorFlags s k = flagsNat
    [isUrgent s k, isEligible s (shownDestination s) k, s.ltr.age.getLsbD k.1, s.ltr.fill.getLsbD k.1] := by
  simp only [sectorFlags, flagsNat]
  omega

theorem shownDestination_eq {s : State} {destination : BitVec 16} (hnone : s.fds.line = [] → destination = 0xFFFF#16)
    (hhead : ∀ slot, s.fds.line.head? = some slot → ∃ r, batchOf s slot = some r ∧ destination = r.destination) :
    shownDestination s = destination := by
  unfold shownDestination
  cases hline : s.fds.line with
  | nil => exact (hnone hline).symm
  | cons slot line =>
    obtain ⟨r, hr, hd⟩ := hhead slot (by rw [hline]; rfl)
    simp only [hr]
    exact hd.symm

theorem fillTop_eq (s : State) (k : Sector) : fillTop s k =
    ((stackOf s k).getLast?).elim (formBottom s k) fun l => l.bottom + l.thickness := by
  unfold fillTop fillTopOf
  cases (stackOf s k).getLast? <;> rfl

theorem shows_unusedSector {s : State} {k : Sector} (hused : used s k = false) :
    let base := 63 + 16 * 64 + 128 * k.1
    shows s (base + 6) ((s.ltr.events[k]).setWidth 32) ∧ showsZeros s base 6 ∧ showsZeros s (base + 7) 121 := by
  refine ⟨shows_unused hused (i := 6) (by decide), fun x hlow hhigh => ?_,
    showsZeros_of (n := 128) (ws := [0, 0, 0, 0, 0, 0, (s.ltr.events[k]).setWidth 32]) (fun i hi => shows_unused hused hi)
      (i := 7) (Nat.le_refl 7) (by decide)⟩
  obtain ⟨i, rfl⟩ := Nat.exists_eq_add_of_le hlow
  have hi : i < 6 := by omega
  have hat := shows_unused hused (i := i) (by omega)
  interval_cases i <;> exact hat

theorem shows_usedSector {s : State} {k : Sector} (hused : used s k = true) :
    let word (i : Nat) (w : Word) : Prop := shows s i w
    let base := 63 + 16 * 64 + 128 * k.1
    let bottom := formBottom s k
    let top := bottom + s.psv.rig.formHeight
    let fill := fillTop s k
    let eligible (destination : BitVec 16) : Prop := s.ltr.feedMask.getLsbD k.1 = true
      ∧ destination.getLsbD k.1 = true ∧ (s.psv.rig.minLayer : Int) ≤ top - fill - s.psv.rig.targetFill
      ∧ (stackOf s k).length < 10
    let urgent : Prop := ∃ l, topConcrete s k = some l
      ∧ (s.psv.rig.mixes[l.mix]).warnOpen ≤ (s.tmb.siteSeconds - l.placed).toNat
    word base (intWord bottom) ∧ word (base + 1) (intWord top) ∧ word (base + 2) (intWord fill)
      ∧ word (base + 3) (intWord (top - fill))
      ∧ word (base + 4) (natWord ((top - fill - s.psv.rig.targetFill).toNat * s.psv.rig.areas[k] / 100))
      ∧ (∀ destination, (s.fds.line = [] → destination = 0xFFFF#16) →
          (∀ slot, s.fds.line.head? = some slot → ∃ r, batchOf s slot = some r ∧ destination = r.destination) →
          showsFlags s (base + 5) [urgent, eligible destination, s.ltr.age.getLsbD k.1 = true, s.ltr.fill.getLsbD k.1 = true])
      ∧ word (base + 6) ((s.ltr.events[k]).setWidth 32)
      ∧ word (base + 7) (bytesWord (stackOf s k).length (s.ltr.openings[k]).length 0 0)
      ∧ showsZeros s (base + 8) 8 := by
  intro word base bottom top fill eligible urgent
  have hhead : sectorHead s k = [intWord bottom, intWord top, intWord fill, intWord (top - fill),
      natWord ((top - fill - s.psv.rig.targetFill).toNat * s.psv.rig.areas[k] / 100), natWord (sectorFlags s k),
      (s.ltr.events[k]).setWidth 32, bytesWord (stackOf s k).length (s.ltr.openings[k]).length 0 0] := if_pos hused
  have hat {i : Nat} (hi : i < 16) := shows_sectorHead hused hi
  rw [hhead] at hat
  refine ⟨hat (i := 0) (by decide), hat (i := 1) (by decide), hat (i := 2) (by decide), hat (i := 3) (by decide),
    hat (i := 4) (by decide), fun destination hnone hsome => ?_, hat (i := 6) (by decide), hat (i := 7) (by decide),
    showsZeros_of (n := 16) (fun i hi => hat hi) (i := 8) (by exact Nat.le_refl 8) (by decide)⟩
  have hflags : shows s (base + 5) (natWord (sectorFlags s k)) := hat (by decide)
  rw [sectorFlags_eq, shownDestination_eq hnone hsome] at hflags
  refine showsFlags_of_natWord (by simp) hflags ?_
  simp only [List.forall₂_cons, List.Forall₂.nil, and_true]
  refine ⟨(isUrgent_iff s k).trans (and_iff_right hused), ?_⟩
  rw [isEligible, Bool.and_eq_true, wantsConcrete_iff, hasRoom_iff, and_iff_right hused, and_assoc, and_assoc]
  exact Iff.rfl

/-- A layer of a sector, by its kind. -/
theorem shows_layerOf {s : State} {k : Sector} (hused : used s k = true) {j : Nat} (hj : j < 10) {l : Layer}
    (h : (stackOf s k)[j]? = some l) :
    let at_ := 63 + 16 * 64 + 128 * k.1 + 16 + 8 * j
    shows s (at_ + 1) (intWord l.bottom) ∧ shows s (at_ + 2) (natWord l.thickness) ∧ showsZeros s (at_ + 5) 3
      ∧ (l.kind = .gap → shows s at_ (bytesWord 2 255 255 0) ∧ shows s (at_ + 3) 0xFFFFFFFF#32 ∧ shows s (at_ + 4) 0xFFFFFFFF#32)
      ∧ ∀ x, l.kind = .concrete x →
        shows s at_ (bytesWord 1 x.slot.1 x.index.1 (if x.jointReported = true then 1 else 0))
        ∧ shows s (at_ + 3) x.placed ∧ shows s (at_ + 4) (s.tmb.siteSeconds - x.origin) := by
  intro at_
  cases hkind : l.kind with
  | gap =>
    have hwords : layerWords s l = recordWords 8 [bytesWord 2 255 255 0, intWord l.bottom, natWord l.thickness,
        0xFFFFFFFF#32, 0xFFFFFFFF#32] := by
      rw [layerWords, hkind]
      rfl
    obtain ⟨h0, h1, h2, h3, h4, hzeros⟩ := shows_layer hused hj h hwords
    exact ⟨h1, h2, hzeros, fun _ => ⟨h0, h3, h4⟩, fun x hx => LayerKind.noConfusion hx⟩
  | concrete c =>
    have hwords : layerWords s l = recordWords 8 [bytesWord 1 c.slot.1 c.index.1 (if c.jointReported = true then 1 else 0),
        intWord l.bottom, natWord l.thickness, c.placed, s.tmb.siteSeconds - c.origin] := by
      rw [layerWords, hkind, ← natWord_toNat (s.tmb.siteSeconds - c.origin)]
      rfl
    obtain ⟨h0, h1, h2, h3, h4, hzeros⟩ := shows_layer hused hj h hwords
    refine ⟨h1, h2, hzeros, fun hgap => LayerKind.noConfusion hgap, fun x hx => ?_⟩
    obtain rfl : c = x := LayerKind.concrete.inj hx
    exact ⟨h0, h3, h4⟩

/-- Settles O60: the commands of 08 R156 and R157, and the body record by record. -/
theorem publicationsWriteThePageAndCount : Obligations.PublicationsWriteThePageAndCount := by
  refine ⟨fun s hacting hs => publishTimerExpiry_does hacting hs, fun s hacting hs => publicationEnd_does hacting hs,
    rfl, rfl, rfl, rfl, fun s hsound => ?_⟩
  intro word bytes bits zeros effective active gate shown deck rig station sector
  have hrig : rig := by
    obtain ⟨hshown, hdeck, hholds, hwave, hnone, hnext, hedition, hrejected, hfield, hline, ⟨w, hw, hslots⟩, hrest⟩ := shows_rigRecord s
    refine ⟨hshown, hdeck, hholds, hwave, hnone, hnext, hedition, hrejected, hfield, hline, ⟨w, hw, fun i hi => ?_⟩, hrest⟩
    rw [hslots i hi]
    cases s.fds.line[i]? <;> rfl
  have hsector (k : Sector) : sector k := by
    unfold sector
    intro base stack bottom top fill events eligible urgent layer opening
    obtain ⟨hstack, hopenings, -⟩ := hsound k
    have hfill : fill = fillTop s k := by
      rw [fillTop_eq]
      simp only [fill]
      cases (stackOf s k).getLast? <;> rfl
    refine ⟨fun hused => shows_unusedSector hused, fun hused => ?_⟩
    obtain ⟨h0, h1, h2, h3, h4, h5, h6, h7, h8⟩ := shows_usedSector hused
    rw [← hfill] at h2 h3 h4 h5
    exact ⟨h0, h1, h2, h3, h4, h5, h6, h7, h8,
      fun j hj => ⟨fun h => shows_layer_absent hused hj h, fun l h => shows_layerOf hused hj h⟩,
      fun j hj => ⟨fun h => shows_opening_absent hused hj h, fun o h => shows_opening hused hj h⟩,
      shows_sectorRest hused hopenings⟩
  exact ⟨hrig, fun st => shows_stationRecord s st, hsector, length_statusBody s⟩

end Sys2Proof.Machine
end

section
/-! SUPPORT. What a judgement leaves of its station: the record and the items, a mark, a bar (04 R64, R68, R71, R73). -/

namespace Sys2Proof.Machine

open Sys2Proof

/-- The drains outstanding once a station has been judged, and barred or not. -/
def judgedDrains (s : State) (st : Station) (barred : Bool) : List Drain :=
  if barred = true then s.wvc.drains ++ [⟨st, if (itemOf s st).participant = true then .barSettle else .discard⟩] else s.wvc.drains

/-- From `s` to `v` a station has been judged: its items, its record and what has been told with them, barred or not. -/
structure Judgement (s : State) (st : Station) (barred : Bool) (item : WaveItem) (rec : StationRecord) (told : List Instr)
    (v : State) : Prop where
  rest : ∃ T W, v = { s with
    wvc := { s.wvc with
      table := T, wave := W, drains := judgedDrains s st barred
      holds := if (barred && shortIn v (sectorOf st)) = true then s.wvc.holds ||| 0x10#6 else s.wvc.holds
      countsDirty := s.wvc.countsDirty || barred || decide ((recordOf s st).count < rec.count) }
    mail := s.mail ++ told }
  record : ∀ x, recordOf v x = if x = st then rec else recordOf s x
  item : ∀ x, itemOf v x = if x = st then item else itemOf s x
  pending : rec.retirePending = (recordOf s st).retirePending

/-- A station's record and items replaced. -/
theorem judgement_judged {s : State} {st : Station} (item : WaveItem) {rec : StationRecord}
    (hpending : rec.retirePending = (recordOf s st).retirePending) (told : List Instr) :
    Judgement s st false item rec told (judged st rec told (setItem s st item)) where
  rest := ⟨_, _, by rw [Bool.or_false]; rfl⟩
  record x := recordOf_judged st x rec told (setItem s st item)
  item x := itemOf_setItem_ite s st x item
  pending := hpending

theorem setItem_self (s : State) (st : Station) : setItem s st (itemOf s st) = s := by
  have hsame : put s.wvc.wave st (itemOf s st) = s.wvc.wave := put_get_self _ _
  unfold setItem
  rw [hsame]

theorem judged_judged {st : Station} {rec rec' : StationRecord} (hcount : rec'.count = rec.count) (told told' : List Instr)
    (s : State) : judged st rec' told' (judged st rec told s) = judged st rec' (told ++ told') s := by
  have hrecord : recordOf (judged st rec told s) st = rec := by rw [recordOf_judged, if_pos rfl]
  rw [judged, hrecord, hcount, decide_eq_false (Nat.lt_irrefl _), Bool.or_false]
  unfold judged
  simp only [put_put, hcount, List.append_assoc]

theorem askedEvent_or (x e : BitVec 9) : askedEvent x (x ||| e) = askedEvent x e := by
  rw [askedEvent, ← BitVec.or_assoc, BitVec.or_self]
  rfl

theorem askedEvent_self (x : BitVec 9) : askedEvent x x = [] := if_pos (BitVec.or_self)

/-! ## A judgement that names a mark -/

section
variable {s : State} {st : Station} {item : WaveItem} {rec : StationRecord}

/-- The station's record and items as judged, before a mark. -/
def judgedUnmarked (s : State) (st : Station) (item : WaveItem) (rec : StationRecord) : State := judged st rec [] (setItem s st item)

theorem recordOf_judgedUnmarked (x : Station) :
    recordOf (judgedUnmarked s st item rec) x = if x = st then rec else recordOf s x :=
  recordOf_judged st x rec [] (setItem s st item)

theorem itemOf_judgedUnmarked (x : Station) :
    itemOf (judgedUnmarked s st item rec) x = if x = st then item else itemOf s x := itemOf_setItem_ite s st x item

variable (hpart : item.participant = (itemOf s st).participant)

include hpart in
theorem isParticipant_judgedUnmarked : isParticipant (judgedUnmarked s st item rec) st = isParticipant s st :=
  isParticipant_congr rfl (by rw [itemOf_judgedUnmarked, if_pos rfl, hpart])

/-- A judgement that leaves the station as it says, EVENT asked for where its events are new. -/
theorem judgement_leaves (hpending : rec.retirePending = (recordOf s st).retirePending) (hevents : rec.events = (recordOf s st).events) :
    Judgement s st false item rec (askedEvent (recordOf s st).events rec.events) (judgedUnmarked s st item rec) := by
  rw [hevents, askedEvent_self]
  exact judgement_judged item hpending []

/-- A mark due to a station out of service sets its events alone. -/
theorem judgement_giveMark_of_inactive (hpending : rec.retirePending = (recordOf s st).retirePending)
    (hevents : rec.events = (recordOf s st).events) (h : rec.service ≠ .active) (events : BitVec 9) :
    Judgement s st false item { rec with events := rec.events ||| events } (askedEvent (recordOf s st).events (rec.events ||| events))
      (giveMark events st (judgedUnmarked s st item rec)) := by
  have hrecord : recordOf (judgedUnmarked s st item rec) st = rec := by rw [recordOf_judgedUnmarked, if_pos rfl]
  rw [giveMark_of_inactive (by rw [hrecord]; exact h), hrecord, ← hevents, askedEvent_or]
  unfold judgedUnmarked
  rw [judged_judged (by rfl)]
  exact judgement_judged item (by exact hpending) _

include hpart in
theorem markGiven_judgedUnmarked (events : BitVec 9) : markGiven events st (judgedUnmarked s st item rec) =
    judged st { rec with marks := min 3 (rec.marks + 1), cleanRun := 0, events := rec.events ||| events }
      (askedEvent rec.events events) (setItem s st { item with marked := item.marked || isParticipant s st }) := by
  rw [markGiven, recordOf_judgedUnmarked, itemOf_judgedUnmarked, if_pos rfl, if_pos rfl, isParticipant_judgedUnmarked hpart]
  unfold judgedUnmarked judged setItem
  simp only [put_put, List.append_nil]
  rfl

include hpart in
/-- A first or second mark. -/
theorem judgement_giveMark_of_active (hpending : rec.retirePending = (recordOf s st).retirePending)
    (hevents : rec.events = (recordOf s st).events) (h : rec.service = .active) (hmarks : rec.marks < 2) (events : BitVec 9) :
    Judgement s st false { item with marked := item.marked || isParticipant s st }
      { rec with marks := rec.marks + 1, cleanRun := 0, events := rec.events ||| events }
      (askedEvent (recordOf s st).events (rec.events ||| events)) (giveMark events st (judgedUnmarked s st item rec)) := by
  have hrecord : recordOf (judgedUnmarked s st item rec) st = rec := by rw [recordOf_judgedUnmarked, if_pos rfl]
  have hmin : min 3 (rec.marks + 1) = rec.marks + 1 := by omega
  rw [giveMark_of_active (by rw [hrecord]; exact h), hrecord, if_neg (Nat.not_le.mpr hmarks), markGiven_judgedUnmarked hpart,
    hmin, ← hevents, askedEvent_or]
  exact judgement_judged _ (by exact hpending) _

include hpart in
/-- A third mark, which bars (04 R73, R74). -/
theorem judgement_giveMark_of_third (hpending : rec.retirePending = (recordOf s st).retirePending)
    (hevents : rec.events = (recordOf s st).events) (h : rec.service = .active) (hmarks : rec.marks = 2)
    (hclimb : s.wvc.climb = .settle) (hending : s.wvc.ending ≠ none) (events : BitVec 9) :
    Judgement s st true
      (if (itemOf s st).participant = true then { item with marked := true, participant := false, awaited := false } else item)
      { rec with service := .barred, marks := 3, cleanRun := 0, events := rec.events ||| events ||| 0x080#9 }
      (askedEvent (recordOf s st).events events ++ askedEvent ((recordOf s st).events ||| events) 0x080#9 ++ .drainQueue st ::
        (if (itemOf s st).participant = true then [.offValve st] else [.closeWindow st, .offValve st]))
      (giveMark events st (judgedUnmarked s st item rec)) := by
  have hrecord : recordOf (judgedUnmarked s st item rec) st = rec := by rw [recordOf_judgedUnmarked, if_pos rfl]
  have htakes : isParticipant s st = (itemOf s st).participant := by
    rw [isParticipant, (inWave_iff s).mpr (.inr hclimb), Bool.true_and]
  rw [giveMark_of_active (by rw [hrecord]; exact h), hrecord, if_pos (Nat.le_of_eq hmarks.symm), markGiven_judgedUnmarked hpart]
  generalize hb : judged st { rec with marks := min 3 (rec.marks + 1), cleanRun := 0, events := rec.events ||| events }
      (askedEvent rec.events events) (setItem s st { item with marked := item.marked || isParticipant s st }) = b
  have hbRecord (x : Station) : recordOf b x = if x = st then
      { rec with marks := min 3 (rec.marks + 1), cleanRun := 0, events := rec.events ||| events } else recordOf s x := by
    rw [← hb]
    exact recordOf_judged st x _ _ (setItem s st _)
  have hbItem (x : Station) : itemOf b x = if x = st then { item with marked := item.marked || isParticipant s st } else itemOf s x := by
    rw [← hb]
    exact itemOf_setItem_ite s st x _
  have hbRest : ∃ T W D, b = { s with
      wvc := { s.wvc with table := T, wave := W, countsDirty := D }, mail := s.mail ++ askedEvent rec.events events } := by
    rw [← hb]
    exact ⟨_, _, _, rfl⟩
  obtain ⟨T, W, D, hbRest⟩ := hbRest
  have hbPart : isParticipant b st = (itemOf s st).participant := by
    rw [isParticipant_congr (s := s) (by rw [← hb]; rfl) (by rw [hbItem, if_pos rfl, hpart]), htakes]
  have hbClimb : b.wvc.climb = .settle := by
    rw [← hb]
    exact hclimb
  have hbDrain : barDrain b st = ⟨st, if (itemOf s st).participant = true then .barSettle else .discard⟩ := by
    rw [barDrain, hbPart, hbClimb, if_neg (show ¬Climb.settle = .drive from Climb.noConfusion)]
  have hbShort : shortIn (barTaken events st b) (sectorOf st) = shortWithout b st :=
    shortIn_setRecord (r := { recordOf b st with
      service := .barred, events := (recordOf b st).events ||| (events ||| evBarred) }) ServiceState.noConfusion b st
  rw [bar_of_ending (by rw [← hb]; exact hending)]
  refine ⟨?_, fun x => ?_, fun x => ?_, hpending⟩
  · rw [hbShort, barTaken, hbDrain, hbPart, hbClimb, hbRecord, if_pos rfl, askedEvent_absorb, ← hevents]
    generalize shortWithout b st = short
    rw [hbRest]
    simp only [decide_eq_false (show ¬Climb.settle = .dwell from Climb.noConfusion), Bool.and_false, Bool.false_eq_true, if_false,
      List.append_nil, Bool.true_and, Bool.or_true, Bool.true_or, List.append_assoc, hclimb]
    exact ⟨_, _, rfl⟩
  · rw [recordOf_barTaken, hbRecord, hbRecord, if_pos rfl, or_or_absorb, hmarks]
    split_ifs <;> rfl
  · rw [itemOf_barTaken, hbPart, hbItem, hbItem, if_pos rfl, htakes]
    split
    · cases (itemOf s st).participant
      · rw [if_neg Bool.false_ne_true, if_neg Bool.false_ne_true, Bool.or_false]
      · rw [if_pos rfl, if_pos rfl, Bool.or_true]
    · rfl

end

end Sys2Proof.Machine
end

section
/-! SUPPORT. The last judgement of a phase end goes on with the wave (04 R63, R67, R69). -/

namespace Sys2Proof.Machine

open Sys2Proof

theorem shortIn_congr {s t : State} (hrig : t.psv.rig = s.psv.rig)
    (hservice : ∀ x, (recordOf t x).service = (recordOf s x).service) (k : Sector) : shortIn t k = shortIn s k := by
  have hactive : activeIn t k = activeIn s k := List.filter_congr fun x _ => by rw [isActive, isActive, hservice]
  rw [shortIn, shortIn, hactive, used, used, hrig]

theorem any_ne_discard_eq (ds : List Drain) :
    (!(ds.any fun d => decide (d.purpose ≠ .discard))) = ds.all fun d => decide (d.purpose = .discard) := by
  rw [List.not_any_eq_all_not]
  simp

theorem noDrain_of_any_false {p : DrainPurpose} {s : State} (h : (s.wvc.drains.any fun d => decide (d.purpose = p)) = false) :
    noDrain p s = true := by
  rw [noDrain, h]
  rfl

theorem not_noDrain_of_any {p : DrainPurpose} {s : State} (h : (s.wvc.drains.any fun d => decide (d.purpose = p)) = true) :
    ¬noDrain p s = true := by
  rw [noDrain, h]
  exact Bool.false_ne_true

/-- A bar's drain is none of a phase end. -/
theorem any_judgedDrains {p : DrainPurpose} (hsettle : p ≠ .barSettle) (hdiscard : p ≠ .discard) (s : State) (st : Station)
    (barred : Bool) : ((judgedDrains s st barred).any fun d => decide (d.purpose = p)) =
      s.wvc.drains.any fun d => decide (d.purpose = p) := by
  unfold judgedDrains
  split_ifs <;> simp [hsettle.symm, hdiscard.symm]

/-- The end of a wave leaves the stations' items. -/
theorem itemOf_finishSettleEnd (s : State) (x : Station) : itemOf (finishSettleEnd s) x = itemOf s x := by
  obtain ⟨T, hclosed⟩ := forEach_updateClean_rest (participants s) (sendAll ((participants s).map Instr.closeWindow
    ++ (participants s).map (settleCommand s)) { s with wvc := { s.wvc with ending := none } })
  obtain ⟨-, ⟨T', D, H, C, DR, M, hretired⟩, -⟩ := allRetired_carryOutAllDeferred (waveClosed s)
  rw [finishSettleEnd_eq]
  generalize carryOutAllDeferred (waveClosed s) = v at *
  have hwave : v.wvc.wave = s.wvc.wave := by
    rw [hretired]
    exact (congrArg (fun u : State => u.wvc.wave) hclosed :)
  rw [itemOf, climbAfterWave_wvc, itemOf, ← hwave]
  exact itemOf_flushCounts v x

/-- A count that has gone up, or a bar, is owed. -/
def judgedOwes (s : State) (st : Station) (barred : Bool) (rec : StationRecord) : Bool :=
  s.wvc.countsDirty || barred || decide ((recordOf s st).count < rec.count)

/-- The counts that a judgement leaves owing go out. -/
def judgedTells (s : State) (st : Station) (barred : Bool) (rec : StationRecord) : Bool :=
  judgedOwes s st barred rec && !((judgedDrains s st barred).any fun d => decide (d.purpose ≠ .discard))

namespace Judgement

variable {s v : State} {st : Station} {barred : Bool} {item : WaveItem} {rec : StationRecord} {told : List Instr}
  (h : Judgement s st barred item rec told v)

include h

theorem kept : v.wvc.ending = s.wvc.ending ∧ v.wvc.climb = s.wvc.climb ∧ v.wvc.drains = judgedDrains s st barred
    ∧ v.wvc.holds = (if (barred && shortIn v (sectorOf st)) = true then s.wvc.holds ||| 0x10#6 else s.wvc.holds)
    ∧ v.wvc.countsDirty = judgedOwes s st barred rec ∧ v.wvc.view = s.wvc.view ∧ v.mail = s.mail ++ told
    ∧ v.tmb = s.tmb ∧ v.psv = s.psv := by
  obtain ⟨⟨T, W, hv⟩, -, -, -⟩ := h
  generalize shortIn v (sectorOf st) = short at *
  rw [hv]
  exact ⟨rfl, rfl, rfl, rfl, rfl, rfl, rfl, rfl, rfl⟩

theorem participants_eq : participants v =
    allStations.filter fun x => inWave s && (if x = st then item else itemOf s x).participant := by
  obtain ⟨-, hclimb, -⟩ := h.kept
  refine List.filter_congr fun x _ => ?_
  rw [isParticipant, inWave, inWave, hclimb, h.item]

/-- A phase end whose answers are awaited still stays as it is. -/
theorem checkEnding_of_others {e : WaveEnding} (hending : s.wvc.ending = some e)
    (hothers : (s.wvc.drains.any fun d => decide (d.purpose = endPurpose e)) = true) : checkEnding v = v := by
  obtain ⟨hend, -, hdrains, -⟩ := h.kept
  refine checkEnding_of_open (hend.trans hending) ?_
  have hopen : (v.wvc.drains.any fun d => decide (d.purpose = endPurpose e)) = true := by
    rw [hdrains, any_judgedDrains (by cases e <;> exact DrainPurpose.noConfusion) (by cases e <;> exact DrainPurpose.noConfusion)]
    exact hothers
  obtain ⟨d, hd, hp⟩ := List.any_eq_true.mp hopen
  exact ⟨d, hd, of_decide_eq_true hp⟩

/-- The last judgement of DRIVE begins SETTLE. -/
theorem checkEnding_drive (hending : s.wvc.ending = some .driveEnd)
    (hothers : (s.wvc.drains.any fun d => decide (d.purpose = .driveEnd)) = false) :
    checkEnding v = flushCounts (settleBegun v) := by
  obtain ⟨hend, -, hdrains, -⟩ := h.kept
  have hnone : noDrain .driveEnd v = true := noDrain_of_any_false (by
    rw [hdrains, any_judgedDrains DrainPurpose.noConfusion DrainPurpose.noConfusion]
    exact hothers)
  rw [← finishDriveEnd_eq]
  unfold checkEnding
  rw [hend, hending]
  exact if_pos hnone

/-- The last judgement of SETTLE ends the wave. -/
theorem checkEnding_settle (hending : s.wvc.ending = some .settleEnd)
    (hothers : (s.wvc.drains.any fun d => decide (d.purpose = .settleEnd)) = false) : checkEnding v = finishSettleEnd v := by
  obtain ⟨hend, -, hdrains, -⟩ := h.kept
  have hnone : noDrain .settleEnd v = true := noDrain_of_any_false (by
    rw [hdrains, any_judgedDrains DrainPurpose.noConfusion DrainPurpose.noConfusion]
    exact hothers)
  unfold checkEnding
  rw [hend, hending]
  exact if_pos hnone

/-- What the last judgement of DRIVE leaves (04 R63, R65, R70). -/
theorem settleBegun_leaves :
    let u := flushCounts (settleBegun v)
    u.wvc.drains = judgedDrains s st barred ∧ u.wvc.climb = s.wvc.climb
      ∧ (∀ x, recordOf u x = if x = st then rec else recordOf s x)
      ∧ u.wvc.holds = (if (barred && shortIn u (sectorOf st)) = true then s.wvc.holds ||| 0x10#6 else s.wvc.holds)
      ∧ u.wvc.ending = none ∧ u.wvc.settleTimer = some ⟨s.tmb.fineTime, 1000 * s.psv.rig.settleTimeout⟩
      ∧ u.wvc.fallTimer = some ⟨s.tmb.fineTime, s.psv.rig.fallRamp⟩
      ∧ (∀ x, itemOf u x = (if x = st then item else itemOf s x).awaitSettle)
      ∧ u.mail = s.mail ++ told
        ++ (allStations.filter fun x => inWave s && (if x = st then item else itemOf s x).participant).map Instr.closeValve
        ++ if judgedTells s st barred rec = true then [.countsChanged] else [] := by
  obtain ⟨-, hclimb, hdrains, hholds, howed, -, hmail, htmb, hpsv⟩ := h.kept
  obtain ⟨htable, hYclimb, hYending, hYholds, hYdrains, hYdirty, hYtimer, hYfall⟩ := settleBegun_spec v
  have hYmail := settleBegun_mail v
  rw [h.participants_eq, hmail] at hYmail
  have hitems (x : Station) : itemOf (settleBegun v) x = (if x = st then item else itemOf s x).awaitSettle := by
    rw [itemOf_settleBegun, h.item]
  have hYrecord (x : Station) : recordOf (settleBegun v) x = recordOf v x := congrArg (fun T => T[x]) htable
  have htells : tellsCounts (settleBegun v) = judgedTells s st barred rec := by
    rw [tellsCounts, hYending, hYdirty, hYdrains, hdrains, howed, judgedTells, any_ne_discard_eq, decide_eq_true rfl,
      Bool.and_true]
  have hYpsv : (settleBegun v).psv = v.psv := rfl
  generalize settleBegun v = Y at *
  intro u
  have hwvc := flushCounts_wvc Y
  have hrecord (x : Station) : recordOf u x = recordOf v x := by
    rw [← hYrecord]
    exact (congrArg (fun w : Wvc => w.table[x]) hwvc :)
  have hshort : shortIn u (sectorOf st) = shortIn v (sectorOf st) :=
    shortIn_congr (by
      change (flushCounts Y).psv.rig = _
      rw [flushCounts_eq, ← hYpsv]) (fun x => by rw [hrecord]) _
  rw [hshort]
  refine ⟨?_, ?_, fun x => (hrecord x).trans (h.record x), ?_, ?_, ?_, ?_, fun x => (itemOf_flushCounts Y x).trans (hitems x), ?_⟩
  · exact (congrArg Wvc.drains hwvc).trans (hYdrains.trans hdrains)
  · exact (congrArg Wvc.climb hwvc).trans (hYclimb.trans hclimb)
  · exact (congrArg Wvc.holds hwvc).trans (hYholds.trans hholds)
  · exact (congrArg Wvc.ending hwvc).trans hYending
  · refine (congrArg Wvc.settleTimer hwvc).trans (hYtimer.trans ?_)
    rw [htmb, hpsv]
  · refine (congrArg Wvc.fallTimer hwvc).trans (hYfall.trans ?_)
    rw [htmb, hpsv]
  · rw [← hYmail, ← htells]
    exact congrArg State.mail (flushCounts_eq Y)

theorem pending_eq (x : Station) : (recordOf v x).retirePending = (recordOf s x).retirePending := by
  rw [h.record]
  split
  · next hx => rw [h.pending, hx]
  · rfl

theorem closingCommands_eq : closingCommands v =
    (allStations.filter fun x => (if x = st then item else itemOf s x).participant).map Instr.closeWindow
      ++ (allStations.filter fun x => (if x = st then item else itemOf s x).participant).map fun x =>
          if (recordOf s x).retirePending = none then .restValve x else .offValve x := by
  have hleft : takingPart v = allStations.filter fun x => (if x = st then item else itemOf s x).participant :=
    List.filter_congr fun x _ => by rw [h.item]
  have hcommand : settleCommand v = fun x => if (recordOf s x).retirePending = none then .restValve x else .offValve x := by
    funext x
    rw [settleCommand, h.pending_eq]
    cases (recordOf s x).retirePending <;> rfl
  rw [closingCommands, hleft, hcommand]

/-- The record of a station at the end of the wave, by what the judgement has left of it (04 R72). -/
theorem cleanedRecord_eq (x : Station) : cleanedRecord v x =
    if ((if x = st then item else itemOf s x).participant && (if x = st then item else itemOf s x).clean) = true
    then (if x = st then rec else recordOf s x).cleanWave else if x = st then rec else recordOf s x := by
  rw [cleanedRecord, h.item, h.record]
  simp only [Bool.and_eq_true]

/-- What the last judgement of SETTLE leaves (04 R67, R69, R72, R82). -/
theorem finishSettleEnd_leaves (hclimb : s.wvc.climb = .settle) :
    let u := finishSettleEnd v
    let commands := closingCommands v
    (∀ x, itemOf u x = if x = st then item else itemOf s x) ∧ u.wvc.ending = none
      ∧ u.wvc.climb = (if s.wvc.view = .run ∧ s.psv.state = .run ∧ u.wvc.holds = 0 then .dwell else .held)
      ∧ s.mail ++ told ++ commands <+: u.mail
      ∧ (∀ x, (recordOf s x).retirePending = none → recordOf u x = cleanedRecord v x)
      ∧ (∀ x slot, (recordOf s x).retirePending = some slot →
          recordOf u x = { (if x = st then rec else recordOf s x) with
            service := .retired, marks := 0, cleanRun := 0, retirePending := none }
          ∧ .orderOutcome slot (.outcome .done 0) ∈ u.mail
          ∧ ((if x = st then rec else recordOf s x).service = .active →
              [.drainQueue x, .closeWindow x, .offValve x] ⊆ u.mail
              ∧ ((∀ d ∈ judgedDrains s st barred, d.purpose = .discard) → .countsChanged ∈ u.mail)))
      ∧ ((∀ x, (recordOf s x).retirePending = none) → u.wvc.drains = judgedDrains s st barred
          ∧ u.wvc.holds = (if (barred && shortIn u (sectorOf st)) = true then s.wvc.holds ||| 0x10#6 else s.wvc.holds)
          ∧ u.mail = s.mail ++ told ++ commands ++ (if judgedTells s st barred rec = true then [.countsChanged] else [])
            ++ (if u.wvc.climb = .dwell then [] else [.attentionSetRequest .hold])
            ++ if s.wvc.view = .stopping then [.waveEnded] else []) := by
  obtain ⟨-, hvClimb, hdrains, hholds, howed, hview, hmail, -, hpsv⟩ := h.kept
  obtain ⟨⟨T, D, H, C, DR, M, hrest⟩, hclimbBehind, hsent, hrecords, htold⟩ := waveOver_finishSettleEnd (hvClimb.trans hclimb)
  have hnone := finishSettleEnd_of_none (hvClimb.trans hclimb)
  generalize finishSettleEnd v = w at *
  intro u commands
  have hitem (x : Station) : itemOf w x = itemOf v x := by rw [hrest]; rfl
  refine ⟨fun x => (hitem x).trans (h.item x), by rw [show u = w from rfl, hrest], ?_, ?_, fun x hx => ?_,
    fun x slot hx => ⟨?_, ?_, fun hactive => ?_⟩, fun hall => ?_⟩
  · rw [hclimbBehind, hview, hpsv]
  · rw [← hmail]
    exact hsent
  · refine (hrecords x).trans (retiredRecord_of_none ?_)
    rw [retirePending_cleanedRecord, h.pending_eq]
    exact hx
  · refine (hrecords x).trans ((retiredRecord_of_some (slot := slot) ?_).trans ?_)
    · rw [retirePending_cleanedRecord, h.pending_eq]
      exact hx
    · rw [cleanedRecord, h.record]
      unfold StationRecord.cleanWave
      split_ifs <;> rfl
  · exact (htold x slot ((h.pending_eq x).trans hx)).1
  · obtain ⟨-, htells⟩ := htold x slot ((h.pending_eq x).trans hx)
    rw [h.record, hdrains] at htells
    exact htells hactive
  · obtain ⟨hwDrains, hwHolds, hwMail⟩ := hnone fun x => (h.pending_eq x).trans (hall x)
    have hshort : shortIn w (sectorOf st) = shortIn v (sectorOf st) :=
      shortIn_congr (by rw [hrest]) (fun x => by
        rw [hrecords, retiredRecord_of_none (by rw [retirePending_cleanedRecord, h.pending_eq]; exact hall x),
          service_cleanedRecord]) _
    refine ⟨hwDrains.trans hdrains, ?_, ?_⟩
    · rw [show u = w from rfl, hshort]
      exact hwHolds.trans hholds
    · rw [show u = w from rfl, hwMail, hmail, howed, hdrains, hview, judgedTells, any_ne_discard_eq]

end Judgement

end Sys2Proof.Machine
end

section
/-! PROOF. The answers of the drains of a phase end (04 R63 to R69, R71 to R74, R77). -/

namespace Sys2Proof.Machine

open Sys2Proof

theorem judgedUnmarked_self (s : State) (st : Station) (item : WaveItem) :
    judgedUnmarked s st item (recordOf s st) = setItem s st item := judged_self st (setItem s st item)

theorem judgedUnmarked_same (s : State) (st : Station) : judgedUnmarked s st (itemOf s st) (recordOf s st) = s := by
  rw [judgedUnmarked_self, setItem_self]

/-! ## Answers of one record -/

theorem isOne_iff (kind : EdgeKind) (records : List EdgeRecord) (overflow : Bool) :
    isOne kind records overflow = true ↔ overflow = false ∧ ∃ time, records = [⟨kind, time⟩] := by
  unfold isOne
  split
  · next e =>
    rw [Bool.and_eq_true, decide_eq_true_iff, Bool.not_eq_true']
    constructor
    · rintro ⟨rfl, hover⟩
      exact ⟨hover, e.time, rfl⟩
    · rintro ⟨hover, time, he⟩
      obtain rfl := List.head_eq_of_cons_eq he
      exact ⟨rfl, hover⟩
  · next hne =>
    refine ⟨fun hf => absurd hf Bool.false_ne_true, ?_⟩
    rintro ⟨-, time, he⟩
    exact absurd he (hne _)

theorem isOne_extend_iff {before after : List EdgeRecord} {time : Word} {overflow : Bool} :
    isOne .extend (before ++ ⟨.extend, time⟩ :: after) overflow = true ↔ before = [] ∧ after = [] ∧ overflow = false := by
  rw [isOne_iff]
  constructor
  · rintro ⟨hover, t, he⟩
    have hlength := congrArg List.length he
    simp only [List.length_append, List.length_cons, List.length_nil] at hlength
    exact ⟨List.eq_nil_of_length_eq_zero (by omega), List.eq_nil_of_length_eq_zero (by omega), hover⟩
  · rintro ⟨rfl, rfl, hover⟩
    exact ⟨hover, time, rfl⟩

theorem endsRetracted_eq (records : List EdgeRecord) :
    endsRetracted records = (records.getLast?.map fun e => decide (e.kind = .retract)).getD false := by
  unfold endsRetracted
  cases records.getLast? <;> rfl

/-! ## The judgement of DRIVE (04 R64, R77) -/

/-- A station's items once DRIVE is judged. -/
def driveItem (s : State) (st : Station) (records : List EdgeRecord) (verdict : Verdict) : WaveItem :=
  { itemOf s st with retracted := endsRetracted records, verdict := some verdict }

section
variable (s : State) (st : Station) (overflow : Bool)

section
variable {before after : List EdgeRecord} {time : Word} (hbefore : ∀ e ∈ before, e.kind = .retract)

include hbefore

theorem judgeDrive_of_extend : judgeDrive st (before ++ ⟨.extend, time⟩ :: after) overflow s =
    let clean := isOne .extend (before ++ ⟨.extend, time⟩ :: after) overflow
    let v := judgedUnmarked s st { driveItem s st (before ++ ⟨.extend, time⟩ :: after) .extended with cleanDrive := clean }
      (creditedBy s (recordOf s st) time)
    if clean = true then v else giveMark 0x004#9 st v := by
  refine (if_pos (hasExtend_of_extend time)).trans ?_
  rw [creditFirst_of_extend hbefore]
  rfl

end

section
variable {records : List EdgeRecord} (hnone : ∀ e ∈ records, e.kind = .retract)

include hnone

theorem judgeDrive_of_missing (hreported : (itemOf s st).unreported = false) : judgeDrive st records overflow s =
    giveMark (if records = [] then 0x001#9 else 0x005#9) st
      (judgedUnmarked s st (driveItem s st records .missing) (recordOf s st)) := by
  have hevents : (if records.isEmpty then evMissedExtend else evMissedExtend ||| evChatter) =
      if records = [] then 0x001#9 else 0x005#9 := by
    cases records <;> rfl
  rw [judgedUnmarked_self, ← hevents]
  refine (if_neg (by rw [hasExtend_of_retracts hnone]; exact Bool.false_ne_true)).trans (if_neg ?_)
  change ¬(itemOf s st).unreported = true
  rw [hreported]
  exact Bool.false_ne_true

theorem judgeDrive_of_unreported (hunreported : (itemOf s st).unreported = true) : judgeDrive st records overflow s =
    judged st { recordOf s st with inDoubt := true, events := (recordOf s st).events ||| 0x040#9 }
      (askedEvent (recordOf s st).events 0x040#9) (setItem s st (driveItem s st records .inDoubt)) := by
  refine ((if_neg (by rw [hasExtend_of_retracts hnone]; exact Bool.false_ne_true)).trans (if_pos hunreported)).trans ?_
  exact setDoubt_eq st (setItem s st (driveItem s st records .inDoubt))

end

/-! ## The judgement of SETTLE (04 R68) -/

section
variable (records : List EdgeRecord)

theorem judgeSettle_of_retracted (h : (itemOf s st).verdict = some .extended) (hretracted : (itemOf s st).retracted = true) :
    judgeSettle st records overflow s = markIf (if records = [] then 0 else 0x004#9) st
      (judgedUnmarked s st (itemOf s st) (recordOf s st)) := by
  rw [judgedUnmarked_same]
  cases records <;> simp [judgeSettle, h, hretracted, evChatter, bit]

theorem judgeSettle_of_extended (h : (itemOf s st).verdict = some .extended) (hretracted : (itemOf s st).retracted = false) :
    judgeSettle st records overflow s = markIf (awaitedFault records overflow) st (judgedUnmarked s st
      { itemOf s st with cleanSettle := isOne .retract records overflow } (recordOf s st)) := by
  rw [judgedUnmarked_self]
  simp [judgeSettle, h, hretracted]

end

variable {s st} (hdoubtful : (itemOf s st).verdict = some .missing ∨ (itemOf s st).verdict = some .inDoubt)

include hdoubtful

theorem judgeSettle_of_doubtful (records : List EdgeRecord) : judgeSettle st records overflow s =
    if hasExtend records = true then markIf (lateFault records overflow) st (creditLate st records s)
    else markIf (if records.isEmpty then 0 else evChatter) st s := by
  rcases hdoubtful with h | h <;> simp [judgeSettle, h]

theorem judgeSettle_of_retracts {records : List EdgeRecord} (hnone : ∀ e ∈ records, e.kind = .retract) :
    judgeSettle st records overflow s = markIf (if records = [] then 0 else 0x004#9) st
      (judgedUnmarked s st (itemOf s st) (recordOf s st)) := by
  have hevents : (if records.isEmpty then 0 else evChatter) = if records = [] then 0 else 0x004#9 := by
    cases records <;> rfl
  rw [judgeSettle_of_doubtful overflow hdoubtful, hasExtend_of_retracts hnone, if_neg Bool.false_ne_true, hevents,
    judgedUnmarked_same]

theorem judgeSettle_of_late {before after : List EdgeRecord} {time : Word} (hbefore : ∀ e ∈ before, e.kind = .retract) :
    judgeSettle st (before ++ ⟨.extend, time⟩ :: after) overflow s =
      markIf (lateFault (before ++ ⟨.extend, time⟩ :: after) overflow) st
        (judgedUnmarked s st (itemOf s st) (lateCreditedBy s st time)) := by
  rw [judgeSettle_of_doubtful overflow hdoubtful, if_pos (hasExtend_of_extend time), creditLate_of_extend hbefore, judgedUnmarked,
    setItem_self]

end

/-! ## The faults of an answer (04 R68) -/

theorem awaitedFault_of_clean {records : List EdgeRecord} {overflow : Bool} (h : isOne .retract records overflow = true) :
    awaitedFault records overflow = 0 := if_pos h

theorem awaitedFault_of_none : awaitedFault [] false = 0x002#9 := rfl

theorem awaitedFault_of_other {records : List EdgeRecord} {overflow : Bool} (h : ¬isOne .retract records overflow = true)
    (hsome : records ≠ [] ∨ overflow = true) : awaitedFault records overflow = 0x004#9 := by
  refine (if_neg h).trans (if_neg ?_)
  rw [Bool.and_eq_true, List.isEmpty_iff, Bool.not_eq_true']
  rintro ⟨hempty, hover⟩
  exact hsome.elim (fun hne => hne hempty) fun ht => Bool.false_ne_true (hover.symm.trans ht)

theorem lateFault_eq {before after : List EdgeRecord} {time : Word} {overflow : Bool} (hbefore : ∀ e ∈ before, e.kind = .retract) :
    lateFault (before ++ ⟨.extend, time⟩ :: after) overflow =
      awaitedFault after overflow ||| if before ≠ [] ∨ overflow = true then 0x004#9 else 0 := by
  have hafter : afterExtend (before ++ ⟨.extend, time⟩ :: after) = after := by
    have hdrop : (before ++ ⟨.extend, time⟩ :: after).dropWhile (fun e => decide (e.kind ≠ .extend)) = ⟨.extend, time⟩ :: after := by
      rw [List.dropWhile_append_of_pos fun e he => by rw [hbefore e he]; rfl]
      rfl
    rw [afterExtend, hdrop]
    rfl
  have hfirst : (retractFirst (before ++ ⟨.extend, time⟩ :: after) || overflow) = true ↔ before ≠ [] ∨ overflow = true := by
    rw [Bool.or_eq_true]
    cases before with
    | nil => exact or_congr_left ⟨fun h => absurd h Bool.false_ne_true, fun h => absurd rfl h⟩
    | cons e before => exact or_congr_left ⟨fun _ => List.cons_ne_nil _ _, fun _ => decide_eq_true (hbefore e List.mem_cons_self)⟩
  rw [lateFault, hafter]
  refine congrArg (fun x => awaitedFault after overflow ||| x) ?_
  simp only [hfirst]
  rfl

end Sys2Proof.Machine
end

section
/-! PROOF. The answers of the drains of a phase end (04 R63 to R69, R71 to R74, R77). -/

namespace Sys2Proof.Machine

open Sys2Proof

/-- A record that agrees with another in its standing: service, marks, events and a RETIRE waiting. -/
def sameStanding (r rec : StationRecord) : Prop :=
  rec.service = r.service ∧ rec.marks = r.marks ∧ rec.events = r.events ∧ rec.retirePending = r.retirePending

/-- What a mark due at a judgement comes to, by the station's service and marks (04 R71, R73). -/
theorem judgement_giveMark {s : State} {st : Station} {item : WaveItem} {rec : StationRecord} {events : BitVec 9}
    (hpart : item.participant = (itemOf s st).participant) (hstanding : sameStanding (recordOf s st) rec) :
    let r := recordOf s st
    let v := giveMark events st (judgedUnmarked s st item rec)
    (r.service = .active → r.marks < 2 → Judgement s st false { item with marked := item.marked || isParticipant s st }
        { rec with marks := r.marks + 1, cleanRun := 0, events := r.events ||| events } (askedEvent r.events (r.events ||| events)) v)
      ∧ (r.service ≠ .active → Judgement s st false item { rec with events := r.events ||| events }
          (askedEvent r.events (r.events ||| events)) v)
      ∧ (r.service = .active → r.marks = 2 → s.wvc.climb = .settle → s.wvc.ending ≠ none → Judgement s st true
          (if (itemOf s st).participant = true then { item with marked := true, participant := false, awaited := false } else item)
          { rec with service := .barred, marks := 3, cleanRun := 0, events := r.events ||| events ||| 0x080#9 }
          (askedEvent r.events events ++ askedEvent (r.events ||| events) 0x080#9 ++ .drainQueue st ::
            (if (itemOf s st).participant = true then [.offValve st] else [.closeWindow st, .offValve st])) v) := by
  obtain ⟨hservice, hmarks, hevents, hpending⟩ := hstanding
  intro r v
  refine ⟨fun hactive hfew => ?_, fun hinactive => ?_, fun hactive htwo hclimb hending => ?_⟩
  · have hmark := judgement_giveMark_of_active hpart hpending hevents (hservice.trans hactive) (hmarks ▸ hfew) events
    rw [hevents, hmarks] at hmark
    exact hmark
  · have hmark := judgement_giveMark_of_inactive (item := item) hpending hevents (fun h => hinactive (hservice.symm.trans h)) events
    rw [hevents] at hmark
    exact hmark
  · have hmark := judgement_giveMark_of_third hpart hpending hevents (hservice.trans hactive) (hmarks.trans htwo) hclimb hending events
    rw [hevents] at hmark
    exact hmark

theorem cleanWave_eq (r : StationRecord) : r.cleanWave =
    if r.cleanRun + 1 < 16 then { r with cleanRun := r.cleanRun + 1 } else { r with cleanRun := 0, marks := r.marks - 1 } := by
  have hlimit : Config.cleanLimit ≤ r.cleanRun + 1 ↔ ¬r.cleanRun + 1 < 16 := Nat.not_lt.symm
  simp only [StationRecord.cleanWave, hlimit, ite_not]

/-- A drain answered at a phase end, its station judged. -/
theorem takeDrainAnswer_judged {s v : State} (hview : s.wvc.view ≠ .halted) {st : Station} {p : DrainPurpose}
    (hcloses : p.closesAfter = false) (hfound : (s.wvc.drains.find? fun d => decide (d.station = st)) = some ⟨st, p⟩)
    {records : List EdgeRecord} {overflow : Bool} (hacts : actOnAnswer p st records overflow (drainTaken ⟨st, p⟩ s) = v) :
    takeDrainAnswer st records overflow s = checkEnding v := by
  rw [takeDrainAnswer_of_found hview hfound, hacts, hcloses]
  rfl

/-- Settles O35. -/
theorem drainedRecordsAreJudgedAndEndThePhase : Obligations.DrainedRecordsAreJudgedAndEndThePhase := by
  refine ⟨?_, ?_, ?_⟩
  · intro s st records overflow hacting hview hfound hending c i r rest others asked credited judged leaves marks retracts
    have hjudged {barred : Bool} {item : WaveItem} {rec : StationRecord} {told : List Instr} {v : State}
        (hacts : judgeDrive st records overflow (drainTaken ⟨st, .driveEnd⟩ (took c s)) = v)
        (h : Judgement (drainTaken ⟨st, .driveEnd⟩ (took c s)) st barred item rec told v) : judged barred item rec told := by
      have hlead : leadsTo c s (checkEnding v) := leadsTo_of_taking (exec_drainAnswer st records overflow s) hacting
        (takeDrainAnswer_judged (s := took c s) hview rfl hfound hacts)
      obtain ⟨hend, hclimb, hdrains, hholds, howed, -, hmail, -⟩ := h.kept
      cases hothers : others with
      | true =>
        rw [h.checkEnding_of_others hending hothers] at hlead
        refine ⟨v, hlead, hdrains, hclimb, (h.record st).trans (if_pos rfl), fun x hx => (h.record x).trans (if_neg hx), hholds,
          fun _ => ⟨hend, howed, (h.item st).trans (if_pos rfl), fun x hx => (h.item x).trans (if_neg hx), hmail⟩,
          fun hf => Bool.noConfusion (hothers.symm.trans hf)⟩
      | false =>
        rw [h.checkEnding_drive hending hothers] at hlead
        obtain ⟨huDrains, huClimb, huRecord, huHolds, huEnding, huTimer, huFall, huItem, huMail⟩ := h.settleBegun_leaves
        generalize flushCounts (settleBegun v) = u at *
        refine ⟨u, hlead, huDrains, huClimb, (huRecord st).trans (if_pos rfl), fun x hx => (huRecord x).trans (if_neg hx), huHolds,
          fun ht => Bool.noConfusion (hothers.symm.trans ht), fun _ => ⟨huEnding, huTimer, huFall, ?_, fun x hx => ?_, huMail⟩⟩
        · rw [huItem, if_pos rfl]
          rfl
        · rw [huItem, if_neg hx]
          rfl
    have hmarks {item : WaveItem} {rec : StationRecord} {events : BitVec 9} (hpart : item.participant = i.participant)
        (hstanding : sameStanding r rec) (hacts : judgeDrive st records overflow (drainTaken ⟨st, .driveEnd⟩ (took c s)) =
          giveMark events st (judgedUnmarked (drainTaken ⟨st, .driveEnd⟩ (took c s)) st item rec)) : marks item rec events := by
      obtain ⟨hfew, hinactive, hthird⟩ := judgement_giveMark (s := drainTaken ⟨st, .driveEnd⟩ (took c s)) (events := events)
        hpart hstanding
      exact ⟨fun ha hm => hjudged hacts (hfew ha hm), fun ha => hjudged hacts (hinactive ha),
        fun ha hm hc => hjudged hacts (hthird ha hm hc (ne_of_eq_of_ne hending (Option.some_ne_none _)))⟩
    have hretracts : endsRetracted records = retracts := endsRetracted_eq records
    refine ⟨?_, fun hnone hreported => ?_, fun hnone hunreported => ?_⟩
    · intro before time after hrecords hbefore item
      have hjudge := judgeDrive_of_extend (drainTaken ⟨st, .driveEnd⟩ (took c s)) st overflow hbefore (time := time) (after := after)
      have hitem (clean : Bool) : { driveItem (drainTaken ⟨st, .driveEnd⟩ (took c s)) st records .extended with cleanDrive := clean } =
          item clean := by
        unfold driveItem
        rw [hretracts]
        rfl
      have hclean : isOne .extend records overflow = true ↔ before = [] ∧ after = [] ∧ overflow = false := by
        rw [hrecords]
        exact isOne_extend_iff
      rw [← hrecords] at hjudge
      dsimp only at hjudge
      rw [hitem] at hjudge
      refine ⟨fun hb ha ho => ?_, fun hother => ?_⟩
      · rw [hclean.mpr ⟨hb, ha, ho⟩, if_pos rfl] at hjudge
        exact hjudged hjudge (judgement_leaves rfl rfl)
      · have hnot : isOne .extend records overflow = false := by
          rw [Bool.eq_false_iff, ne_eq, hclean]
          rintro ⟨hb, ha, ho⟩
          rcases hother with h | h | h
          · exact h hb
          · exact h ha
          · exact Bool.noConfusion (ho.symm.trans h)
        rw [hnot, if_neg Bool.false_ne_true] at hjudge
        exact hmarks (item := item false) (rec := credited time) rfl ⟨rfl, rfl, rfl, rfl⟩ hjudge
    · have hjudge := judgeDrive_of_missing (drainTaken ⟨st, .driveEnd⟩ (took c s)) st overflow hnone hreported
      unfold driveItem at hjudge
      rw [hretracts] at hjudge
      exact hmarks (rec := r) rfl ⟨rfl, rfl, rfl, rfl⟩ hjudge
    · have hjudge := judgeDrive_of_unreported (drainTaken ⟨st, .driveEnd⟩ (took c s)) st overflow hnone hunreported
      unfold driveItem at hjudge
      rw [hretracts, ← askedEvent_or] at hjudge
      exact hjudged hjudge (judgement_judged _ (by rfl) _)
  · intro s st records overflow hacting hview hfound hending c i r rest others asked late judged leaves marks clean doubtful
    have hjudged {barred : Bool} {item : WaveItem} {rec : StationRecord} {told : List Instr} {v : State}
        (hacts : judgeSettle st records overflow (drainTaken ⟨st, .settleEnd⟩ (took c s)) = v)
        (h : Judgement (drainTaken ⟨st, .settleEnd⟩ (took c s)) st barred item rec told v) : judged barred item rec told := by
      have hlead : leadsTo c s (checkEnding v) := leadsTo_of_taking (exec_drainAnswer st records overflow s) hacting
        (takeDrainAnswer_judged (s := took c s) hview rfl hfound hacts)
      obtain ⟨hend, hclimb, hdrains, hholds, howed, -, hmail, -⟩ := h.kept
      unfold judged
      intro drains items records' left owed tells cleanOf counted commands
      cases hothers : others with
      | true =>
        rw [h.checkEnding_of_others hending hothers] at hlead
        exact ⟨v, hlead, h.item, fun _ => ⟨hdrains, hend, hclimb, howed, h.record, hmail⟩,
          fun hf => Bool.noConfusion hf⟩
      | false =>
        rw [h.checkEnding_settle hending hothers] at hlead
        have hcommands : closingCommands v = commands := h.closingCommands_eq
        have hcleaned (x : Station) : cleanedRecord v x = if cleanOf x = true then counted (records' x) else records' x := by
          rw [h.cleanedRecord_eq, cleanWave_eq, WaveItem.clean, ← Bool.and_assoc, ← Bool.and_assoc, ← Bool.and_assoc]
          rfl
        refine ⟨_, hlead, fun x => (itemOf_finishSettleEnd v x).trans (h.item x), fun hf => Bool.noConfusion hf,
          fun _ hsettle => ?_⟩
        obtain ⟨-, huEnding, huClimb, huSent, huRecord, huRetired, huNone⟩ := h.finishSettleEnd_leaves hsettle
        rw [hcommands] at huSent huNone
        generalize finishSettleEnd v = u at *
        refine ⟨huEnding, fun hp => huClimb.trans (if_pos hp), fun hp => huClimb.trans (if_neg hp), huSent,
          fun x hx => (huRecord x hx).trans (hcleaned x), huRetired, huNone⟩
    have hmarks {item : WaveItem} {rec : StationRecord} {events : BitVec 9} (hpart : item.participant = i.participant)
        (hstanding : sameStanding r rec) (hacts : judgeSettle st records overflow (drainTaken ⟨st, .settleEnd⟩ (took c s)) =
          giveMark events st (judgedUnmarked (drainTaken ⟨st, .settleEnd⟩ (took c s)) st item rec)) : marks item rec events := by
      obtain ⟨hfew, hinactive, hthird⟩ := judgement_giveMark (s := drainTaken ⟨st, .settleEnd⟩ (took c s)) (events := events)
        hpart hstanding
      exact ⟨fun ha hm => hjudged hacts (hfew ha hm), fun ha => hjudged hacts (hinactive ha),
        fun ha hm hc => hjudged hacts (hthird ha hm hc (ne_of_eq_of_ne hending (Option.some_ne_none _)))⟩
    have hleaves {item : WaveItem} {rec : StationRecord} (hstanding : sameStanding r rec)
        (hacts : judgeSettle st records overflow (drainTaken ⟨st, .settleEnd⟩ (took c s)) =
          markIf 0 st (judgedUnmarked (drainTaken ⟨st, .settleEnd⟩ (took c s)) st item rec)) : leaves item rec := by
      obtain ⟨-, -, hevents, hpending⟩ := hstanding
      exact hjudged (hacts.trans (if_pos rfl)) (judgement_leaves hpending hevents)
    have hmarked {item : WaveItem} {rec : StationRecord} {events : BitVec 9} (hpart : item.participant = i.participant)
        (hstanding : sameStanding r rec) (hsome : events ≠ 0)
        (hacts : judgeSettle st records overflow (drainTaken ⟨st, .settleEnd⟩ (took c s)) =
          markIf events st (judgedUnmarked (drainTaken ⟨st, .settleEnd⟩ (took c s)) st item rec)) : marks item rec events :=
      hmarks hpart hstanding (hacts.trans (if_neg hsome))
    have hself : sameStanding r r := ⟨rfl, rfl, rfl, rfl⟩
    have hone : isOne .retract records overflow = true ↔ clean := isOne_iff .retract records overflow
    refine ⟨fun hverdict hretracted => ?_, fun hverdict hretracted => ?_, fun hdoubt => ?_⟩
    · have hjudge := judgeSettle_of_extended (drainTaken ⟨st, .settleEnd⟩ (took c s)) st overflow records hverdict hretracted
      refine ⟨fun hclean => ?_, fun hnone hover => ?_, fun hnot hsome => ?_⟩
      · rw [hone.mpr hclean, awaitedFault_of_clean (hone.mpr hclean)] at hjudge
        exact hleaves hself hjudge
      · subst hnone hover
        exact hmarked (item := { i with cleanSettle := false }) (events := 0x002#9) rfl hself (by decide) hjudge
      · rw [awaitedFault_of_other (mt hone.mp hnot) hsome, Bool.eq_false_iff.mpr (mt hone.mp hnot)] at hjudge
        exact hmarked (item := { i with cleanSettle := false }) rfl hself (by decide) hjudge
    · have hjudge := judgeSettle_of_retracted (drainTaken ⟨st, .settleEnd⟩ (took c s)) st overflow records hverdict hretracted
      refine ⟨fun hnone => ?_, fun hsome => ?_⟩
      · rw [if_pos hnone] at hjudge
        exact hleaves hself hjudge
      · rw [if_neg hsome] at hjudge
        exact hmarked (item := i) rfl hself (by decide) hjudge
    · have hdoubt' : (itemOf (drainTaken ⟨st, .settleEnd⟩ (took c s)) st).verdict = some .missing
          ∨ (itemOf (drainTaken ⟨st, .settleEnd⟩ (took c s)) st).verdict = some .inDoubt := hdoubt
      refine ⟨fun hnone => ?_, fun hsome hretracts => ?_, ?_⟩
      · have hjudge := judgeSettle_of_retracts (records := records) overflow hdoubt' (by rw [hnone]; exact nofun)
        rw [if_pos hnone] at hjudge
        exact hleaves hself hjudge
      · have hjudge := judgeSettle_of_retracts overflow hdoubt' hretracts
        rw [if_neg hsome] at hjudge
        exact hmarked (item := i) rfl hself (by decide) hjudge
      · intro before time after hrecords hbefore one
        have hjudge := judgeSettle_of_late overflow hdoubt' (time := time) (after := after) hbefore
        rw [lateFault_eq hbefore, ← hrecords] at hjudge
        have hafter : isOne .retract after overflow = true ↔ overflow = false ∧ one := isOne_iff .retract after overflow
        have hlate : sameStanding r (late time) := ⟨rfl, rfl, rfl, rfl⟩
        refine ⟨fun hb hone' hover => ?_, fun ha hover => ?_, fun hsome hmore => ?_⟩
        · rw [awaitedFault_of_clean (hafter.mpr ⟨hover, hone'⟩), if_neg (by rw [hb, hover]; decide)] at hjudge
          exact hleaves hlate hjudge
        · have hfault : (awaitedFault after overflow ||| if before ≠ [] ∨ overflow = true then 0x004#9 else 0) =
              if before = [] then 0x002#9 else 0x006#9 := by
            rw [ha, hover, awaitedFault_of_none]
            by_cases hb : before = []
            · rw [if_pos hb, if_neg (by rw [hb]; decide)]
              rfl
            · rw [if_neg hb, if_pos (.inl hb)]
              rfl
          rw [hfault] at hjudge
          exact hmarked (item := i) (rec := late time) rfl hlate (by split_ifs <;> decide) hjudge
        · have hfault : awaitedFault after overflow ||| (if before ≠ [] ∨ overflow = true then 0x004#9 else 0) = 0x004#9 := by
            by_cases hclean : isOne .retract after overflow = true
            · obtain ⟨hover, hone'⟩ := hafter.mp hclean
              have hb : before ≠ [] := by
                rcases hmore with hb | hn | ht
                · exact hb
                · exact absurd hone' hn
                · exact Bool.noConfusion (hover.symm.trans ht)
              rw [awaitedFault_of_clean hclean, if_pos (.inl hb)]
              rfl
            · rw [awaitedFault_of_other hclean hsome]
              split_ifs <;> rfl
          rw [hfault] at hjudge
          exact hmarked (item := i) (rec := late time) rfl hlate (by decide) hjudge
  · intro s st records overflow hacting hview c found
    have hlead {t : State} (e : takeDrainAnswer st records overflow (took c s) = t) : leadsTo c s t :=
      leadsTo_of_taking (exec_drainAnswer st records overflow s) hacting e
    refine ⟨fun hnone => hlead ?_, fun hfound hending hsilent => hlead ?_⟩
    · refine (if_neg hview).trans ?_
      rw [show ((took c s).wvc.drains.find? fun d => decide (d.station = st)) = none from hnone]
    · refine (takeDrainAnswer_judged (s := took c s) hview rfl hfound rfl).trans ((checkEnding_of_none (by exact hending)).trans ?_)
      refine flushCounts_of_silent (Bool.eq_false_iff.mpr fun htells => ?_)
      simp only [tellsCounts, Bool.and_eq_true, List.all_eq_true, decide_eq_true_eq] at htells
      obtain ⟨⟨hdirty, -⟩, hall⟩ := htells
      rcases hsilent with hclean | ⟨d, hd, hp⟩
      · exact Bool.noConfusion (hclean.symm.trans hdirty)
      · refine hp (hall d ((List.mem_erase_of_ne ?_).mpr hd))
        rintro rfl
        exact hp rfl

end Sys2Proof.Machine
end

section
/-! SUPPORT. The restart check: the doubts resolved, the stations out of tolerance barred (10 R185, R186). -/

namespace Sys2Proof.Machine

open Sys2Proof

/-! ## The doubts resolved (10 R185) -/

/-- A station found to have made its stroke is counted, unless its count is at the limit. -/
def strokeCounts (before : State) (S : List Station) (s : State) (x : Station) : Bool :=
  madeStroke before S x && decide ((recordOf s x).count < 65535)

/-- The record of a station whose doubt is resolved. -/
def resolvedRecord (before : State) (S : List Station) (s : State) (x : Station) : StationRecord := { recordOf s x with
  inDoubt := false
  count := if madeStroke before S x = true then min 65535 ((recordOf s x).count + 1) else (recordOf s x).count }

theorem resolveStation_eq (before : State) (S : List Station) (x : Station) (s : State) : resolveStation before S x s = { s with
    wvc := { s.wvc with
      table := put s.wvc.table x (resolvedRecord before S s x)
      countsDirty := s.wvc.countsDirty || strokeCounts before S s x } } := by
  unfold resolveStation strokeCounts resolvedRecord
  cases hmade : madeStroke before S x with
  | false =>
    simp only [Bool.false_eq_true, if_false, Bool.false_and, Bool.or_false]
    rfl
  | true =>
    simp only [if_true, Bool.true_and]
    by_cases hlimit : (recordOf s x).count < 65535
    · rw [decide_eq_true hlimit, Bool.or_true]
      exact if_pos hlimit
    · rw [decide_eq_false hlimit, Bool.or_false]
      exact if_neg hlimit

theorem recordOf_resolveStation (before : State) (S : List Station) (x y : Station) (s : State) :
    recordOf (resolveStation before S x s) y = if y = x then resolvedRecord before S s x else recordOf s y := by
  rw [resolveStation_eq]
  simp only [recordOf, put_get, eq_comm]

theorem forEach_resolveStation (before : State) (S : List Station) (xs : List Station) (hnodup : xs.Nodup) (s : State) :
    (∃ T, forEach xs (resolveStation before S) s = { s with wvc := { s.wvc with
      table := T, countsDirty := s.wvc.countsDirty || xs.any (strokeCounts before S s) } })
    ∧ ∀ y, recordOf (forEach xs (resolveStation before S) s) y =
        if y ∈ xs then resolvedRecord before S s y else recordOf s y := by
  induction xs generalizing s with
  | nil =>
    refine ⟨⟨s.wvc.table, ?_⟩, fun y => by rw [if_neg List.not_mem_nil]; rfl⟩
    rw [List.any_nil, Bool.or_false]
    rfl
  | cons x xs ih =>
    obtain ⟨hx, hxs⟩ := List.nodup_cons.mp hnodup
    obtain ⟨⟨T, hrest⟩, hrecord⟩ := ih hxs (resolveStation before S x s)
    have hstep : forEach (x :: xs) (resolveStation before S) s =
        forEach xs (resolveStation before S) (resolveStation before S x s) := rfl
    have hne {y : Station} (hy : y ∈ xs) : y ≠ x := fun he => hx (he ▸ hy)
    have hkept {y : Station} (hy : y ∈ xs) : recordOf (resolveStation before S x s) y = recordOf s y := by
      rw [recordOf_resolveStation, if_neg (hne hy)]
    have hany : xs.any (strokeCounts before S (resolveStation before S x s)) = xs.any (strokeCounts before S s) :=
      Bool.eq_iff_iff.mpr (by
        simp only [List.any_eq_true]
        exact exists_congr fun y => and_congr_right fun hy => by rw [strokeCounts, strokeCounts, hkept hy])
    rw [hstep]
    refine ⟨⟨T, ?_⟩, fun y => ?_⟩
    · rw [hrest, hany, resolveStation_eq, List.any_cons, Bool.or_assoc]
    · rw [hrecord]
      by_cases hy : y ∈ xs
      · rw [if_pos hy, if_pos (List.mem_cons_of_mem _ hy), resolvedRecord, hkept hy]
        rfl
      · rw [if_neg hy, recordOf_resolveStation]
        by_cases hyx : y = x
        · rw [if_pos hyx, hyx, if_pos List.mem_cons_self]
        · rw [if_neg hyx, if_neg (mt List.mem_cons.mp (not_or.mpr ⟨hyx, hy⟩))]

/-- The stations compared that stand in doubt. -/
def doubted (S : List Station) (s : State) : List Station := S.filter fun x => (recordOf s x).inDoubt

theorem resolveDoubts_spec {S : List Station} (hnodup : S.Nodup) (s : State) :
    (∃ T, resolveDoubts S s = { s with wvc := { s.wvc with
      table := T, countsDirty := s.wvc.countsDirty || (doubted S s).any (strokeCounts s S s) } })
    ∧ ∀ y, recordOf (resolveDoubts S s) y = if y ∈ doubted S s then resolvedRecord s S s y else recordOf s y :=
  forEach_resolveStation s S (doubted S s) (hnodup.filter _) s

theorem resolveDoubts_of_none {S : List Station} {s : State} (h : ∀ x ∈ S, (recordOf s x).inDoubt = false) :
    resolveDoubts S s = s := by
  have hnone : S.filter (fun x => (recordOf s x).inDoubt) = [] :=
    List.filter_eq_nil_iff.mpr fun x hx => by rw [h x hx]; exact Bool.false_ne_true
  rw [resolveDoubts, hnone]
  rfl

/-! ## The stations out of tolerance barred (10 R186) -/

/-- The record of a station barred with an event. -/
def barredRecord (events : BitVec 9) (r : StationRecord) : StationRecord :=
  { r with service := .barred, events := r.events ||| (events ||| evBarred) }

theorem recordOf_barOwing (events : BitVec 9) (x y : Station) (s : State) :
    recordOf (barOwing events x s) y = if y = x then barredRecord events (recordOf s x) else recordOf s y := by
  rw [barOwing_eq]
  exact recordOf_barTaken events x y s

theorem recordOf_forEach_barOwing (events : BitVec 9) (xs : List Station) (hnodup : xs.Nodup) (s : State) (y : Station) :
    recordOf (forEach xs (barOwing events) s) y = if y ∈ xs then barredRecord events (recordOf s y) else recordOf s y := by
  induction xs generalizing s with
  | nil =>
    rw [if_neg List.not_mem_nil]
    rfl
  | cons x xs ih =>
    obtain ⟨hx, hxs⟩ := List.nodup_cons.mp hnodup
    have hstep : forEach (x :: xs) (barOwing events) s = forEach xs (barOwing events) (barOwing events x s) := rfl
    rw [hstep, ih hxs, recordOf_barOwing]
    by_cases hyx : y = x
    · rw [hyx, if_neg hx, if_pos rfl, if_pos List.mem_cons_self]
    · rw [if_neg hyx]
      by_cases hy : y ∈ xs
      · rw [if_pos hy, if_pos (List.mem_cons_of_mem _ hy)]
      · rw [if_neg hy, if_neg (mt List.mem_cons.mp (not_or.mpr ⟨hyx, hy⟩))]

/-- What bars leave of the Wave Controller: its drive, its view and the windows of RECOVERY stand, and a climb HELD stays so. -/
theorem forEach_barOwing_rest (events : BitVec 9) (xs : List Station) (s : State) : ∃ T W DR H C D M,
    forEach xs (barOwing events) s = { s with
      wvc := { s.wvc with table := T, wave := W, drains := DR, holds := H, climb := C, countsDirty := D }, mail := M }
    ∧ (s.wvc.climb = .held → C = .held) := by
  induction xs generalizing s with
  | nil => exact ⟨_, _, _, _, _, _, _, rfl, id⟩
  | cons x xs ih =>
    have hstep : forEach (x :: xs) (barOwing events) s = forEach xs (barOwing events) (barTaken events x s) := by
      rw [← barOwing_eq]
      rfl
    obtain ⟨T, W, DR, H, C, D, M, hrest, hheld⟩ := ih (barTaken events x s)
    refine ⟨T, W, DR, H, C, D, M, hstep.trans hrest, fun hs => hheld ?_⟩
    refine (if_neg ?_).trans hs
    rw [hs]
    simp

/-! ## Bars with the climb HELD -/

/-- The sector falls below its least number once stations are barred. -/
def shortBehind (s : State) (xs : List Station) (k : Sector) : Bool :=
  used s k && decide (((stationsOf k).filter fun y => isActive s y && !xs.contains y).length < s.psv.rig.minActive)

theorem isActive_barOwing (events : BitVec 9) (x y : Station) (s : State) :
    isActive (barOwing events x s) y = (isActive s y && decide (y ≠ x)) := by
  rw [isActive, recordOf_barOwing]
  by_cases hy : y = x
  · rw [if_pos hy, decide_eq_false (not_not_intro hy), Bool.and_false]
    rfl
  · rw [if_neg hy, decide_eq_true hy, Bool.and_true]
    rfl

theorem barOwing_psv (events : BitVec 9) (x : Station) (s : State) : (barOwing events x s).psv = s.psv := by
  rw [barOwing_eq]
  rfl

theorem shortBehind_barOwing (events : BitVec 9) (x : Station) (xs : List Station) (s : State) (k : Sector) :
    shortBehind (barOwing events x s) xs k = shortBehind s (x :: xs) k := by
  have hfilter : ((stationsOf k).filter fun y => isActive (barOwing events x s) y && !xs.contains y) =
      (stationsOf k).filter fun y => isActive s y && !(x :: xs).contains y :=
    List.filter_congr fun y _ => by
      rw [isActive_barOwing, List.contains_cons, Bool.not_or, Bool.and_assoc]
      congr 2
      by_cases hy : y = x <;> simp [hy]
  rw [shortBehind, shortBehind, hfilter, used, used, barOwing_psv]

theorem sectorOf_of_mem_stationsOf {x : Station} {k : Sector} (h : x ∈ stationsOf k) : sectorOf x = k := by
  revert x k
  decide

theorem shortWithout_eq (s : State) (x : Station) : shortWithout s x = shortBehind s [x] (sectorOf x) := by
  have hfilter : ((stationsOf (sectorOf x)).filter fun y => decide (y ≠ x) && decide ((recordOf s y).service = .active)) =
      (stationsOf (sectorOf x)).filter fun y => isActive s y && !List.contains [x] y :=
    List.filter_congr fun y _ => by
      rw [Bool.and_comm]
      congr 1
      by_cases hy : y = x <;> simp [hy]
  rw [shortWithout, hfilter]
  rfl

/-- More stations barred leave a sector shorter. -/
theorem shortBehind_mono {s : State} {xs ys : List Station} (h : xs ⊆ ys) {k : Sector} (hshort : shortBehind s xs k = true) :
    shortBehind s ys k = true := by
  obtain ⟨hused, hless⟩ := (Bool.and_eq_true _ _).mp hshort
  refine (Bool.and_eq_true _ _).mpr ⟨hused, decide_eq_true (Nat.lt_of_le_of_lt (List.Sublist.length_le ?_) (of_decide_eq_true hless))⟩
  refine List.monotone_filter_right _ fun y hy => ?_
  simp only [Bool.and_eq_true, Bool.not_eq_true', List.contains_eq_mem, decide_eq_false_iff_not] at hy ⊢
  exact ⟨hy.1, fun hmem => hy.2 (h hmem)⟩

/-- Stations of other sectors leave a sector as it is. -/
theorem shortBehind_apart {s : State} {x : Station} {xs : List Station} (h : ∀ y ∈ xs, sectorOf y ≠ sectorOf x) :
    shortBehind s (x :: xs) (sectorOf x) = shortBehind s [x] (sectorOf x) := by
  have hfilter : ((stationsOf (sectorOf x)).filter fun y => isActive s y && !(x :: xs).contains y) =
      (stationsOf (sectorOf x)).filter fun y => isActive s y && !List.contains [x] y :=
    List.filter_congr fun y hy => by
      have hnot : xs.contains y = false := by
        rw [List.contains_eq_mem, decide_eq_false_iff_not]
        exact fun hmem => h y hmem (sectorOf_of_mem_stationsOf hy)
      rw [List.contains_cons, List.contains_cons, hnot]
      rfl
  rw [shortBehind, shortBehind, hfilter]

/-- SHORT joins exactly where a sector of a barred station ends short. -/
theorem exists_shortBehind_cons (s : State) (x : Station) (xs : List Station) :
    (∃ y ∈ x :: xs, shortBehind s (x :: xs) (sectorOf y) = true) ↔
      shortWithout s x = true ∨ ∃ y ∈ xs, shortBehind s (x :: xs) (sectorOf y) = true := by
  rw [shortWithout_eq]
  constructor
  · rintro ⟨y, hy, hshort⟩
    by_cases hsame : ∃ z ∈ xs, sectorOf z = sectorOf y
    · obtain ⟨z, hz, he⟩ := hsame
      exact .inr ⟨z, hz, he ▸ hshort⟩
    · have hyx : y = x := (List.mem_cons.mp hy).resolve_right fun hy => hsame ⟨y, hy, rfl⟩
      subst hyx
      rw [shortBehind_apart fun z hz he => hsame ⟨z, hz, he⟩] at hshort
      exact .inl hshort
  · rintro (hshort | ⟨y, hy, hshort⟩)
    · exact ⟨x, List.mem_cons_self, shortBehind_mono (by simp) hshort⟩
    · exact ⟨y, List.mem_cons_of_mem _ hy, hshort⟩

/-- A reason that joins twice joins once. -/
theorem joins_twice (p q : Prop) [Decidable p] [Decidable q] (h m : BitVec 6) :
    (if q then (if p then h ||| m else h) ||| m else if p then h ||| m else h) = if p ∨ q then h ||| m else h := by
  by_cases hp : p
  · by_cases hq : q
    · rw [if_pos hq, if_pos hp, if_pos (.inl hp), BitVec.or_assoc, BitVec.or_self]
    · rw [if_neg hq, if_pos hp, if_pos (.inl hp)]
  · by_cases hq : q
    · rw [if_pos hq, if_neg hp, if_pos (.inr hq)]
    · rw [if_neg hq, if_neg hp, if_neg (not_or.mpr ⟨hp, hq⟩)]

/-- The hold reasons once stations have been barred. -/
def holdsBehind (s : State) (xs : List Station) : BitVec 6 :=
  if ∃ y ∈ xs, shortBehind s xs (sectorOf y) = true then s.wvc.holds ||| 0x10#6 else s.wvc.holds

/-- What bars leave where the climb is HELD. -/
theorem forEach_barOwing_held (events : BitVec 9) (xs : List Station) (hnodup : xs.Nodup) {s : State}
    (hheld : s.wvc.climb = .held) : ∃ T, forEach xs (barOwing events) s = { s with
      wvc := { s.wvc with
        table := T, holds := holdsBehind s xs, countsDirty := s.wvc.countsDirty || !xs.isEmpty
        drains := s.wvc.drains ++ xs.map fun x => ⟨x, .discard⟩ }
      mail := s.mail ++ xs.flatMap fun x => askedEvent (recordOf s x).events (events ||| evBarred)
        ++ [.drainQueue x, .closeWindow x, .offValve x] } := by
  induction xs generalizing s with
  | nil =>
    refine ⟨s.wvc.table, ?_⟩
    rw [holdsBehind, if_neg (fun ⟨_, hy, _⟩ => List.not_mem_nil hy), List.isEmpty_nil, Bool.not_true, Bool.or_false, List.map_nil,
      List.append_nil, List.flatMap_nil, List.append_nil]
    rfl
  | cons x xs ih =>
    obtain ⟨hx, hxs⟩ := List.nodup_cons.mp hnodup
    have hstep : forEach (x :: xs) (barOwing events) s = forEach xs (barOwing events) (barOwing events x s) := rfl
    have hapart : isParticipant s x = false := by
      rw [isParticipant, inWave, hheld]
      rfl
    have hone : ∃ T, barOwing events x s = { s with
        wvc := { s.wvc with
          table := T, holds := if shortWithout s x = true then s.wvc.holds ||| 0x10#6 else s.wvc.holds, countsDirty := true
          drains := s.wvc.drains ++ [⟨x, .discard⟩] }
        mail := s.mail ++ (askedEvent (recordOf s x).events (events ||| evBarred)
          ++ [.drainQueue x, .closeWindow x, .offValve x]) } := by
      have hdwell : decide (s.wvc.climb = .dwell) = false := by
        rw [hheld]
        rfl
      rw [barOwing_eq, barTaken, barDrain, hapart, hdwell]
      simp only [Bool.and_false, Bool.false_eq_true, if_false,
        List.append_nil, List.append_assoc]
      exact ⟨_, rfl⟩
    obtain ⟨T, hT⟩ := hone
    have hclimb : (barOwing events x s).wvc.climb = .held := by
      rw [hT]
      exact hheld
    obtain ⟨T', hrest⟩ := ih hxs hclimb
    have hkept : (xs.flatMap fun y => askedEvent (recordOf (barOwing events x s) y).events (events ||| evBarred)
        ++ [Instr.drainQueue y, .closeWindow y, .offValve y]) = xs.flatMap fun y =>
          askedEvent (recordOf s y).events (events ||| evBarred) ++ [.drainQueue y, .closeWindow y, .offValve y] :=
      List.flatMap_congr fun y hy => by rw [recordOf_barOwing, if_neg (fun he : y = x => hx (he ▸ hy))]
    have hholds : holdsBehind (barOwing events x s) xs = holdsBehind s (x :: xs) := by
      unfold holdsBehind
      simp only [shortBehind_barOwing, exists_shortBehind_cons]
      rw [hT]
      dsimp only
      exact joins_twice _ _ _ _
    refine ⟨T', hstep.trans ?_⟩
    rw [hrest, hholds, hkept, hT]
    simp only [Bool.true_or, List.isEmpty_cons, Bool.not_false, Bool.or_true, List.map_cons, List.flatMap_cons, List.append_assoc,
      List.singleton_append]

end Sys2Proof.Machine
end

section
/-! PROOF. RECOVERY ends, and the restart check resolves the doubts (10 R184 to R187). -/

namespace Sys2Proof.Machine

open Sys2Proof

/-! ## The restart check -/

theorem restartCheck_of_few {s : State} (h : (comparedStations s).length < 4) : restartCheck s = s := if_pos h

theorem restartCheck_of_many {s : State} (h : 4 ≤ (comparedStations s).length) : restartCheck s =
    flushCounts (barOutOfTolerance (comparedStations s) (resolveDoubts (comparedStations s) s)) :=
  if_neg (Nat.not_lt.mpr h)

/-- The restart check leaves the windows of RECOVERY, and a climb HELD. -/
theorem restartCheck_kept (s : State) : (restartCheck s).wvc.recoveryWindows = s.wvc.recoveryWindows
    ∧ (s.wvc.climb = .held → (restartCheck s).wvc.climb = .held) := by
  by_cases h : (comparedStations s).length < 4
  · rw [restartCheck_of_few h]
    exact ⟨rfl, id⟩
  · rw [restartCheck_of_many (Nat.not_lt.mp h), flushCounts_wvc]
    obtain ⟨⟨T, hresolved⟩, -⟩ := resolveDoubts_spec (nodup_comparedStations s) s
    obtain ⟨T', W, DR, H, C, D, M, hbarred, hheld⟩ := forEach_barOwing_rest evDeviation
      ((comparedStations s).filter (outOfTolerance (resolveDoubts (comparedStations s) s) (comparedStations s)))
      (resolveDoubts (comparedStations s) s)
    rw [barOutOfTolerance, hbarred, hresolved]
    refine ⟨rfl, fun hs => hheld ?_⟩
    rw [hresolved]
    exact hs

theorem mem_doubted (S : List Station) (s : State) (x : Station) :
    x ∈ doubted S s ↔ x ∈ S ∧ (recordOf s x).inDoubt = true := List.mem_filter

theorem any_strokeCounts (S : List Station) (s : State) : (doubted S s).any (strokeCounts s S s) = S.any fun x =>
    (recordOf s x).inDoubt && decide ((recordOf s x).count < 65535)
      && decide ((S.length : Int) * s.psv.rig.strokeLength ≤ 2 * scaledDifference s S x) := by
  rw [Bool.eq_iff_iff]
  simp only [List.any_eq_true, mem_doubted, strokeCounts, madeStroke, Bool.and_eq_true, decide_eq_true_eq]
  exact exists_congr fun x => ⟨fun ⟨⟨hx, hd⟩, hm, hc⟩ => ⟨hx, ⟨hd, hc⟩, hm⟩, fun ⟨hx, ⟨hd, hc⟩, hm⟩ => ⟨⟨hx, hd⟩, hm, hc⟩⟩

theorem recordOf_barOutOfTolerance {S : List Station} (hnodup : S.Nodup) (s : State) (x : Station) :
    recordOf (barOutOfTolerance S s) x =
      if x ∈ S ∧ outOfTolerance s S x = true then barredRecord evDeviation (recordOf s x) else recordOf s x := by
  rw [barOutOfTolerance, recordOf_forEach_barOwing _ _ (hnodup.filter _)]
  simp only [List.mem_filter]

/-- What the restart check comes to with the climb HELD. -/
theorem restartCheck_held {s : State} (hmany : 4 ≤ (comparedStations s).length) (hheld : s.wvc.climb = .held) :
    let S := comparedStations s
    let barred : List Station := S.filter (outOfTolerance (resolveDoubts S s) S)
    let owed : Bool := s.wvc.countsDirty || (doubted S s).any (strokeCounts s S s) || !barred.isEmpty
    let told : Bool := owed && s.wvc.ending.isNone && s.wvc.drains.all fun d => decide (d.purpose = .discard)
    ∃ T, restartCheck s = { s with
      wvc := { s.wvc with
        table := T, holds := holdsBehind s barred, countsDirty := owed && !told
        drains := s.wvc.drains ++ barred.map fun x => ⟨x, .discard⟩ }
      mail := s.mail ++ (barred.flatMap fun x => askedEvent (recordOf s x).events (0x010#9 ||| 0x080#9)
          ++ [.drainQueue x, .closeWindow x, .offValve x])
        ++ if told = true then [.countsChanged] else [] } := by
  intro S barred owed told
  obtain ⟨⟨T, hresolved⟩, hrecord⟩ := resolveDoubts_spec (nodup_comparedStations s) s
  have hcheck : restartCheck s = flushCounts (barOutOfTolerance S (resolveDoubts S s)) := restartCheck_of_many hmany
  have hkept (x : Station) : (recordOf (resolveDoubts S s) x).service = (recordOf s x).service
      ∧ (recordOf (resolveDoubts S s) x).events = (recordOf s x).events := by
    rw [hrecord]
    split <;> exact ⟨rfl, rfl⟩
  have hclimb : (resolveDoubts S s).wvc.climb = .held := by
    rw [hresolved]
    exact hheld
  obtain ⟨T', hbarred⟩ := forEach_barOwing_held evDeviation barred ((nodup_comparedStations s).filter _) hclimb
  have hshort (k : Sector) : shortBehind (resolveDoubts S s) barred k = shortBehind s barred k := by
    have hactive (x : Station) : isActive (resolveDoubts S s) x = isActive s x := by rw [isActive, isActive, (hkept x).1]
    unfold shortBehind used
    simp only [hactive]
    rw [hresolved]
  have hholds : holdsBehind (resolveDoubts S s) barred = holdsBehind s barred := by
    unfold holdsBehind
    simp only [hshort]
    rw [hresolved]
  have hmail : (barred.flatMap fun x => askedEvent (recordOf (resolveDoubts S s) x).events (evDeviation ||| evBarred)
      ++ [Instr.drainQueue x, .closeWindow x, .offValve x]) = barred.flatMap fun x =>
        askedEvent (recordOf s x).events (0x010#9 ||| 0x080#9) ++ [.drainQueue x, .closeWindow x, .offValve x] :=
    List.flatMap_congr fun x _ => by
      rw [(hkept x).2]
      rfl
  have hboth : barOutOfTolerance S (resolveDoubts S s) = forEach barred (barOwing evDeviation) (resolveDoubts S s) := rfl
  rw [hholds, hmail] at hbarred
  have hleft : ∃ T, barOutOfTolerance S (resolveDoubts S s) = { s with
      wvc := { s.wvc with
        table := T, holds := holdsBehind s barred, countsDirty := owed
        drains := s.wvc.drains ++ barred.map fun x => ⟨x, .discard⟩ }
      mail := s.mail ++ barred.flatMap fun x => askedEvent (recordOf s x).events (0x010#9 ||| 0x080#9)
        ++ [.drainQueue x, .closeWindow x, .offValve x] } := by
    refine ⟨T', ?_⟩
    have howed : owed = (s.wvc.countsDirty || (doubted S s).any (strokeCounts s S s) || !barred.isEmpty) := rfl
    rw [hboth, hbarred, howed]
    clear_value owed told barred
    generalize resolveDoubts S s = w at *
    subst hresolved
    rfl
  obtain ⟨U, hleft⟩ := hleft
  have hall : ((s.wvc.drains ++ barred.map fun x => (⟨x, .discard⟩ : Drain)).all fun d => decide (d.purpose = .discard)) =
      s.wvc.drains.all fun d => decide (d.purpose = .discard) := by
    rw [List.all_append]
    simp
  have hending : decide (s.wvc.ending = none) = s.wvc.ending.isNone := by cases s.wvc.ending <;> simp
  have htells : tellsCounts (barOutOfTolerance S (resolveDoubts S s)) = told := by
    have htold : told = (owed && s.wvc.ending.isNone && s.wvc.drains.all fun d => decide (d.purpose = .discard)) := rfl
    rw [htold, hleft]
    clear_value told owed barred
    rw [tellsCounts, hall, hending]
  clear hbarred hboth
  generalize barOutOfTolerance S (resolveDoubts S s) = w at *
  clear_value told owed barred
  refine ⟨U, ?_⟩
  rw [hcheck, flushCounts_eq, htells, hleft]

/-! ## The end of RECOVERY (10 R187) -/

theorem isReady_iff (s : State) : isReady s = true ↔ ∀ x, isActive s x = true → isFresh s x = true := by
  simp only [isReady, activeStations, List.all_eq_true, List.mem_filter, mem_allStations, true_and]

theorem closeRecoveryWindows_eq (s : State) : closeRecoveryWindows s = { s with
    wvc := { s.wvc with
      recoveryWindows := [], drains := s.wvc.drains ++ s.wvc.recoveryWindows.map fun x => ⟨x, .discard⟩ }
    mail := s.mail ++ s.wvc.recoveryWindows.flatMap fun x => [.drainQueue x, .closeWindow x] } :=
  forEach_sendDrainClose _ _ _

theorem judgeReadiness_of_ready {s : State} (h : isSettling s = true) (hready : isReady s = true) : judgeReadiness s = runCheck s :=
  if_pos (Bool.and_eq_true_iff.mpr ⟨h, hready⟩)

theorem judgeReadiness_of_not {s : State} (h : ¬(isSettling s = true ∧ isReady s = true)) : judgeReadiness s = s :=
  if_neg fun hp => h (Bool.and_eq_true_iff.mp hp)

/-- What the end of RECOVERY leaves, `taken` being the state the check is done in. -/
theorem runCheck_does (taken : State) :
    let v := restartCheck { taken with psv := { taken.psv with recovery := .ready } }
    let t := refreshLamps (runCheck taken)
    t.psv.state = .run
      ∧ t.wvc = { v.wvc with
          recoveryWindows := []
          drains := v.wvc.drains ++ taken.wvc.recoveryWindows.map fun x => (⟨x, .discard⟩ : Drain) }
      ∧ t.mail = v.mail ++ (taken.wvc.recoveryWindows.flatMap fun x => [.drainQueue x, .closeWindow x])
          ++ (noticed.map fun b => .partStateNotice b .run)
      ∧ t.psv.recovery = .checked ∧ t.psv.recoveryTimer = none ∧ t.psv.lastRecoveryEnd = some taken.tmb.siteSeconds
      ∧ t.psv.jobMark = taken.psv.jobMark ∧ t.tmb = taken.tmb ∧ t.vdu = taken.vdu ∧ t.fds = taken.fds ∧ t.ltr = taken.ltr
      ∧ (taken.wvc.climb = .held → t.wvc.climb = .held) := by
  intro v t
  obtain ⟨hwindows, hheld⟩ := restartCheck_kept { taken with psv := { taken.psv with recovery := .ready } }
  have hrest := waveless_eq (waveless_restartCheck { taken with psv := { taken.psv with recovery := .ready } })
  have ht : t = refreshLamps (endRecovery v) := rfl
  clear_value t
  have hv : v = restartCheck { taken with psv := { taken.psv with recovery := .ready } } := rfl
  rw [← hv] at hwindows hheld hrest
  clear_value v
  rw [ht, endRecovery, closeRecoveryWindows_eq, hwindows]
  have hkept : v.tmb = taken.tmb ∧ v.vdu = taken.vdu ∧ v.fds = taken.fds ∧ v.ltr = taken.ltr ∧ v.psv.jobMark = taken.psv.jobMark := by
    rw [hrest]
    exact ⟨rfl, rfl, rfl, rfl, rfl⟩
  obtain ⟨htmb, hvdu, hfds, hltr, hmark⟩ := hkept
  exact ⟨rfl, rfl, rfl, rfl, rfl, congrArg (fun m : Tmb => some m.siteSeconds) htmb, hmark, htmb, hvdu, hfds, hltr, hheld⟩

/-- Settles O33. -/
theorem recoveryEndsAndDoubtsAreResolved : Obligations.RecoveryEndsAndDoubtsAreResolved := by
  refine ⟨?_, ?_⟩
  · intro s st hacting ended
    have hread {t : State} (e : judgeReadiness (took (.readingNotice st) s) = t) : leadsTo (.readingNotice st) s t :=
      leadsTo_of_taking (exec_readingNotice st s) hacting e
    have hexpires {t : State} (e : expireRecoveryWindow s = t) : leadsTo .recoveryWindowExpiry s t :=
      leadsTo_of_whileActing (exec_recoveryWindowExpiry s) hacting e
    refine ⟨fun hsettling hready => ?_, fun hsettling ⟨x, hx, hfresh⟩ => hread (judgeReadiness_of_not fun hp => ?_),
      fun hnot => ⟨hread (judgeReadiness_of_not fun hp => ?_), hexpires (if_neg ?_)⟩, fun hsettling => ?_⟩
    · refine ⟨_, hread (judgeReadiness_of_ready (by exact hsettling) ((isReady_iff _).mpr hready)), ?_⟩
      exact runCheck_does (took (.readingNotice st) s)
    · exact Bool.noConfusion (hfresh.symm.trans ((isReady_iff _).mp hp.2 x hx))
    · exact Bool.noConfusion (hnot.symm.trans hp.1)
    · rw [hnot]
      exact Bool.false_ne_true
    · refine ⟨_, hexpires (if_pos hsettling), ?_⟩
      exact runCheck_does s
  · intro s S out n height count
    have hnodup : S.Nodup := nodup_comparedStations s
    have hout (x : Station) : out s x ↔ x ∈ S ∧ outOfTolerance s S x = true :=
      and_congr_right fun _ => decide_eq_true_iff.symm
    refine ⟨scaledDifference_eq s S, mem_comparedStations s, restartCheck_of_few, fun hmany => ?_, fun hmany hheld => ?_,
      fun hmany hdoubts hnone hdirty => ?_, fun x => ?_, fun x hx hdoubt => ?_, fun x hx => ?_, fun x => ?_⟩
    · rw [restartCheck_of_many hmany, flushCounts_wvc]
    · intro v barred asked short rises owed told
      have hcheck := restartCheck_held hmany hheld
      have hrig : (resolveDoubts S s).psv = s.psv := by
        obtain ⟨⟨T, hresolved⟩, -⟩ := resolveDoubts_spec hnodup s
        rw [hresolved]
      have hbarred : S.filter (outOfTolerance (resolveDoubts S s) S) = barred :=
        List.filter_congr fun x _ => by rw [outOfTolerance, hrig]
      have hshort (k : Sector) : shortBehind s barred k = true ↔ short k := by
        rw [shortBehind, Bool.and_eq_true, decide_eq_true_iff]
      dsimp only at hcheck
      rw [show (comparedStations s).filter _ = barred from hbarred, any_strokeCounts] at hcheck
      obtain ⟨T, hcheck⟩ := hcheck
      have hv : v = restartCheck s := rfl
      clear_value v barred
      rw [hv, hcheck]
      refine ⟨rfl, rfl, fun ⟨x, hx, hs⟩ => ?_, fun hnone => ?_, rfl⟩
      · exact if_pos ⟨x, hx, (hshort _).mpr hs⟩
      · exact if_neg fun ⟨x, hx, hs⟩ => hnone x hx ((hshort _).mp hs)
    · have hnobody : S.filter (outOfTolerance s S) = [] :=
        List.filter_eq_nil_iff.mpr fun x hx hp => hnone x ((hout x).mpr ⟨hx, hp⟩)
      have hbars : barOutOfTolerance S s = s := by
        rw [barOutOfTolerance, hnobody]
        rfl
      rw [restartCheck_of_many hmany, resolveDoubts_of_none hdoubts, hbars]
      exact flushCounts_of_silent (by rw [tellsCounts, hdirty, Bool.false_and, Bool.false_and])
    · rw [recordOf_barOutOfTolerance hnodup]
      simp only [hout]
      rfl
    · obtain ⟨-, hrecord⟩ := resolveDoubts_spec hnodup s
      rw [hrecord, if_pos ((mem_doubted S s x).mpr ⟨hx, hdoubt⟩), resolvedRecord]
      simp only [madeStroke, decide_eq_true_eq]
    · obtain ⟨-, hrecord⟩ := resolveDoubts_spec hnodup s
      rw [hrecord, if_neg]
      rw [mem_doubted]
      rintro ⟨hmem, hdoubt⟩
      exact hx.elim (fun hn => hn hmem) fun hn => Bool.noConfusion (hn.symm.trans hdoubt)
    · rw [recordOf_barOutOfTolerance hnodup]
      split <;> rfl

end Sys2Proof.Machine
end

section
/-! PROOF. The power-fail warning, and the return of good supply (10 R173 to R175, R181, R183). -/

namespace Sys2Proof.Machine

open Sys2Proof

/-! ## The entry into RECOVERY (10 R183) -/

/-- RECOVERY entered, its window begun. -/
def recoveryEntered (s : State) : State := { s with
  psv := { s.psv with
    recovery := .settling, recoveryTimer := some ⟨s.tmb.fineTime, 1000 * s.psv.rig.recoveryWindow⟩, state := .recovery }
  mail := s.mail ++ [.attentionSetRequest .fault] ++ noticed.map fun b => .partStateNotice b .recovery }

/-- RECOVERY over at once, with no station ACTIVE. -/
def recoverySkipped (s : State) : State := { s with
  psv := { s.psv with recovery := .checked, recoveryTimer := none, lastRecoveryEnd := some s.tmb.siteSeconds, state := .run }
  wvc := { s.wvc with
    recoveryWindows := [], drains := s.wvc.drains ++ s.wvc.recoveryWindows.map fun x => ⟨x, .discard⟩ }
  mail := (s.mail ++ [.attentionSetRequest .fault] ++ noticed.map fun b => .partStateNotice b .recovery)
    ++ (s.wvc.recoveryWindows.flatMap fun x => [.drainQueue x, .closeWindow x])
    ++ noticed.map fun b => .partStateNotice b .run }

theorem beginRecovery_eq (s : State) : beginRecovery s = judgeReadiness (recoveryEntered s) := rfl

theorem isFresh_of_unread {s : State} {x : Station} (h : readingOf s x = none) : isFresh s x = false := by
  unfold isFresh
  rw [h]

/-- With no reading a part with a station ACTIVE stays in RECOVERY. -/
theorem beginRecovery_of_active {s : State} (hunread : ∀ x, readingOf s x = none)
    (hactive : ∃ x, (recordOf s x).service = .active) : beginRecovery s = recoveryEntered s := by
  obtain ⟨x, hx⟩ := hactive
  refine judgeReadiness_of_not fun ⟨_, hready⟩ => ?_
  have hfresh := (isReady_iff (recoveryEntered s)).mp hready x (decide_eq_true hx)
  exact Bool.noConfusion ((isFresh_of_unread (s := recoveryEntered s) (hunread x)).symm.trans hfresh)

/-- With no station ACTIVE the part goes on into RUN (10 R184, log 44). -/
theorem beginRecovery_of_none {s : State} (hnone : ∀ x, (recordOf s x).service ≠ .active) : beginRecovery s = recoverySkipped s := by
  have hready : isReady (recoveryEntered s) = true :=
    (isReady_iff _).mpr fun x hx => absurd (of_decide_eq_true hx) (hnone x)
  have hactive : activeStations (recoveryEntered s) = [] :=
    List.filter_eq_nil_iff.mpr fun x _ hx => hnone x (of_decide_eq_true hx)
  have hfew : (comparedStations { recoveryEntered s with psv := { (recoveryEntered s).psv with recovery := .ready } }).length < 4 := by
    change ((activeStations (recoveryEntered s)).filter _).length < 4
    rw [hactive]
    exact Nat.zero_lt_succ 3
  have hcheck := restartCheck_of_few hfew
  rw [beginRecovery_eq, judgeReadiness_of_ready rfl hready]
  refine (congrArg endRecovery hcheck).trans ?_
  rw [endRecovery, closeRecoveryWindows_eq]
  rfl

/-! ## The warning (10 R174, R175) -/

theorem endScan_eq (s : State) :
    endScan s = { s with ssu := { s.ssu with scan := if s.ssu.scan = .running then .ending else s.ssu.scan } } := by
  unfold endScan
  split <;> rfl

/-- The blocks that act on the warning at its take. -/
theorem warnBlocks_eq (s : State) : warnBlocks s = { s with
    vdu := { s.vdu with quiet := true }
    ssu := { s.ssu with scan := if s.ssu.scan = .running then .ending else s.ssu.scan }
    lbp := { s.lbp with transaction := .idle, lastEnd := none, bus := [], incoming := none, view := .powerDown }
    exc := s.exc.stopped
    tmb := { s.tmb with savedWord := some s.tmb.siteSeconds } } := by
  unfold warnBlocks
  rw [endScan_eq]
  rfl

theorem isRepeated_iff (s : State) : isRepeated s = true ↔ s.psv.state = .recovery
    ∨ ∃ e, s.psv.lastRecoveryEnd = some e ∧ (s.tmb.siteSeconds - e).toNat < 120 := by
  rw [isRepeated, Bool.or_eq_true, decide_eq_true_iff]
  refine or_congr_right ?_
  cases s.psv.lastRecoveryEnd with
  | none => exact ⟨fun h => absurd h Bool.false_ne_true, fun ⟨_, h, _⟩ => absurd h.symm (Option.some_ne_none _)⟩
  | some e => exact decide_eq_true_iff.trans ⟨fun h => ⟨e, rfl, h⟩, fun ⟨_, he, h⟩ => Option.some.inj he ▸ h⟩

theorem noteRepeated_eq (s : State) : noteRepeated s = { s with
    psv := { s.psv with repeatedOutage := true }
    mail := s.mail ++ ((if s.psv.repeatedOutage then [] else [.attentionSetRequest .event]) ++ [.feedPauseRequest]) } := by
  unfold noteRepeated
  cases s.psv.repeatedOutage
  · simp only [Bool.false_eq_true, if_false, requestAttn, send, List.append_assoc]
    rfl
  · simp only [if_true, send, List.nil_append]
    rfl

/-- The messages that tell of a warning. -/
def warningTold : List Instr := allStations.map Instr.offValve ++ [.feedPowerDown, .wavePowerDown]
  ++ noticed.map fun b => .partStateNotice b .powerDown

/-- What a warning leaves, `noted` saying whether the outage is a repeated one and `sent` what has been asked for with it. -/
def warnedPart (noted : Bool) (sent : List Instr) (s : State) : State := { s with
  vdu := { s.vdu with quiet := true }
  ssu := { s.ssu with scan := if s.ssu.scan = .running then .ending else s.ssu.scan }
  lbp := { s.lbp with transaction := .idle, lastEnd := none, bus := [], incoming := none, view := .powerDown }
  exc := s.exc.stopped
  tmb := { s.tmb with savedWord := some s.tmb.siteSeconds }
  psv := { { s.psv with repeatedOutage := noted }.warned with state := .powerDown }
  mail := (s.mail.filter fun c => !cutOff c) ++ (sent ++ warningTold) }

theorem takeWarning_eq (s : State) : takeWarning s = if isRepeated s = true
    then warnedPart true ((if s.psv.repeatedOutage then [] else [.attentionSetRequest .event]) ++ [.feedPauseRequest]) s
    else warnedPart s.psv.repeatedOutage [] s := by
  unfold takeWarning
  dsimp only
  by_cases h : isRepeated s = true
  · rw [if_pos h, if_pos h, noteRepeated_eq, warnBlocks_eq, warnedPart, warningTold]
    simp only [enterState, sendAll, onPsv, List.append_assoc]
  · rw [if_neg h, if_neg h, warnBlocks_eq, warnedPart, warningTold]
    simp only [enterState, sendAll, onPsv, List.append_assoc, List.nil_append]

theorem takeSupplyLow_of_normal {s : State} (h : s.psv.monitor = .normal) (hbench : s.psv.state ≠ .bench)
    (hhalted : s.psv.state ≠ .halted) : takeSupplyLow s = takeWarning s := by
  unfold takeSupplyLow
  rw [h]
  cases hs : s.psv.state
  case bench => exact absurd hs hbench
  case halted => exact absurd hs hhalted
  all_goals rfl

theorem takeSupplyLow_of_still {s : State} (h : s.psv.monitor = .normal) (hstate : s.psv.state = .bench ∨ s.psv.state = .halted) :
    takeSupplyLow s = s := by
  unfold takeSupplyLow
  rcases hstate with hs | hs <;> rw [h, hs]

theorem takeSupplyLow_of_actions {s : State} (h : s.psv.monitor = .actions) :
    takeSupplyLow s = { s with psv := { s.psv with supplyGood := false } } := by
  unfold takeSupplyLow
  rw [h]
  rfl

theorem takeSupplyLow_of_wait {s : State} (h : s.psv.monitor = .wait) :
    takeSupplyLow s = { s with psv := { s.psv with supplyGood := false, goodTimer := none } } := by
  unfold takeSupplyLow
  rw [h]
  rfl

/-! ## The return of good supply (10 R181) -/

theorem takeSupplyGood_eq (s : State) : (s.psv.monitor = .normal → takeSupplyGood s = s)
    ∧ (s.psv.monitor = .actions → takeSupplyGood s = { s with psv := { s.psv with supplyGood := true, dying := false } })
    ∧ (s.psv.monitor = .wait →
        takeSupplyGood s = { s with psv := { s.psv with supplyGood := true, goodTimer := some s.tmb.fineTime } }) := by
  unfold takeSupplyGood
  refine ⟨fun h => ?_, fun h => ?_, fun h => ?_⟩
  · rw [h]
  · rw [h]
    rfl
  · rw [h]
    rfl

/-- The part in POWER_DOWN as good supply returns, its field blocks started again. -/
def fieldRestored (s : State) : State := restoreField (onPsv (fun q => { q with monitor := .normal, goodTimer := none }) s)

theorem takeReturn_of_due {s : State} (hstate : s.psv.state = .powerDown) (hmonitor : s.psv.monitor = .wait)
    (htimer : s.psv.goodTimer ≠ none) : takeReturn s = if s.psv.jobMark then beginRecovery (fieldRestored s)
      else returnCold (onPsv (fun q => { q with monitor := .normal, goodTimer := none }) s) :=
  if_pos ⟨hstate, hmonitor, Option.isSome_iff_ne_none.mpr htimer⟩

theorem takeReturn_of_not {s : State} (h : s.psv.state ≠ .powerDown ∨ s.psv.monitor ≠ .wait ∨ s.psv.goodTimer = none) :
    takeReturn s = s := by
  refine if_neg fun ⟨hstate, hmonitor, htimer⟩ => ?_
  rcases h with h | h | h
  · exact h hstate
  · exact h hmonitor
  · exact Option.isSome_iff_ne_none.mp htimer h

theorem readingOf_fieldRestored (s : State) (x : Station) : readingOf (fieldRestored s) x = none := replicate_get _ x

/-- The part in CONFIG again, before its publication (10 R181). -/
def coldReturned (s : State) : State := requestAttn .fault (startTimers (enterState .config (restoreField (resetVdu (emptyTables
  (onExc (fun e => { e with postscaler := 0 }) s))))))

theorem returnCold_eq (s : State) : returnCold s = beginPublication (coldReturned s) := rfl

theorem restoreField_eq (s : State) : restoreField s = { s with
    ssu := Ssu.reset s.psv.rig.rowTime s.ssu.view
    lbp := { s.lbp.forget.abandon with motion := false, pollPosition := none, settleHold := some s.tmb.fineTime } } := rfl

/-- CONFIG entered from POWER_DOWN, the tables empty and the field blocks started again. -/
theorem configEntered_eq (s : State) : enterState .config (restoreField (resetVdu (emptyTables
    (onExc (fun e => { e with postscaler := 0 }) s)))) = { s with
      ssu := Ssu.reset RigValues.standby.rowTime s.ssu.view
      vdu := Vdu.reset s.vdu.view
      wvc := Wvc.cold s.wvc.view
      lbp := { { s.lbp with probeBus := false }.forget.abandon with
        motion := false, pollPosition := none, settleHold := some s.tmb.fineTime }
      ltr := Ltr.cold s.ltr.view
      fds := Fds.cold s.fds.view
      exc := { s.exc.forget with postscaler := 0 }
      window := freeSlots s.window
      psv := { s.psv with
        jobMark := false, rig := RigValues.standby, snapshot := none, rigCheck := none, lastRecoveryEnd := none
        repeatedOutage := false, state := .config }
      mail := s.mail ++ noticed.map fun b => .partStateNotice b .config } := by
  rw [restoreField_eq]
  rfl

/-- What a cold return leaves, but for the publication. -/
theorem coldReturned_spec (s : State) : ∃ scan publish, coldReturned s = { s with
    ssu := Ssu.reset RigValues.standby.rowTime s.ssu.view
    vdu := Vdu.reset s.vdu.view
    wvc := Wvc.cold s.wvc.view
    lbp := { { s.lbp with probeBus := false }.forget.abandon with
      motion := false, pollPosition := none, settleHold := some s.tmb.fineTime }
    ltr := Ltr.cold s.ltr.view
    fds := Fds.cold s.fds.view
    exc := { s.exc.forget with postscaler := 0, scanTimer := scan, publishTimer := publish }
    window := freeSlots s.window
    psv := { s.psv with
      jobMark := false, rig := RigValues.standby, snapshot := none, rigCheck := none, lastRecoveryEnd := none
      repeatedOutage := false, state := .config }
    mail := s.mail ++ (noticed.map fun b => .partStateNotice b .config) ++ [.attentionSetRequest .fault] } := by
  unfold coldReturned
  rw [startTimers_eq, configEntered_eq]
  exact ⟨_, _, rfl⟩

/-- What the part is as good supply has returned, warm or cold. -/
def supplyReturned (s t : State) : Prop := t.psv.monitor = .normal ∧ t.psv.goodTimer = none
  ∧ t.tmb = s.tmb ∧ t.ssu.scan = .running ∧ t.ssu.adopting = true ∧ (∀ st, readingOf t st = none)
  ∧ t.lbp.settleHold = some s.tmb.fineTime
  ∧ t.exc.attn = s.exc.attn ∧ .attentionSetRequest .fault ∈ t.mail

theorem mem_mail_recoveryEntered (s : State) : .attentionSetRequest .fault ∈ (recoveryEntered s).mail :=
  List.mem_append_left _ (List.mem_append_right _ List.mem_cons_self)

theorem mem_mail_recoverySkipped (s : State) : .attentionSetRequest .fault ∈ (recoverySkipped s).mail :=
  List.mem_append_left _ (List.mem_append_left _ (mem_mail_recoveryEntered s))

theorem supplyReturned_recoveryEntered (s : State) : supplyReturned s (refreshLamps (recoveryEntered (fieldRestored s))) :=
  ⟨rfl, rfl, rfl, rfl, rfl, fun x => replicate_get _ x, rfl, rfl, mem_mail_recoveryEntered (fieldRestored s)⟩

theorem supplyReturned_recoverySkipped (s : State) : supplyReturned s (refreshLamps (recoverySkipped (fieldRestored s))) :=
  ⟨rfl, rfl, rfl, rfl, rfl, fun x => replicate_get _ x, rfl, rfl, mem_mail_recoverySkipped (fieldRestored s)⟩

/-- What a return of supply with no job leaves (10 R181). -/
theorem returnCold_does {s : State} (hmonitor : s.psv.monitor = .normal) (hgood : s.psv.goodTimer = none) :
    let t := refreshLamps (returnCold s)
    supplyReturned s t ∧ t.psv.state = .config ∧ t.psv.rig = RigValues.standby
      ∧ (∀ st, recordOf t st = StationRecord.blank) ∧ (∀ k, stackOf t k = []) ∧ t.fds.line = []
      ∧ t.vdu.quiet = true ∧ t.exc.postscaler = 0 ∧ t.psv.control = s.psv.control
      ∧ exchangeEmptied s t ∧ publicationBegun s t := by
  intro t
  obtain ⟨scan, publish, hcold⟩ := coldReturned_spec s
  have hbegun : publicationBegun s (beginPublication (coldReturned s)) := by
    refine publicationBegun_beginPublication ?_ fun hs => ?_
    · rw [hcold]
      rfl
    · rw [windowCanonical, hcold]
      exact wf_filter _ hs
  have hfreed (hs : windowCanonical s) : slotsFreed s (beginPublication (coldReturned s)) := by
    intro a ha
    have hc : windowCanonical (coldReturned s) := by
      rw [windowCanonical, hcold]
      exact wf_filter _ hs
    rw [readByte_beginPublication hc ha, hcold]
    exact readByte_freeSlots _ _
  have ht : t = refreshLamps (beginPublication (coldReturned s)) := rfl
  clear_value t
  rw [beginPublication_eq] at hbegun hfreed ht
  generalize (beginPublication (coldReturned s)).window = window at *
  rw [hcold] at hbegun hfreed ht
  subst ht
  refine ⟨⟨hmonitor, hgood, rfl, rfl, rfl, fun x => replicate_get _ x, rfl, rfl, ?_⟩, rfl, rfl, fun x => replicate_get _ x,
    fun k => replicate_get _ k, rfl, rfl, rfl, rfl, exchangeEmptied_of (forgotten_forget s.exc) hfreed, hbegun⟩
  exact List.mem_append_left _ (List.mem_append_right _ List.mem_cons_self)

/-- Settles O29. -/
theorem supplyFailsWarnsAndReturns : Obligations.SupplyFailsWarnsAndReturns := by
  refine ⟨?_, ?_⟩
  · intro s hacting repeated kept told
    have hlow {t : State} (e : takeSupplyLow s = t) : leadsTo .supplyLow s t :=
      leadsTo_of_whileActing (exec_supplyLow s) hacting e
    refine ⟨fun hmonitor hbench hhalted => ?_, fun hmonitor hstill => hlow (takeSupplyLow_of_still hmonitor hstill),
      fun hmonitor => hlow (takeSupplyLow_of_actions hmonitor), fun hmonitor => hlow (takeSupplyLow_of_wait hmonitor)⟩
    have hwarning := hlow ((takeSupplyLow_of_normal hmonitor hbench hhalted).trans (takeWarning_eq s))
    by_cases hrepeated : isRepeated s = true
    · rw [if_pos hrepeated] at hwarning
      refine ⟨_, hwarning, rfl, rfl, rfl, rfl, rfl, rfl, rfl, rfl, rfl, rfl, rfl, rfl, rfl, rfl, rfl, rfl, rfl, rfl,
        rfl, rfl, rfl, rfl, fun _ => ⟨rfl, ?_⟩, fun hnot => absurd ((isRepeated_iff s).mp hrepeated) hnot⟩
      exact congrArg (fun x : List Instr => kept ++ x) (List.append_assoc _ _ _)
    · rw [if_neg hrepeated] at hwarning
      exact ⟨_, hwarning, rfl, rfl, rfl, rfl, rfl, rfl, rfl, rfl, rfl, rfl, rfl, rfl, rfl, rfl, rfl, rfl, rfl, rfl,
        rfl, rfl, rfl, rfl, fun hyes => absurd ((isRepeated_iff s).mpr hyes) hrepeated, fun _ => ⟨rfl, rfl⟩⟩
  · intro s hacting active
    obtain ⟨hnormal, hactions, hwait⟩ := takeSupplyGood_eq s
    have hgood {t : State} (e : takeSupplyGood s = t) : leadsTo .supplyGood s t :=
      leadsTo_of_whileActing (exec_supplyGood s) hacting e
    have hreturn {t : State} (e : takeReturn s = t) : leadsTo .returnOfGoodSupply s t :=
      leadsTo_of_whileActing (exec_returnOfGoodSupply s) hacting e
    refine ⟨fun h => hgood (hnormal h), fun h => hgood (hactions h), fun h => hgood (hwait h),
      fun h => hreturn (takeReturn_of_not h), fun hstate hmonitor htimer => ?_⟩
    have hdue := takeReturn_of_due hstate hmonitor htimer
    cases hmark : s.psv.jobMark with
    | true =>
      rw [hmark, if_pos rfl] at hdue
      by_cases hactive : ∃ x, active x
      · have hbegun := hreturn (hdue.trans (beginRecovery_of_active (readingOf_fieldRestored s) hactive))
        obtain ⟨hmonitor', htimer', htmb, hscan, hadopting, hunread, hsettle, hattn, hfault⟩ := supplyReturned_recoveryEntered s
        exact ⟨_, hbegun, hmonitor', htimer', htmb, hscan, hadopting, hunread, hsettle, hattn, hfault, fun _ => ⟨hmark, rfl, rfl, rfl, rfl, rfl,
          fun _ => ⟨rfl, rfl⟩, fun hnone => absurd hactive fun ⟨x, hx⟩ => hnone x hx⟩, fun hf => Bool.noConfusion hf⟩
      · have hnone (x : Station) : ¬active x := fun hx => hactive ⟨x, hx⟩
        have hbegun := hreturn (hdue.trans (beginRecovery_of_none (s := fieldRestored s) hnone))
        obtain ⟨hmonitor', htimer', htmb, hscan, hadopting, hunread, hsettle, hattn, hfault⟩ := supplyReturned_recoverySkipped s
        exact ⟨_, hbegun, hmonitor', htimer', htmb, hscan, hadopting, hunread, hsettle, hattn, hfault, fun _ => ⟨hmark, rfl, rfl, rfl, rfl, rfl,
          fun hsome => absurd hsome hactive, fun _ => rfl⟩, fun hf => Bool.noConfusion hf⟩
    | false =>
      rw [hmark, if_neg Bool.false_ne_true] at hdue
      obtain ⟨⟨hmonitor', htimer', htmb, hscan, hadopting, hunread, hsettle, hattn, hfault⟩, hcold⟩ := returnCold_does
        (s := onPsv (fun q => { q with monitor := .normal, goodTimer := none }) s) rfl rfl
      exact ⟨_, hreturn hdue, hmonitor', htimer', htmb, hscan, hadopting, hunread, hsettle, hattn, hfault, fun hf => Bool.noConfusion hf, fun _ => hcold⟩

end Sys2Proof.Machine
end

section
/-! PROOF. The entry into HALTED, and the loss of power (09 R172, 10 R173). -/

namespace Sys2Proof.Machine

open Sys2Proof

/-! ## The entry into HALTED (09 R172) -/

/-- What the Exchange Controller holds once it has learnt of HALTED: FAULT is set where the news is new. -/
def Exc.halted (e : Exc) : Exc :=
  let x : Exc := { e with view := .halted }
  if e.view = .halted then x.stopped else x.stopped.withAttn (setBit e.attn (attnPosition .fault)) e.attnMask

theorem exchangeEnters_halted_eq (s : State) : exchangeEnters .halted s = { s with exc := s.exc.halted } := by
  unfold Exc.halted
  by_cases h : s.exc.view = .halted
  · rw [if_pos h, exchangeEnters_of_stops rfl (.inr h)]
    rfl
  · rw [if_neg h, exchangeEnters_halted h]
    rfl

theorem Exc.halted_stops (e : Exc) : e.halted.scanTimer = none ∧ e.halted.publishTimer = none ∧ e.halted.attnMask = e.attnMask := by
  unfold Exc.halted
  split <;> exact ⟨rfl, rfl, rfl⟩

theorem Exc.halted_attn {e : Exc} (h : e.view ≠ .halted) : e.halted.attn = e.attn ||| 0x20#6 := by
  unfold Exc.halted
  rw [if_neg h]
  exact congrArg (e.attn ||| ·) (by decide : bit 6 (attnPosition .fault) = 0x20#6)

theorem waveEnters_halted_eq (s : State) : waveEnters .halted s = { s with
    wvc := { s.wvc with
      view := .halted, climb := .held, permission := false, driveTimer := none, settleTimer := none, fallTimer := none
      ending := none, drains := [], countsDirty := false, recoveryWindows := [] }
    mail := s.mail ++ if s.wvc.climb = .held then [] else [.attentionSetRequest .hold] } := by
  refine (setClimb_eq .held _).trans ?_
  by_cases h : s.wvc.climb = .held
  · simp [sendAll, h, Wvc.halt]
  · simp [sendAll, h, Wvc.halt]

theorem ssuEnters_halted_eq (s : State) : ssuEnters .halted s = { s with
    ssu := { s.ssu with view := .halted, scan := .stopped, stations := mapAll s.ssu.stations SsuStation.stopped } } := rfl

theorem anyOf_mapAll_of_idle (t : Table Channel 64) :
    anyOf (mapAll t fun c => c.stand .idle 0) Channel.needsPump = false := by
  simp only [anyOf_false_iff, mapAll_get]
  exact fun _ => rfl

theorem withChannels_of_idle (v : Vdu) : v.withChannels (mapAll v.channels fun c => c.stand .idle 0) =
    { v with channels := mapAll v.channels fun c => c.stand .idle 0, pumpEnable := false } := by
  rw [Vdu.withChannels, anyOf_mapAll_of_idle]

theorem vduEnters_halted_eq (s : State) : vduEnters .halted s = { s with
    vdu := { s.vdu with
      view := .halted, channels := mapAll s.vdu.channels fun c => c.stand .idle 0, pumpEnable := false } } := by
  rw [vduEnters_of_not_drives rfl, allChannelsOff, mapChannels, withChannels_of_idle]

theorem levelEnters_halted_eq (s : State) : levelEnters .halted s = { s with
    lbp := { s.lbp with view := .halted, transaction := .idle, lastEnd := none, bus := [], incoming := none } } :=
  levelEnters_of_not_polls rfl s

theorem layerEnters_eq (p : PartState) (s : State) : layerEnters p s = { s with ltr := { s.ltr with view := p } } := rfl

/-- The part in HALTED. -/
def haltedPart (failure : StoreFailure) (s : State) : State := { s with
  psv := { s.psv.halt failure with state := .halted }
  exc := s.exc.halted
  ssu := { s.ssu with view := .halted, scan := .stopped, stations := mapAll s.ssu.stations SsuStation.stopped }
  vdu := { s.vdu with
    view := .halted, channels := mapAll s.vdu.channels fun c => c.stand .idle 0, pumpEnable := false }
  wvc := { s.wvc with
    view := .halted, climb := .held, permission := false, driveTimer := none, settleTimer := none, fallTimer := none
    ending := none, drains := [], countsDirty := false, recoveryWindows := [] }
  lbp := { s.lbp with view := .halted, transaction := .idle, lastEnd := none, bus := [], incoming := none }
  ltr := { s.ltr with view := .halted }
  fds := { s.fds with view := .halted }
  mail := (s.mail ++ if s.wvc.climb = .held then [] else [.attentionSetRequest .hold])
    ++ noticed.map fun b => .partStateNotice b .halted }

/-- In HALTED every block stops at once. -/
theorem enterHalted_eq (failure : StoreFailure) (s : State) : enterHalted failure s = haltedPart failure s := by
  change enterState .halted (feedEnters .halted (layerEnters .halted (levelEnters .halted (waveEnters .halted
    (vduEnters .halted (ssuEnters .halted (exchangeEnters .halted (onPsv (fun q => q.halt failure) s)))))))) = _
  rw [exchangeEnters_halted_eq, ssuEnters_halted_eq, vduEnters_halted_eq, waveEnters_halted_eq, levelEnters_halted_eq,
    layerEnters_eq, feedEnters_of_ne (p := .halted) (by decide)]
  unfold haltedPart
  simp only [enterState, sendAll, onPsv]
  rfl

theorem haltedPart_ssu (failure : StoreFailure) (s : State) : (haltedPart failure s).ssu =
    { s.ssu with view := .halted, scan := .stopped, stations := mapAll s.ssu.stations SsuStation.stopped } := by
  unfold haltedPart
  rfl

theorem ssuOf_haltedPart (failure : StoreFailure) (s : State) (st : Station) :
    ssuOf (haltedPart failure s) st = (ssuOf s st).stopped :=
  (congrArg (fun u : Ssu => u.stations[st]) (haltedPart_ssu failure s)).trans (mapAll_get _ _ _)

theorem haltedPart_channels (failure : StoreFailure) (s : State) :
    (haltedPart failure s).vdu.channels = mapAll s.vdu.channels fun c => c.stand .idle 0 := by
  unfold haltedPart
  rfl

theorem channelOf_haltedPart (failure : StoreFailure) (s : State) (st : Station) :
    channelOf (haltedPart failure s) st = (channelOf s st).stand .idle 0 :=
  (congrArg (fun t : Table Channel 64 => t[st]) (haltedPart_channels failure s)).trans (mapAll_get _ _ _)

theorem pumpEnable_haltedPart (failure : StoreFailure) (s : State) : (haltedPart failure s).vdu.pumpEnable = false := by
  unfold haltedPart
  rfl

theorem retentionStoreError_of_on {failure : StoreFailure} {s t : State} (hacting : acting s = true)
    (e : takeStoreError failure s = t) : leadsTo (.retentionStoreError failure) s t := by
  refine leadsTo_of_whileActing ?_ hacting e
  rw [exec_retentionStoreError, (acting_iff s).mp hacting]

end Sys2Proof.Machine
end

section
/-! PROOF. Errors of the retention store, and the supply that dies and comes back (09 R162, R172, 10 R173). -/

namespace Sys2Proof.Machine

open Sys2Proof

/-! ## The loss of power (10 R173) -/

/-- A part without power shows nothing, and holds what it retains. -/
def losesPower (s t : State) : Prop := t.power = .off ∧ t.psv.jobMark = s.psv.jobMark
  ∧ t.psv.rig = s.psv.rig ∧ t.wvc.table = s.wvc.table ∧ t.ltr.stack = s.ltr.stack ∧ t.fds.records = s.fds.records
  ∧ t.tmb = s.tmb ∧ t.window = s.window ∧ t.psv.green.pattern = .dark

theorem losesPower_losePower (s : State) : losesPower s (losePower s) :=
  ⟨rfl, rfl, rfl, rfl, rfl, rfl, rfl, rfl, (lampsExact_refreshLamps { loseVolatile s with power := .off }).1⟩

theorem losesPower_refreshLamps (s : State) : losesPower s (refreshLamps (losePower s)) :=
  ⟨rfl, rfl, rfl, rfl, rfl, rfl, rfl, rfl, (lampsExact_refreshLamps (losePower s)).1⟩

theorem takeSupplyDies_of_still {s : State} (h : s.psv.monitor = .normal) (hstate : s.psv.state = .bench ∨ s.psv.state = .halted) :
    takeSupplyDies s = losePower s := by
  unfold takeSupplyDies
  rcases hstate with hs | hs <;> simp only [h, hs]

theorem takeSupplyDies_of_normal {s : State} (h : s.psv.monitor = .normal) (hbench : s.psv.state ≠ .bench)
    (hhalted : s.psv.state ≠ .halted) : takeSupplyDies s = onPsv (fun q => { q with dying := true }) (takeWarning s) := by
  unfold takeSupplyDies
  rw [h]
  cases hs : s.psv.state
  case bench => exact absurd hs hbench
  case halted => exact absurd hs hhalted
  all_goals rfl

theorem takeSupplyDies_of_actions {s : State} (h : s.psv.monitor = .actions) :
    takeSupplyDies s = { s with psv := { s.psv with supplyGood := false, dying := true } } := by
  unfold takeSupplyDies
  rw [h]
  rfl

theorem takeSupplyDies_of_wait {s : State} (h : s.psv.monitor = .wait) : takeSupplyDies s = losePower s := by
  unfold takeSupplyDies
  rw [h]

theorem supplyDies_of_on {s t : State} (hon : s.power = .on) (e : takeSupplyDies s = t) : leadsTo .supplyDies s t := by
  refine leadsTo_of_whileActing ?_ ((acting_iff s).mpr hon) e
  rw [exec_supplyDies, hon]

theorem supplyDies_of_held {s : State} {cause : ResetCause} (h : s.power = .held cause) :
    exec .supplyDies s = .next (losePower s) := by
  rw [exec_supplyDies, h]

theorem supplyDies_of_off {s : State} (h : s.power = .off) : exec .supplyDies s = .next s := by
  rw [exec_supplyDies, h]

/-! ## Power given back (09 R162, R163, 01 R12) -/

/-- The part as power comes back, before the backup domain has its say. -/
def poweredUp (s : State) : State :=
  { loseVolatile s with power := .held .powerOn, psv := { s.psv.volatile with lineMode := .restart } }

theorem powerUp_eq (held : Bool) (s : State) : powerUp held s = backupReport held (poweredUp s) := rfl

theorem backupReport_of_new {held : Bool} {s : State} (h : s.tmb.savedWord = none) :
    backupReport held s = { s with tmb := { s.tmb with siteSeconds := 0, clockValid := true } } := by
  unfold backupReport
  rw [h]

theorem backupReport_of_held {s : State} {w : Word} (h : s.tmb.savedWord = some w) : backupReport true s = s := by
  unfold backupReport
  rw [h]
  rfl

/-- A lost clock is counted on from the saved word, and FAULT is asked for. -/
theorem backupReport_of_lost {s : State} {w : Word} (h : s.tmb.savedWord = some w) : backupReport false s = { s with
    tmb := { s.tmb with siteSeconds := w, clockValid := false, clockLost := true }
    mail := s.mail ++ ((if s.tmb.clockLost then [] else [.attentionSetRequest .event]) ++ [.attentionSetRequest .fault]) } := by
  unfold backupReport
  rw [h]
  cases hlost : s.tmb.clockLost
  · simp only [Bool.false_eq_true, if_false, requestAttn, send, List.append_assoc]
  · simp only [Bool.false_eq_true, if_false, if_true, requestAttn, send, List.nil_append]

/-- The backup domain's report concerns the clock and its messages alone. -/
theorem backupReport_touches (held : Bool) (s : State) : ∃ T m, backupReport held s = { s with tmb := T, mail := m } := by
  cases h : s.tmb.savedWord with
  | none => exact ⟨_, _, backupReport_of_new h⟩
  | some w =>
    cases held with
    | true => exact ⟨_, _, backupReport_of_held h⟩
    | false => exact ⟨_, _, backupReport_of_lost h⟩

theorem powerOn_of_powered {held : Bool} {s : State} (h : s.power ≠ .off) : exec (.powerOn held) s = .next s := by
  rw [exec_powerOn, if_pos ((powered_iff s).mpr h)]

theorem powerOn_of_off {held : Bool} {s : State} (h : s.power = .off) :
    exec (.powerOn held) s = .next (refreshLamps (powerUp held s)) := by
  rw [exec_powerOn, if_neg (fun hp => (powered_iff s).mp hp h)]

theorem controlWord_reset : controlWord ⟨0, .done, 0, false, false⟩ = 0 := by decide

/-- What POWER_ON gives, whatever the backup domain reports. -/
theorem powerUp_gives (held : Bool) (s : State) :
    let t := refreshLamps (powerUp held s)
    t.power = .held .powerOn
      ∧ t.psv.lineMode = .restart ∧ t.psv.control = ⟨0, .done, 0, false, false⟩ ∧ t.psv.jobMark = s.psv.jobMark
      ∧ t.readPort 0x04 = some 0 ∧ t.readPort 0x08 = some Config.stateInReset ∧ t.readPort 0x0C = some 0
      ∧ t.readPort 0x10 = some 0x3F ∧ t.readPort 0x14 = some 1
      ∧ t.wvc.table = s.wvc.table ∧ t.ltr.stack = s.ltr.stack ∧ t.fds.records = s.fds.records ∧ t.window = s.window := by
  obtain ⟨T, m, h⟩ := backupReport_touches held (poweredUp s)
  rw [powerUp_eq, h]
  exact ⟨rfl, rfl, rfl, rfl, (readPort_control rfl).trans (congrArg some controlWord_reset), readPort_state rfl, (readPort_attn rfl).trans rfl,
    (readPort_attnMask rfl).trans rfl, (readPort_attnPace rfl).trans rfl, rfl, rfl, rfl, rfl⟩

/-! ## The retention store (09 R172) -/

theorem takeStoreError_of_halted {failure : StoreFailure} {s : State} (h : s.psv.state = .halted) :
    takeStoreError failure s = s := if_pos h

theorem takeStoreError_of_dying {failure : StoreFailure} {s : State} (h : s.psv.state ≠ .halted) (hdying : s.psv.dying = true) :
    takeStoreError failure s = losePower (haltedPart failure s) :=
  ((if_neg h).trans (if_pos hdying)).trans (congrArg losePower (enterHalted_eq failure s))

theorem takeStoreError_of_ne {failure : StoreFailure} {s : State} (h : s.psv.state ≠ .halted) (hdying : s.psv.dying = false) :
    takeStoreError failure s = haltedPart failure s :=
  ((if_neg h).trans (if_neg (by simp [hdying]))).trans (enterHalted_eq failure s)

theorem retentionStoreError_of_held {failure : StoreFailure} {cause : ResetCause} {s : State} (h : s.power = .held cause) :
    exec (.retentionStoreError failure) s = .next { s with storeFails := some failure } := by
  simp only [exec_retentionStoreError, h, noteFailure]

theorem retentionStoreError_of_off {failure : StoreFailure} {s : State} (h : s.power = .off) :
    exec (.retentionStoreError failure) s = .next s := by
  rw [exec_retentionStoreError, h]

/-- What an error of the retention store leaves of a part that has the power for it. -/
def haltedBy (failure : StoreFailure) (s t : State) : Prop := t.power = s.power ∧ t.psv.state = .halted
  ∧ t.psv.haltCause = some failure ∧ t.psv.control.waiting = false
  ∧ t.psv.control.outcome = s.psv.control.outcome ∧ t.psv.jobMark = s.psv.jobMark ∧ t.psv.deferredReset = none
  ∧ t.psv.bench = (if s.psv.benchPhase = .storePass ∧ failure = .read then .storeFault else s.psv.bench)
  ∧ t.wvc.climb = .held ∧ t.wvc.table = s.wvc.table ∧ t.fds.records = s.fds.records ∧ t.fds.gate = s.fds.gate
  ∧ t.ltr.stack = s.ltr.stack ∧ t.window = s.window ∧ t.tmb = s.tmb
  ∧ t.ssu.scan = .stopped ∧ (∀ st, (ssuOf t st).window = none ∧ (ssuOf t st).queue = [])
  ∧ (∀ st, (channelOf t st).state = .idle ∧ (channelOf t st).level = 0) ∧ t.vdu.pumpEnable = false
  ∧ t.lbp.transaction = .idle ∧ t.lbp.bus = []
  ∧ t.exc.scanTimer = none ∧ t.exc.publishTimer = none
  ∧ (s.exc.view ≠ .halted → t.exc.attn = s.exc.attn ||| 0x20#6) ∧ t.exc.attnMask = s.exc.attnMask

theorem haltedBy_haltedPart (failure : StoreFailure) (s : State) : haltedBy failure s (refreshLamps (haltedPart failure s)) := by
  obtain ⟨hscan, hpublish, hmask⟩ := s.exc.halted_stops
  refine ⟨rfl, rfl, rfl, rfl, rfl, rfl, rfl, rfl, rfl, rfl, rfl, rfl, rfl, rfl, rfl, rfl, fun st => ?_, fun st => ?_,
    pumpEnable_haltedPart failure s, rfl, rfl, hscan, hpublish, fun h => Exc.halted_attn h, hmask⟩
  · have h : ssuOf (refreshLamps (haltedPart failure s)) st = (ssuOf s st).stopped := ssuOf_haltedPart failure s st
    rw [h]
    exact ⟨rfl, rfl⟩
  · have h : channelOf (refreshLamps (haltedPart failure s)) st = (channelOf s st).stand .idle 0 :=
      channelOf_haltedPart failure s st
    rw [h]
    exact ⟨rfl, rfl⟩

theorem haltedPart_kept (failure : StoreFailure) (s : State) : (haltedPart failure s).psv.jobMark = s.psv.jobMark
    ∧ (haltedPart failure s).wvc.table = s.wvc.table ∧ (haltedPart failure s).fds.records = s.fds.records := ⟨rfl, rfl, rfl⟩

end Sys2Proof.Machine
end

section
/-! PROOF. The release of a reset (09 R162, R172, 10 R179, R183). -/

namespace Sys2Proof.Machine

open Sys2Proof

/-! ## RESUME joins the holds, and stays (04 R57) -/

theorem getLsbD_resume_or_short (H : BitVec 6) : (H ||| 0x10#6).getLsbD 5 = H.getLsbD 5 := by
  simp

theorem getLsbD_resume_setBit (H : BitVec 6) : (setBit H holdResume).getLsbD 5 = true := by
  simp [setBit, holdResume, bit]

theorem resume_carryOutRetire (st : Station) (s : State) :
    (carryOutRetire st s).wvc.holds.getLsbD 5 = s.wvc.holds.getLsbD 5 := by
  rw [carryOutRetire_eq]
  dsimp only
  split
  · exact getLsbD_resume_or_short _
  · rfl

theorem resume_carryOutDeferred (st : Station) (s : State) :
    (carryOutDeferred st s).wvc.holds.getLsbD 5 = s.wvc.holds.getLsbD 5 := by
  cases h : (recordOf s st).retirePending with
  | none => rw [carryOutDeferred_of_none h]
  | some slot =>
    rw [carryOutDeferred_of_some h, send_wvc, resume_carryOutRetire, setRecord_wvc]

theorem resume_forEach_carryOutDeferred (xs : List Station) (s : State) :
    (forEach xs carryOutDeferred s).wvc.holds.getLsbD 5 = s.wvc.holds.getLsbD 5 := by
  induction xs generalizing s with
  | nil => rfl
  | cons x xs ih => exact (ih (carryOutDeferred x s)).trans (resume_carryOutDeferred x s)

theorem resume_carryOutAllDeferred (s : State) :
    (carryOutAllDeferred s).wvc.holds.getLsbD 5 = s.wvc.holds.getLsbD 5 := by
  unfold carryOutAllDeferred
  exact resume_forEach_carryOutDeferred allStations s

/-! ## A climb that is HELD stays so (04 R82) -/

theorem held_carryOutRetire {s : State} (st : Station) (h : s.wvc.climb = .held) :
    (carryOutRetire st s).wvc.climb = .held := by
  rw [carryOutRetire_eq]
  dsimp only
  split
  · rfl
  · exact h

theorem held_carryOutDeferred {s : State} (st : Station) (h : s.wvc.climb = .held) :
    (carryOutDeferred st s).wvc.climb = .held := by
  cases hp : (recordOf s st).retirePending with
  | none => rwa [carryOutDeferred_of_none hp]
  | some slot =>
    rw [carryOutDeferred_of_some hp, send_wvc]
    exact held_carryOutRetire st (h : (setRecord s st { recordOf s st with retirePending := none }).wvc.climb = .held)

theorem held_forEach_carryOutDeferred (xs : List Station) {s : State} (h : s.wvc.climb = .held) :
    (forEach xs carryOutDeferred s).wvc.climb = .held := by
  induction xs generalizing s with
  | nil => exact h
  | cons x xs ih => exact ih (held_carryOutDeferred x h)

theorem held_carryOutAllDeferred {s : State} (h : s.wvc.climb = .held) : (carryOutAllDeferred s).wvc.climb = .held := by
  unfold carryOutAllDeferred
  exact held_forEach_carryOutDeferred allStations h

/-! ## The gate record at a warm start (10 R179) -/

theorem warmGate_of_drop {s : State} {k : Sector} {g : GateRun} (h : s.fds.gate = .drop k g) : warmGate s = { s with
    fds := { s.fds with gate := .drop k { g with passed := some (g.cut.getD 0) } }
    mail := s.mail ++ [.placement k g.slot (g.cut.getD 0)] } := by
  rw [warmGate, h]
  rfl

theorem warmGate_of_idle {s : State} (h : s.fds.gate = .idle) : warmGate s = { s with mail := s.mail ++ [.dropPlan] } := by
  rw [warmGate, h]
  rfl

theorem warmGate_of_uncut {s : State} {g : GateRun} {cause : WasteCause} (h : s.fds.gate = .waste g cause)
    (hcut : g.cut = none) : warmGate s = { s with fds := { s.fds with gate := .idle } } := by
  rw [warmGate, h]
  dsimp only
  rw [hcut]
  rfl

theorem warmGate_of_cut {s : State} {g : GateRun} {cause : WasteCause} {v : Nat} (h : s.fds.gate = .waste g cause)
    (hcut : g.cut = some v) : warmGate s = closeWaste g cause v s := by
  rw [warmGate, h]
  dsimp only
  rw [hcut]

theorem gate_closeWaste (g : GateRun) (cause : WasteCause) (v : Nat) (s : State) :
    (closeWaste g cause v s).fds.gate = .idle := by
  cases h : batchOf s g.slot with
  | none => rw [closeWaste_of_none h]; rfl
  | some r => rw [closeWaste_of_live h, settleBatch_eq]; rfl

theorem gate_warmGate_of_waste {s : State} {g : GateRun} {cause : WasteCause} (h : s.fds.gate = .waste g cause) :
    (warmGate s).fds.gate = .idle := by
  cases hcut : g.cut with
  | none => rw [warmGate_of_uncut h hcut]
  | some v => rw [warmGate_of_cut h hcut, gate_closeWaste]

theorem closeWaste_touches (g : GateRun) (cause : WasteCause) (v : Nat) (s : State) :
    ∃ F m, closeWaste g cause v s = { s with fds := F, mail := s.mail ++ m } := by
  cases h : batchOf s g.slot with
  | none =>
    refine ⟨(idleGate s).fds, [], ?_⟩
    rw [closeWaste_of_none h, List.append_nil]
    rfl
  | some r =>
    rw [closeWaste_of_live h, settleBatch_eq]
    exact ⟨_, _, rfl⟩

/-- A warm start deals with the gate in the distributor alone, and sends after what is on its way. -/
theorem warmGate_touches (s : State) : ∃ F m, warmGate s = { s with fds := F, mail := s.mail ++ m } := by
  cases h : s.fds.gate with
  | drop k g => exact ⟨_, _, warmGate_of_drop h⟩
  | waste g cause =>
    cases hcut : g.cut with
    | none =>
      refine ⟨{ s.fds with gate := .idle }, [], ?_⟩
      rw [warmGate_of_uncut h hcut, List.append_nil]
    | some v =>
      rw [warmGate_of_cut h hcut]
      exact closeWaste_touches g cause v s
  | idle => exact ⟨_, _, warmGate_of_idle h⟩

/-! ## A warm start (09 R162, 10 R183) -/

/-- The hold reasons joined by RESUME. -/
def resumeJoined (s : State) : State := { s with wvc := { s.wvc with holds := setBit s.wvc.holds holdResume } }

theorem resumeJoined_resume (s : State) : (resumeJoined s).wvc.holds.getLsbD 5 = true := by
  unfold resumeJoined
  exact getLsbD_resume_setBit s.wvc.holds

/-- A warm start before RECOVERY begins. -/
def warmReady (s : State) : State := startTimers (flushCounts (carryOutAllDeferred (resumeJoined (warmGate s))))

theorem warmStart_eq (s : State) : warmStart s = beginRecovery (warmReady s) := rfl

/-- What a warm start has done before RECOVERY begins. -/
structure WarmBegun (s u : State) : Prop where
  records : ∀ x, recordOf u x = retiredRecord (recordOf s x)
  rest : ∃ T D H C DR scan publish m, u = { s with
    wvc := { s.wvc with table := T, countsDirty := D, holds := H, climb := C, drains := DR }
    exc := { s.exc with scanTimer := scan, publishTimer := publish }, fds := (warmGate s).fds, mail := m }
  held : s.wvc.climb = .held → u.wvc.climb = .held
  resume : u.wvc.holds.getLsbD 5 = true
  mail : (warmGate s).mail <+: u.mail
  told : ∀ x slot, (recordOf s x).retirePending = some slot → .orderOutcome slot (.outcome .done 0) ∈ u.mail

theorem resumeJoined_mail (s : State) : (resumeJoined s).mail = s.mail := rfl

theorem recordOf_resumeJoined_warmGate (s : State) (x : Station) : recordOf (resumeJoined (warmGate s)) x = recordOf s x := by
  obtain ⟨F, m, hgate⟩ := warmGate_touches s
  rw [hgate]
  rfl

theorem WarmBegun.of_timers {s u : State} (h : WarmBegun s u) : WarmBegun s (startTimers u) := by
  obtain ⟨hrecords, ⟨T, D, H, C, DR, scan, publish, m, hrest⟩, hheld, hresume, hmail, htold⟩ := h
  rw [startTimers_eq]
  exact ⟨hrecords, ⟨T, D, H, C, DR, _, _, m, by rw [hrest]⟩, hheld, hresume, hmail, htold⟩

theorem flushCounts_holds (s : State) : (flushCounts s).wvc.holds = s.wvc.holds := by rw [flushCounts_eq]

theorem flushCounts_climb (s : State) : (flushCounts s).wvc.climb = s.wvc.climb := by rw [flushCounts_eq]

theorem recordOf_flushCounts (s : State) (x : Station) : recordOf (flushCounts s) x = recordOf s x := by
  rw [flushCounts_eq]
  rfl

theorem warmBegun_flushCounts (s : State) : WarmBegun s (flushCounts (carryOutAllDeferred (resumeJoined (warmGate s)))) := by
  obtain ⟨F, m, hgate⟩ := warmGate_touches s
  obtain ⟨hrecords, ⟨T, D, H, C, DR, M, hrest⟩, -, ⟨hmail, -⟩, htold⟩ :=
    allRetired_carryOutAllDeferred (resumeJoined (warmGate s))
  have hresume : (carryOutAllDeferred (resumeJoined (warmGate s))).wvc.holds.getLsbD 5 = true := by
    rw [resume_carryOutAllDeferred, resumeJoined_resume]
  have hprefix := prefix_flushCounts (carryOutAllDeferred (resumeJoined (warmGate s)))
  rw [resumeJoined_mail] at hmail
  refine ⟨fun x => ?_, ?_, fun hheld => ?_, ?_, hmail.trans hprefix, fun x slot h => ?_⟩
  · rw [recordOf_flushCounts, hrecords, recordOf_resumeJoined_warmGate]
  · obtain ⟨⟨D', M', hflush⟩, -⟩ := flushCounts_spec (carryOutAllDeferred (resumeJoined (warmGate s)))
    rw [hflush, hrest, hgate]
    unfold resumeJoined
    exact ⟨_, _, _, _, _, _, _, _, rfl⟩
  · rw [flushCounts_climb]
    exact held_carryOutAllDeferred ((congrArg (fun x : State => x.wvc.climb) hgate).trans hheld)
  · rw [flushCounts_holds, hresume]
  · rw [← recordOf_resumeJoined_warmGate s] at h
    exact hprefix.subset (htold x slot h).1

theorem warmBegun_warmReady (s : State) : WarmBegun s (warmReady s) := (warmBegun_flushCounts s).of_timers

end Sys2Proof.Machine
end

section
/-! PROOF. What a release leaves, by the test strap and the job mark it finds (09 R162, R163, R172). -/

namespace Sys2Proof.Machine

open Sys2Proof

/-! ## The part at the moment of release -/

/-- The part at the moment of release, its strap read. -/
def releasedPart (cause : ResetCause) (p : PartState) (high : Bool) (s : State) : State := { s with
  power := .on, strap := high, storeFails := none, tmb := { s.tmb with fineTime := 0 }
  ssu := Ssu.reset s.psv.rig.rowTime p
  vdu := Vdu.reset p
  wvc := { s.wvc with view := p }
  lbp := Lbp.reset (releasedHold cause) s.lbp.probeBus p
  ltr := { s.ltr with view := p }
  fds := { s.fds with view := p }
  exc := { s.exc with view := p }
  psv := { s.psv.volatile with control := releasedControl cause, state := p } }

theorem released_eq (cause : ResetCause) (p : PartState) (high : Bool) (s : State) :
    released cause p { s with strap := high, storeFails := none } = releasedPart cause p high s := rfl

theorem releasedControl_eq (cause : ResetCause) :
    releasedControl cause = ⟨if cause = .command then 4 else 0, .done, 0, false, false⟩ := by
  cases cause <;> rfl

theorem releasedHold_eq (cause : ResetCause) : releasedHold cause = if cause = .powerOn then some 0 else none := by
  cases cause <;> rfl

/-- What every release leaves. -/
def releasedWith (cause : ResetCause) (high : Bool) (s t : State) : Prop := t.power = .on ∧ t.pending = s.pending
  ∧ t.strap = high ∧ t.tmb.fineTime = 0 ∧ t.tmb.siteSeconds = s.tmb.siteSeconds ∧ t.storeFails = none
  ∧ t.resetReads = s.resetReads ∧ t.psv.control = ⟨if cause = .command then 4 else 0, .done, 0, false, false⟩
  ∧ t.psv.lineMode = s.psv.lineMode ∧ t.lbp.settleHold = (if cause = .powerOn then some 0 else none)

theorem releasedWith_releasedPart (cause : ResetCause) (p : PartState) (high : Bool) (s : State) :
    releasedWith cause high s (releasedPart cause p high s) :=
  ⟨rfl, rfl, rfl, rfl, rfl, rfl, rfl, releasedControl_eq cause, rfl, releasedHold_eq cause⟩

/-! ## HALTED and BENCH -/

theorem release_of_failure {cause : ResetCause} {high : Bool} {s : State} {failure : StoreFailure}
    (h : s.storeFails = some failure) :
    release cause high s = refreshLamps (haltedPart failure (releasedPart cause .config high s)) := by
  unfold release
  rw [h]
  exact congrArg refreshLamps (enterHalted_eq failure _)

theorem releasedWith_haltedPart (cause : ResetCause) (high : Bool) (failure : StoreFailure) (s : State) :
    releasedWith cause high s (refreshLamps (haltedPart failure (releasedPart cause .config high s))) := by
  obtain ⟨-, -, -, -, -, -, -, hcontrol, -, hhold⟩ := releasedWith_releasedPart cause .config high s
  exact ⟨rfl, rfl, rfl, rfl, rfl, rfl, rfl, congrArg (fun c : Control => { c with waiting := false }) hcontrol, rfl, hhold⟩

/-- The part in BENCH as its self-check begins. -/
def benchBegun (s : State) : State := { s with
  psv := { s.psv with bench := .running, benchPhase := .lampTest s.tmb.fineTime, state := .bench }
  mail := s.mail ++ noticed.map fun b => .partStateNotice b .bench }

theorem benchStart_eq (s : State) : benchStart s = benchBegun s := rfl

section
variable {cause : ResetCause} {high : Bool} {s : State} (hstore : s.storeFails = none)
include hstore

theorem release_of_stored : release cause high s =
    refreshLamps (start cause { s with strap := high, storeFails := none }) := by
  unfold release
  rw [hstore]

theorem release_of_high (h : high = true) :
    release cause high s = refreshLamps (benchBegun (releasedPart cause .bench high s)) := by
  subst h
  rw [release_of_stored hstore]
  rfl

theorem release_of_job (h : high = false) (hjob : s.psv.jobMark = true) :
    release cause high s = refreshLamps (warmStart (releasedPart cause .recovery high s)) := by
  subst h
  rw [release_of_stored hstore]
  unfold start
  dsimp only
  rw [hjob]
  rfl

theorem release_of_jobless (h : high = false) (hjob : s.psv.jobMark = false) :
    release cause high s = refreshLamps (coldStart (releasedPart cause .config high s)) := by
  subst h
  rw [release_of_stored hstore]
  unfold start
  dsimp only
  rw [hjob]
  rfl

end

/-! ## A cold start -/

/-- The part in CONFIG with no job, its first publication begun. -/
def coldStarted (scan : Option Word) (publish : Option Timer) (window : Memory) (s : State) : State := { s with
  ssu := Ssu.reset RigValues.standby.rowTime s.ssu.view
  wvc := Wvc.cold s.wvc.view
  lbp := { s.lbp with probeBus := false }
  ltr := Ltr.cold s.ltr.view
  fds := Fds.cold s.fds.view
  exc := { s.exc.forget with
    scanTimer := scan, publishTimer := publish, statusEdition := nextEdition s.exc.statusEdition
    publication := some (nextEdition s.exc.statusEdition) }
  window := window
  psv := { s.psv with
    jobMark := false, rig := RigValues.standby, snapshot := none, rigCheck := none, lastRecoveryEnd := none
    repeatedOutage := false, state := .config }
  mail := (s.mail ++ [.publicationEnd]) ++ noticed.map fun b => .partStateNotice b .config }

/-- The part with its tables empty and the exchange timers going. -/
def coldEmptied (s : State) : State := startTimers { emptyTables s with
  ssu := Ssu.reset RigValues.standby.rowTime s.ssu.view }

theorem coldStart_eq (s : State) : coldStart s = enterState .config (beginPublication (coldEmptied s)) := rfl

theorem coldEmptied_spec (s : State) : ∃ scan publish, coldEmptied s = { s with
    ssu := Ssu.reset RigValues.standby.rowTime s.ssu.view
    wvc := Wvc.cold s.wvc.view
    lbp := { s.lbp with probeBus := false }
    ltr := Ltr.cold s.ltr.view
    fds := Fds.cold s.fds.view
    exc := { s.exc.forget with scanTimer := scan, publishTimer := publish }
    window := freeSlots s.window
    psv := { s.psv with
      jobMark := false, rig := RigValues.standby, snapshot := none, rigCheck := none, lastRecoveryEnd := none
      repeatedOutage := false } } := by
  unfold coldEmptied
  rw [startTimers_eq]
  exact ⟨_, _, rfl⟩

theorem coldStart_does (s : State) : ∃ scan publish window, coldStart s = coldStarted scan publish window s
    ∧ (windowCanonical s → slotsFreed s (coldStarted scan publish window s))
    ∧ publicationBegun s (coldStarted scan publish window s) := by
  obtain ⟨scan, publish, hcold⟩ := coldEmptied_spec s
  have hcanonical (hs : windowCanonical s) : windowCanonical (coldEmptied s) := by
    rw [windowCanonical, hcold]
    exact wf_filter _ hs
  have hbegun : publicationBegun s (beginPublication (coldEmptied s)) := by
    refine publicationBegun_beginPublication ?_ hcanonical
    rw [hcold]
    rfl
  have hfreed (hs : windowCanonical s) : slotsFreed s (beginPublication (coldEmptied s)) := by
    intro a ha
    rw [readByte_beginPublication (hcanonical hs) ha, hcold]
    exact readByte_freeSlots _ _
  rw [coldStart_eq]
  rw [beginPublication_eq] at hbegun hfreed ⊢
  generalize (beginPublication (coldEmptied s)).window = window at *
  rw [hcold] at hbegun hfreed ⊢
  obtain ⟨hpublication, hstatus, -, hwindow⟩ := hbegun
  refine ⟨scan, publish, window, rfl, hfreed, hpublication, hstatus, ?_, hwindow⟩
  exact List.mem_append_left _ (List.mem_append_right _ List.mem_cons_self)

end Sys2Proof.Machine
end

section
/-! PROOF. What a warm start leaves (09 R162, 10 R179, R183). -/

namespace Sys2Proof.Machine

open Sys2Proof

/-- What the supervisor keeps as RECOVERY begins. -/
def recoveryKept (p q : Psv) : Prop :=
  q.jobMark = p.jobMark ∧ q.rig = p.rig ∧ q.control = p.control ∧ q.lineMode = p.lineMode

/-- What the Wave Controller keeps as RECOVERY begins. -/
def waveKept (v w : Wvc) : Prop := w.dwell = v.dwell ∧ w.permission = v.permission ∧ w.wave = v.wave

/-- What the attention registers keep. -/
def attentionKept (e f : Exc) : Prop :=
  f.attn = e.attn ∧ f.attnMask = e.attnMask ∧ f.attnPace = e.attnPace ∧ f.attnLine = e.attnLine

/-- What a warm start leaves. -/
structure WarmStarted (s t : State) : Prop where
  records : ∀ x, recordOf t x = retiredRecord (recordOf s x)
  active : (∃ x, (recordOf t x).service = .active) →
    t.psv.state = .recovery ∧ t.psv.recoveryTimer = some ⟨s.tmb.fineTime, 1000 * s.psv.rig.recoveryWindow⟩
  inactive : (∀ x, (recordOf t x).service ≠ .active) → t.psv.state = .run
  resume : t.wvc.holds.getLsbD 5 = true
  held : s.wvc.climb = .held → t.wvc.climb = .held
  mail : (warmGate s).mail <+: t.mail
  told : ∀ x slot, (recordOf s x).retirePending = some slot → .orderOutcome slot (.outcome .done 0) ∈ t.mail
  psv : recoveryKept s.psv t.psv
  wave : waveKept s.wvc t.wvc
  attention : attentionKept s.exc t.exc
  images : t.exc.orderImages = s.exc.orderImages
  rest : ∃ W E Q m, t = { s with wvc := W, exc := E, fds := (warmGate s).fds, psv := Q, mail := m }

theorem recordOf_recoveryEntered (s : State) (x : Station) : recordOf (recoveryEntered s) x = recordOf s x := rfl

theorem recordOf_recoverySkipped (s : State) (x : Station) : recordOf (recoverySkipped s) x = recordOf s x := rfl

theorem prefix_recoveryEntered (s : State) : s.mail <+: (recoveryEntered s).mail :=
  (List.prefix_append _ _).trans (List.prefix_append _ _)

theorem prefix_recoverySkipped (s : State) : s.mail <+: (recoverySkipped s).mail :=
  (prefix_recoveryEntered s).trans ((List.prefix_append _ _).trans (List.prefix_append _ _))

theorem WarmBegun.entered {s u : State} (h : WarmBegun s u) (hactive : ∃ x, (recordOf u x).service = .active) :
    WarmStarted s (recoveryEntered u) := by
  obtain ⟨hrecords, ⟨T, D, H, C, DR, scan, publish, m, hrest⟩, hheld, hresume, hmail, htold⟩ := h
  have hprefix := prefix_recoveryEntered u
  refine ⟨hrecords, fun _ => ⟨rfl, ?_⟩, fun hnone => ?_, hresume, hheld, hmail.trans hprefix,
    fun x slot hslot => hprefix.subset (htold x slot hslot), ?_, ?_, ?_, ?_, ?_⟩
  · rw [hrest]
    rfl
  · obtain ⟨x, hx⟩ := hactive
    exact absurd hx (hnone x)
  all_goals rw [hrest]
  · exact ⟨rfl, rfl, rfl, rfl⟩
  · exact ⟨rfl, rfl, rfl⟩
  · exact ⟨rfl, rfl, rfl, rfl⟩
  · rfl
  · exact ⟨_, _, _, _, rfl⟩

theorem WarmBegun.skipped {s u : State} (h : WarmBegun s u) (hnone : ∀ x, (recordOf u x).service ≠ .active) :
    WarmStarted s (recoverySkipped u) := by
  obtain ⟨hrecords, ⟨T, D, H, C, DR, scan, publish, m, hrest⟩, hheld, hresume, hmail, htold⟩ := h
  have hprefix := prefix_recoverySkipped u
  refine ⟨hrecords, fun ⟨x, hx⟩ => absurd hx (hnone x), fun _ => rfl, hresume, hheld, hmail.trans hprefix,
    fun x slot hslot => hprefix.subset (htold x slot hslot), ?_, ?_, ?_, ?_, ?_⟩
  all_goals rw [hrest]
  · exact ⟨rfl, rfl, rfl, rfl⟩
  · exact ⟨rfl, rfl, rfl⟩
  · exact ⟨rfl, rfl, rfl, rfl⟩
  · rfl
  · exact ⟨_, _, _, _, rfl⟩

/-- A warm start with no reading taken yet ends in RECOVERY, or in RUN where no station is ACTIVE. -/
theorem warmStarted_warmStart {s : State} (hunread : ∀ x, readingOf s x = none) : WarmStarted s (warmStart s) := by
  have hbegun := warmBegun_warmReady s
  have hunread' (x : Station) : readingOf (warmReady s) x = none := by
    obtain ⟨-, ⟨T, D, H, C, DR, scan, publish, m, hrest⟩, -, -, -, -⟩ := hbegun
    rw [hrest]
    exact hunread x
  rw [warmStart_eq]
  by_cases hactive : ∃ x, (recordOf (warmReady s) x).service = .active
  · rw [beginRecovery_of_active hunread' hactive]
    exact hbegun.entered hactive
  · have hnone (x : Station) : (recordOf (warmReady s) x).service ≠ .active := fun hx => hactive ⟨x, hx⟩
    rw [beginRecovery_of_none hnone]
    exact hbegun.skipped hnone

theorem warmStarted_releasedPart (cause : ResetCause) (high : Bool) (s : State) :
    WarmStarted (releasedPart cause .recovery high s) (warmStart (releasedPart cause .recovery high s)) :=
  warmStarted_warmStart fun x => replicate_get _ x

theorem releasedWith_warmStart (cause : ResetCause) (high : Bool) (s : State) :
    releasedWith cause high s (refreshLamps (warmStart (releasedPart cause .recovery high s))) := by
  obtain ⟨-, -, -, -, -, -, -, ⟨-, -, hcontrol, hmode⟩, -, -, -, ⟨W, E, Q, m, hrest⟩⟩ := warmStarted_releasedPart cause high s
  obtain ⟨hpower, hpending, hstrap, hfine, hsite, hstore, hreads, hpart, hline, hhold⟩ :=
    releasedWith_releasedPart cause .recovery high s
  rw [hrest] at hcontrol hmode ⊢
  exact ⟨hpower, hpending, hstrap, hfine, hsite, hstore, hreads, hcontrol.trans hpart, hmode.trans hline, hhold⟩

theorem releasedWith_benchBegun (cause : ResetCause) (high : Bool) (s : State) :
    releasedWith cause high s (refreshLamps (benchBegun (releasedPart cause .bench high s))) := by
  obtain ⟨hpower, hpending, hstrap, hfine, hsite, hstore, hreads, hpart, hline, hhold⟩ :=
    releasedWith_releasedPart cause .bench high s
  exact ⟨hpower, hpending, hstrap, hfine, hsite, hstore, hreads, hpart, hline, hhold⟩

theorem releasedWith_coldStarted (cause : ResetCause) (high : Bool) (s : State) (scan : Option Word) (publish : Option Timer)
    (window : Memory) :
    releasedWith cause high s (refreshLamps (coldStarted scan publish window (releasedPart cause .config high s))) := by
  obtain ⟨hpower, hpending, hstrap, hfine, hsite, hstore, hreads, hpart, hline, hhold⟩ :=
    releasedWith_releasedPart cause .config high s
  exact ⟨hpower, hpending, hstrap, hfine, hsite, hstore, hreads, hpart, hline, hhold⟩

/-- Whatever a release finds, it leaves the part with its power, its strap read and CONTROL as after a reset. -/
theorem releasedWith_release (cause : ResetCause) (high : Bool) (s : State) :
    releasedWith cause high s (release cause high s) := by
  cases hstore : s.storeFails with
  | some failure =>
    rw [release_of_failure hstore]
    exact releasedWith_haltedPart cause high failure s
  | none =>
    cases hhigh : high with
    | true =>
      rw [← hhigh, release_of_high hstore hhigh]
      exact releasedWith_benchBegun cause high s
    | false =>
      rw [← hhigh]
      cases hjob : s.psv.jobMark with
      | true =>
        rw [release_of_job hstore hhigh hjob]
        exact releasedWith_warmStart cause high s
      | false =>
        obtain ⟨scan, publish, window, hcold, -, -⟩ := coldStart_does (releasedPart cause .config high s)
        rw [release_of_jobless hstore hhigh hjob, hcold]
        exact releasedWith_coldStarted cause high s scan publish window

end Sys2Proof.Machine
end

section
/-! PROOF. Errors of the retention store, power that goes and comes, and the release of a held part (09 R162, R172, 10 R173). -/

namespace Sys2Proof.Machine

open Sys2Proof

/-! ## The gate record of a released part (10 R179) -/

section
variable {s r t : State} (hstarted : WarmStarted r t) (hgate : r.fds.gate = s.fds.gate) (hrecords : r.fds.records = s.fds.records)
  (hline : r.fds.line = s.fds.line) (hmail : r.mail = s.mail)
include hstarted hgate hmail

omit hgate hmail in
theorem WarmStarted.fds_eq : t.fds = (warmGate r).fds := by
  obtain ⟨W, E, Q, m, hrest⟩ := hstarted.rest
  rw [hrest]

include hrecords in
theorem WarmStarted.drop {k : Sector} {g : GateRun} {v : Nat} (h : s.fds.gate = .drop k g) (hv : g.cut.getD 0 = v) :
    t.fds.gate = .drop k { g with passed := some v } ∧ t.fds.records = s.fds.records
      ∧ s.mail ++ [.placement k g.slot v] <+: t.mail := by
  have hwarm := warmGate_of_drop (hgate.trans h)
  have hprefix := hstarted.mail
  rw [hstarted.fds_eq, ← hrecords, ← hmail, ← hv]
  rw [hwarm] at hprefix ⊢
  exact ⟨rfl, rfl, hprefix⟩

include hrecords in
theorem WarmStarted.idle (h : s.fds.gate = .idle) :
    t.fds.gate = .idle ∧ t.fds.records = s.fds.records ∧ s.mail ++ [.dropPlan] <+: t.mail := by
  have hwarm := warmGate_of_idle (hgate.trans h)
  have hprefix := hstarted.mail
  rw [hstarted.fds_eq, ← hrecords, ← hmail]
  rw [hwarm] at hprefix ⊢
  exact ⟨hgate.trans h, rfl, hprefix⟩

omit hmail in
include hrecords in
theorem WarmStarted.uncut {g : GateRun} {cause : WasteCause} (h : s.fds.gate = .waste g cause) (hcut : g.cut = none) :
    t.fds.records = s.fds.records := by
  rw [hstarted.fds_eq, ← hrecords, warmGate_of_uncut (hgate.trans h) hcut]

omit hmail in
theorem WarmStarted.waste_closed {g : GateRun} {cause : WasteCause} (h : s.fds.gate = .waste g cause) :
    t.fds.gate = .idle := by
  rw [hstarted.fds_eq]
  exact gate_warmGate_of_waste (hgate.trans h)

include hrecords hline in
/-- A cut volume of the waste gate is wasted, and the record settled. -/
theorem WarmStarted.cut {g : GateRun} {cause : WasteCause} {v : Nat} {b : BatchRecord} (h : s.fds.gate = .waste g cause)
    (hcut : g.cut = some v) (hbatch : batchOf s g.slot = some b) :
    let b' := b.waste v cause
    t.fds.line = (if b'.remaining = 0 then s.fds.line.erase g.slot else s.fds.line)
      ∧ t.fds.records = put s.fds.records g.slot
          (if b'.settledState = .spent then none else some { b' with state := b'.settledState })
      ∧ s.mail ++ [.slotWriteRequest (.batch g.slot (if b'.settledState = b'.state then none else some b'.settledState) b'.report)]
          <+: t.mail := by
  intro b'
  have hbatch' : batchOf r g.slot = some b := (congrArg (fun x : Table (Option BatchRecord) 48 => x[g.slot]) hrecords).trans hbatch
  have hwarm : warmGate r = settleBatch g.slot b' (idleGate r) :=
    (warmGate_of_cut (hgate.trans h) hcut).trans (closeWaste_of_live hbatch' cause v)
  rw [settleBatch_eq] at hwarm
  have hprefix := hstarted.mail
  rw [hstarted.fds_eq, ← hrecords, ← hline, ← hmail]
  rw [hwarm] at hprefix ⊢
  exact ⟨rfl, rfl, hprefix⟩

end

/-! ## The commands (09 R162, R172, 10 R173) -/

theorem storeErrorHalts (s : State) (failure : StoreFailure) (hacting : acting s = true) (hstate : s.psv.state ≠ .halted)
    (hdying : s.psv.dying = false) : ∃ t, exec (.retentionStoreError failure) s = .next t ∧ haltedBy failure s t :=
  ⟨_, retentionStoreError_of_on hacting (takeStoreError_of_ne hstate hdying), haltedBy_haltedPart failure s⟩

theorem resetRelease_of_held {high : Bool} {cause : ResetCause} {s : State} (h : s.power = .held cause) :
    exec (.resetRelease high) s = .next (release cause high s) := by
  rw [exec_resetRelease, execResetRelease, h]

theorem resetRelease_of_on {high : Bool} {s : State} (h : s.power = .on) :
    exec (.resetRelease high) s = .next (noteRelease high s) := by
  rw [exec_resetRelease, execResetRelease, h]

theorem resetRelease_of_off {high : Bool} {s : State} (h : s.power = .off) : exec (.resetRelease high) s = .next s := by
  rw [exec_resetRelease, execResetRelease, h]

theorem noteRelease_of_waiting {high : Bool} {s : State} (h : s.psv.deferredReset = some (.line none)) :
    noteRelease high s = { s with psv := { s.psv with deferredReset := some (.line (some high)) } } := by
  rw [noteRelease, h]
  rfl

theorem noteRelease_of_not {high : Bool} {s : State} (h : s.psv.deferredReset ≠ some (.line none)) : noteRelease high s = s := by
  unfold noteRelease
  split
  · next hnone => exact absurd hnone h
  · rfl

/-- Settles O31. -/
theorem storeErrorsHaltAndPowerComesAndGoes : Obligations.StoreErrorsHaltAndPowerComesAndGoes := by
  refine ⟨fun s failure => ⟨retentionStoreError_of_off, fun cause => retentionStoreError_of_held,
    fun hacting hstate => retentionStoreError_of_on hacting (takeStoreError_of_halted hstate),
    fun hacting hstate hdying => ?_, fun hacting hstate hdying => ?_⟩, fun s => ?_, fun s high => ?_⟩
  · obtain ⟨hoff, hmark, -, htable, -, hrecords, -⟩ := losePower_kept (haltedPart failure s)
    obtain ⟨hmark', htable', hrecords'⟩ := haltedPart_kept failure s
    exact ⟨_, retentionStoreError_of_on hacting (takeStoreError_of_dying hstate hdying), hoff, hmark.trans hmark',
      htable.trans htable', hrecords.trans hrecords'⟩
  · obtain ⟨t, he, hpower, hrest⟩ := storeErrorHalts s failure hacting hstate hdying
    exact ⟨t, he, hpower.trans ((acting_iff s).mp hacting), hrest⟩
  · intro dies
    have hdies {t : State} (he : exec .supplyDies s = .next t) (ht : losesPower s t) : dies := ⟨t, he, ht⟩
    refine ⟨supplyDies_of_off, fun cause h => hdies (supplyDies_of_held h) (losesPower_losePower s),
      fun hon => ⟨fun hmonitor hstate => ?_, fun hmonitor => ?_, fun hmonitor => ?_, fun hmonitor hbench hhalted => ?_⟩,
      fun held => powerOn_of_powered, fun held hoff => ?_⟩
    · exact hdies (supplyDies_of_on hon (takeSupplyDies_of_still hmonitor hstate)) (losesPower_refreshLamps s)
    · exact hdies (supplyDies_of_on hon (takeSupplyDies_of_wait hmonitor)) (losesPower_refreshLamps s)
    · exact supplyDies_of_on hon (takeSupplyDies_of_actions hmonitor)
    · exact ⟨takeWarning s, leadsTo_of_whileActing (exec_supplyLow s) ((acting_iff s).mpr hon)
        (takeSupplyLow_of_normal hmonitor hbench hhalted),
        supplyDies_of_on hon (takeSupplyDies_of_normal hmonitor hbench hhalted)⟩
    · obtain ⟨hpower, hmode, hcontrol, hmark, hregControl, hregState, hregAttn, hregMask, hregPace, htable, hstack, hrecords,
        hwindow⟩ := powerUp_gives held s
      refine ⟨_, powerOn_of_off hoff, hpower, hmode, hcontrol, hmark, hregControl, hregState, hregAttn, hregMask, hregPace,
        htable, hstack, hrecords, hwindow, fun hnew => ?_, fun w hsaved hlost => ?_, fun w hsaved hheld => ?_⟩
      · rw [powerUp_eq, backupReport_of_new (s := poweredUp s) hnew]
        exact ⟨rfl, rfl⟩
      · subst hlost
        rw [powerUp_eq, backupReport_of_lost (s := poweredUp s) hsaved]
        exact ⟨rfl, rfl, rfl, List.mem_append_right _ (List.mem_append_right _ List.mem_cons_self)⟩
      · subst hheld
        rw [powerUp_eq, backupReport_of_held (s := poweredUp s) hsaved]
        rfl
  · refine ⟨resetRelease_of_off, fun hon => ⟨fun h => ?_, fun h => ?_⟩, fun cause hheld => ?_⟩
    · rw [resetRelease_of_on hon, noteRelease_of_waiting h]
    · rw [resetRelease_of_on hon, noteRelease_of_not h]
    obtain ⟨hpower, -, hstrap, hfine, hsite, hstored, -, hcontrol, -, hsettle⟩ := releasedWith_release cause high s
    refine ⟨_, resetRelease_of_held hheld, hpower, hstrap, hfine, hsite, hstored, hcontrol, hsettle, fun failure hfails => ?_,
      fun hstore => ⟨fun hhigh => ?_, fun hlow hjob => ?_, fun hlow hjob => ?_⟩⟩
    · rw [release_of_failure hfails]
      exact ⟨rfl, rfl, rfl⟩
    · rw [release_of_high hstore hhigh]
      exact ⟨rfl, rfl, rfl, rfl⟩
    · have hstarted := warmStarted_releasedPart cause high s
      have hrelease := release_of_job (cause := cause) hstore hlow hjob
      generalize warmStart (releasedPart cause .recovery high s) = u at hstarted hrelease
      rw [hrelease]
      obtain ⟨hmark, hrig, -, -⟩ := hstarted.psv
      refine ⟨hmark.trans hjob, hrig, hstarted.active, hstarted.inactive, hstarted.resume, hstarted.records, hstarted.told,
        fun k g hgate => ?_, fun g cause hgate => ⟨?_, fun hcut => ?_, fun v b hcut hbatch => ?_⟩, fun hgate => ?_⟩
      · refine hstarted.drop rfl rfl rfl hgate ?_
        cases g.cut <;> rfl
      · exact hstarted.waste_closed (s := s) rfl hgate
      · exact hstarted.uncut (s := s) rfl rfl hgate hcut
      · exact hstarted.cut (s := s) rfl rfl rfl rfl hgate hcut hbatch
      · exact hstarted.idle rfl rfl rfl hgate
    · obtain ⟨scan, publish, window, hcold, hfreed, hbegun⟩ := coldStart_does (releasedPart cause .config high s)
      rw [release_of_jobless hstore hlow hjob, hcold]
      exact ⟨rfl, rfl, fun x => replicate_get _ x, fun k => replicate_get _ k, rfl,
        exchangeEmptied_of (forgotten_forget s.exc) hfreed, hbegun⟩

end Sys2Proof.Machine
end

section
/-! PROOF. What the assertion of a reset leaves (09 R168, log 16, 10 R179). -/

namespace Sys2Proof.Machine

open Sys2Proof

/-! ## What is settled changes no block that settles nothing (log 16) -/

/-- What the settling of messages leaves alone. -/
def supervised (s : State) := (s.pending, s.power, s.strap, s.storeFails, s.resetReads, s.tmb, s.psv)

theorem supervised_of_exchangeless {s t : State} (h : exchangeless t = exchangeless s) : supervised t = supervised s := by
  rw [exchangeless_eq h]
  rfl

theorem supervised_of_layerless {s t : State} (h : layerless t = layerless s) : supervised t = supervised s := by
  rw [layerless_eq h]
  rfl

theorem supervised_of_feedless {s t : State} (h : feedless t = feedless s) : supervised t = supervised s := by
  rw [feedless_eq h]
  rfl

theorem supervised_of_waveless {s t : State} (h : waveless t = waveless s) : supervised t = supervised s := by
  rw [waveless_eq h]
  rfl

theorem supervised_of_strokeless {s t : State} (h : strokeless t = strokeless s) : supervised t = supervised s := by
  rw [strokeless_eq h]
  rfl

theorem supervised_settling {c : Instr} {f : State → State} (h : settling c = some f) (s : State) :
    supervised (f s) = supervised s := by
  cases c with
  | countsChanged => cases h; exact supervised_of_layerless (layerless_takeCountsChanged s)
  | placement => cases h; exact supervised_of_layerless (layerless_takePlacement _ _ _ s)
  | placementAnswer => cases h; exact supervised_of_feedless (feedless_takePlacementAnswer _ s)
  | exitNotice => cases h; exact supervised_of_feedless (feedless_takeExitNotice _ _ _ s)
  | slotWriteRequest => cases h; exact supervised_of_exchangeless (exchangeless_takeSlotWrite _ s)
  | orderOutcome => cases h; exact supervised_of_exchangeless (exchangeless_takeOrderOutcome _ _ s)
  | drainQueue => cases h; exact supervised_of_strokeless (strokeless_takeDrainQueue _ s)
  | drainAnswer => cases h; exact supervised_of_waveless (waveless_takeDrainAnswer _ _ _ s)
  | climbDirective => cases h; exact supervised_of_waveless (waveless_takeClimbDirective _ s)
  | flowDirective => cases h; exact supervised_of_feedless (feedless_takeFlow _ s)
  | feedMaskDirective => cases h; exact supervised_of_layerless (layerless_takeFeedMask _ s)
  | _ => cases h

theorem supervised_settleMail (n : Nat) (s : State) : supervised (settleMail n s) = supervised s := by
  induction n generalizing s with
  | zero => rfl
  | succ n ih =>
    unfold settleMail
    split
    · rfl
    · split
      · rfl
      · next f hf => exact (ih _).trans (supervised_settling hf _)

theorem supervised_settleWave (s : State) : supervised (settleWave s) = supervised s := by
  unfold settleWave
  split
  · exact (supervised_settleMail _ _).trans (supervised_of_waveless (waveless_takeWavePowerDown s))
  · rfl

theorem supervised_settleAtAssertion (s : State) : supervised (settleAtAssertion s) = supervised s := by
  have hsettled (t : State) : supervised (settleWave (settleMail settleLimit t)) = supervised t :=
    (supervised_settleWave _).trans (supervised_settleMail _ _)
  unfold settleAtAssertion
  dsimp only
  split
  · exact (supervised_of_feedless (feedless_cutAtReset _)).trans (hsettled _)
  · exact hsettled _

theorem supervised_iff (s t : State) : supervised t = supervised s ↔ t.pending = s.pending ∧ t.power = s.power
    ∧ t.strap = s.strap ∧ t.storeFails = s.storeFails ∧ t.resetReads = s.resetReads ∧ t.tmb = s.tmb ∧ t.psv = s.psv := by
  simp only [supervised, Prod.mk.injEq]

/-! ## The part held in reset (09 R168) -/

/-- What holding a part in reset leaves of the part it holds. -/
def heldFrom (cause : ResetCause) (s t : State) : Prop := t.power = .held cause ∧ t.pending = s.pending ∧ t.tmb = s.tmb
  ∧ t.storeFails = s.storeFails ∧ t.resetReads = s.resetReads
  ∧ t.psv.jobMark = s.psv.jobMark ∧ t.psv.lineMode = s.psv.lineMode ∧ t.psv.rig = s.psv.rig

theorem heldFrom_assertReset (cause : ResetCause) (s : State) : heldFrom cause s (assertReset cause s) := by
  obtain ⟨hpending, -, -, hstore, hreads, htmb, hpsv⟩ := (supervised_iff _ _).mp (supervised_settleAtAssertion s)
  exact ⟨rfl, hpending, htmb, hstore, hreads, (congrArg Psv.jobMark hpsv :),
    (congrArg Psv.lineMode hpsv :), (congrArg Psv.rig hpsv :)⟩

/-- What every part held in reset shows. -/
theorem assertReset_shows (cause : ResetCause) (s : State) :
    let t := assertReset cause s
    t.vdu.pumpEnable = false ∧ (∀ st, channelOf t st = ⟨.idle, 0, 0, none, false, 0⟩)
      ∧ t.psv.green.pattern = .dark ∧ t.psv.amber.pattern = .dark ∧ t.psv.red.pattern = .dark
      ∧ t.readPort 0x04 = some 0 ∧ t.readPort 0x08 = some Config.stateInReset ∧ t.readPort 0x0C = some 0
      ∧ t.readPort 0x10 = some 0x3F ∧ t.readPort 0x14 = some 1
      ∧ t.wvc.climb = .held ∧ t.wvc.dwell = 180000000 ∧ t.wvc.permission = false ∧ (∀ st, itemOf t st = WaveItem.clear) := by
  unfold assertReset
  generalize settleAtAssertion s = u
  obtain ⟨hgreen, hamber, hred⟩ := lampsExact_refreshLamps { loseVolatile u with power := .held cause }
  exact ⟨rfl, fun st => replicate_get _ st, hgreen, hamber, hred, (readPort_control rfl).trans (congrArg some controlWord_reset),
    readPort_state rfl, (readPort_attn rfl).trans rfl, (readPort_attnMask rfl).trans rfl, (readPort_attnPace rfl).trans rfl,
    rfl, rfl, rfl, fun st => replicate_get _ st⟩

/-! ## The gate record at the assertion (10 R179) -/

/-- What the assertion settles, but for the gate. -/
def settledWave (s : State) : State :=
  settleWave (onFds (fun f => { f with view := if f.view = .halted then .halted else .powerDown }) s)

theorem settleAtAssertion_of_calm {s : State} (h : settlingWaits s = false) :
    settleAtAssertion s = if gatesRun s = true then cutAtReset (settledWave s) else settledWave s := by
  have hnone : settlingMail (onFds (fun f => { f with view := if f.view = .halted then .halted else .powerDown }) s) = [] := by
    refine List.filter_eq_nil_iff.mpr fun c hc hs => ?_
    exact Bool.noConfusion (h.symm.trans (List.any_eq_true.mpr ⟨c, hc, hs⟩))
  unfold settleAtAssertion
  dsimp only
  rw [settleMail_none _ _ hnone]
  rfl

/-- The settling of a wave in flight that nothing interferes with leaves the gate record. -/
theorem gate_settledWave {s : State} (hcalm : settlingWaits s = false)
    (hwave : inWave s = true → s.wvc.view ≠ .halted ∧ s.wvc.drains = [] ∧ s.wvc.recoveryWindows = []) :
    (settledWave s).fds.gate = s.fds.gate ∧ (settledWave s).tmb = s.tmb := by
  cases h : inWave s with
  | false =>
    have he : settledWave s = onFds (fun f => { f with view := if f.view = .halted then .halted else .powerDown }) s :=
      if_neg (by rw [show inWave (onFds _ s) = inWave s from rfl, h]; exact Bool.false_ne_true)
    rw [he]
    exact ⟨rfl, rfl⟩
  | true =>
    obtain ⟨hview, hdrains, hwindows⟩ := hwave h
    have hnone : settlingMail (onFds (fun f => { f with view := if f.view = .halted then .halted else .powerDown }) s) = [] := by
      refine List.filter_eq_nil_iff.mpr fun c hc hs => ?_
      exact Bool.noConfusion (hcalm.symm.trans (List.any_eq_true.mpr ⟨c, hc, hs⟩))
    obtain ⟨-, hgate, htmb, -⟩ := settleWave_spec
      (onFds (fun f => { f with view := if f.view = .halted then .halted else .powerDown }) s) hnone h hview hdrains hwindows
    exact ⟨hgate, htmb⟩

theorem settledWave_of_calm {s : State} (h : inWave s = false) : (settledWave s).fds.records = s.fds.records := by
  have he : settledWave s = onFds (fun f => { f with view := if f.view = .halted then .halted else .powerDown }) s :=
    if_neg (by rw [show inWave (onFds _ s) = inWave s from rfl, h]; exact Bool.false_ne_true)
  rw [he]
  rfl

theorem gatesRun_iff (s : State) : gatesRun s = true ↔ s.psv.state = .run ∨ s.psv.state = .stopping := by
  rw [gatesRun, Bool.or_eq_true, decide_eq_true_iff, decide_eq_true_iff]

theorem cutAtReset_of_drop {s : State} {k : Sector} {g : GateRun} (h : s.fds.gate = .drop k g) : cutAtReset s = { s with
    fds := { s.fds with gate := .drop k (g.resetAt (resetCut s g)) } } := by
  rw [cutAtReset, h]
  rfl

theorem cutAtReset_of_waste {s : State} {g : GateRun} {cause : WasteCause} (h : s.fds.gate = .waste g cause) :
    cutAtReset s = { s with fds := { s.fds with gate := .waste (g.resetAt (resetCut s g)) cause } } := by
  rw [cutAtReset, h]
  rfl

theorem cutAtReset_of_idle {s : State} (h : s.fds.gate = .idle) : cutAtReset s = s := by
  rw [cutAtReset, h]

theorem records_cutAtReset (s : State) : (cutAtReset s).fds.records = s.fds.records := by
  cases h : s.fds.gate with
  | drop k g => rw [cutAtReset_of_drop h]
  | waste g cause => rw [cutAtReset_of_waste h]
  | idle => rw [cutAtReset_of_idle h]

theorem resetCut_congr {s t : State} (h : t.tmb = s.tmb) (g : GateRun) : resetCut t g = resetCut s g := by
  unfold resetCut cutVolume now
  rw [h]

end Sys2Proof.Machine
end

section
/-! PROOF. The assertion of the reset line, and what a line reset in HOLD mode does in the blocks (09 R168, R169). -/

namespace Sys2Proof.Machine

open Sys2Proof

/-! ## The assertion in RESTART mode (09 R168, 10 R179) -/

/-- The gate record is cut in RUN and STOPPING alone, and otherwise only retained. -/
theorem assertReset_cuts (cause : ResetCause) {s : State} (hruns : s.psv.state = .run ∨ s.psv.state = .stopping)
    (hcalm : settlingWaits s = false)
    (hwave : inWave s = true → s.wvc.view ≠ .halted ∧ s.wvc.drains = [] ∧ s.wvc.recoveryWindows = []) :
    let t := assertReset cause s
    (inWave s = false → t.fds.records = s.fds.records)
      ∧ (∀ k g, s.fds.gate = .drop k g → t.fds.gate = .drop k (g.resetAt (resetCut s g)))
      ∧ (∀ g why, s.fds.gate = .waste g why → t.fds.gate = .waste (g.resetAt (resetCut s g)) why)
      ∧ (s.fds.gate = .idle → t.fds.gate = .idle) := by
  obtain ⟨hgate, htmb⟩ := gate_settledWave hcalm hwave
  have hsettled : settleAtAssertion s = cutAtReset (settledWave s) :=
    (settleAtAssertion_of_calm hcalm).trans (if_pos ((gatesRun_iff s).mpr hruns))
  have hrecords (h : inWave s = false) : (settleAtAssertion s).fds.records = s.fds.records := by
    rw [hsettled, records_cutAtReset, settledWave_of_calm h]
  refine ⟨hrecords, fun k g h => ?_, fun g why h => ?_, fun h => ?_⟩
  · have hcut : (settleAtAssertion s).fds.gate = .drop k (g.resetAt (resetCut s g)) := by
      rw [hsettled, cutAtReset_of_drop (hgate.trans h), resetCut_congr htmb]
    exact hcut
  · have hcut : (settleAtAssertion s).fds.gate = .waste (g.resetAt (resetCut s g)) why := by
      rw [hsettled, cutAtReset_of_waste (hgate.trans h), resetCut_congr htmb]
    exact hcut
  · have hcut : (settleAtAssertion s).fds.gate = .idle := by
      rw [hsettled, cutAtReset_of_idle (hgate.trans h), hgate, h]
    exact hcut

section
variable {s : State}

theorem assertLine_of_actions (hmode : s.psv.lineMode = .restart) (hactions : inActions s = true) :
    assertLine s = { s with psv := { s.psv with deferredReset := some (.line none) } } := by
  rw [assertLine, hmode]
  exact if_pos hactions

theorem assertLine_of_restart (hmode : s.psv.lineMode = .restart) (hactions : inActions s = false) :
    assertLine s = assertReset .line s := by
  rw [assertLine, hmode]
  exact if_neg (by simp [hactions])

theorem assertLine_of_still (hmode : s.psv.lineMode = .hold) (hstate : s.psv.state = .bench ∨ s.psv.state = .halted) :
    assertLine s = assertReset .line s := by
  rw [assertLine, hmode]
  unfold lineHold
  rcases hstate with h | h <;> rw [h]

theorem assertLine_of_powerDown (hmode : s.psv.lineMode = .hold) (hstate : s.psv.state = .powerDown) : assertLine s = s := by
  rw [assertLine, hmode]
  unfold lineHold
  rw [hstate]

theorem assertLine_of_hold (hmode : s.psv.lineMode = .hold) (hbench : s.psv.state ≠ .bench) (hhalted : s.psv.state ≠ .halted)
    (hpower : s.psv.state ≠ .powerDown) : assertLine s = { s with
      mail := s.mail ++ [.lineHoldNotice .ssu, .lineHoldNotice .vdu, .lineHoldNotice .wvc, .lineHoldNotice .fds]
        ++ [.attentionSetRequest .hold] } := by
  rw [assertLine, hmode]
  unfold lineHold
  cases h : s.psv.state
  case bench => exact absurd h hbench
  case halted => exact absurd h hhalted
  case powerDown => exact absurd h hpower
  all_goals rfl

end

/-! ## A line reset in HOLD mode at the field blocks (02 R33, 03 R42) -/

theorem windingDown_iff (s : State) :
    windingDown s = true ↔ (s.wvc.climb = .drive ∨ s.wvc.climb = .settle) ∧ s.wvc.holds.getLsbD 5 = true := by
  rw [windingDown, Bool.and_eq_true, inWave_iff]
  rfl

theorem clearStrays_spec (s : State) : ∃ stations, clearStrays s = { s with ssu := { s.ssu with stations := stations } }
    ∧ ∀ st : Station, stations[st] = { ssuOf s st with strays := 0 } :=
  ⟨_, rfl, fun st => mapAll_get _ _ st⟩

theorem hold_of_going_on {c : Channel} (rig : RigValues) (now' : Word) (hstate : c.state = .closing) (htarget : c.target = 0) :
    c.hold rig true now' = c := by
  unfold Channel.hold
  rw [hstate]
  exact if_pos (by simp [htarget])

theorem commandClose_zero_of_opening {c : Channel} (rig : RigValues) (now' : Word) (hstate : c.state = .opening) :
    c.commandClose rig 0 now' = if 0 < c.present now' then c.fall rig 0 now' else c.stand .idle 0 := by
  unfold Channel.commandClose
  rw [hstate]

/-- A fall from level 0 takes no time. -/
theorem fall_zero_of_level_zero {c : Channel} {rig : RigValues} {now' : Word} (h : c.present now' = 0) :
    c.fall rig 0 now' = c.stand .idle 0 := by
  refine fall_of_duration_zero ?_
  rw [h, rampDuration, Nat.sub_zero, Nat.mul_zero, Nat.zero_div]

/-- A line reset in HOLD mode brings down every channel but an IDLE one and one left falling. -/
theorem hold_of_not {c : Channel} {rig : RigValues} {again : Bool} {now' : Word} (hidle : c.state ≠ .idle)
    (h : ¬(again = true ∧ c.state = .closing ∧ c.target = 0)) : c.hold rig again now' = c.fall rig 0 now' := by
  unfold Channel.hold
  cases hstate : c.state
  case idle => exact absurd hstate hidle
  case closing =>
    refine if_neg fun hp => h ?_
    rw [Bool.and_eq_true, decide_eq_true_iff] at hp
    exact ⟨hp.1, hstate, hp.2⟩
  case opening =>
    refine (commandClose_zero_of_opening rig now' hstate).trans ?_
    by_cases hlevel : 0 < c.present now'
    · exact if_pos hlevel
    · rw [if_neg hlevel, fall_zero_of_level_zero (Nat.eq_zero_of_not_pos hlevel)]
  case opened => exact commandClose_of_above (.inl hstate)

theorem hold_of_idle {c : Channel} (rig : RigValues) (again : Bool) (now' : Word) (h : c.state = .idle) :
    c.hold rig again now' = c.stand .idle 0 := by
  unfold Channel.hold
  rw [h]

/-- No channel that a line reset in HOLD mode has acted on needs the pump. -/
theorem needsPump_hold (c : Channel) (rig : RigValues) (again : Bool) (now' : Word) :
    (c.hold rig again now').needsPump = false := by
  by_cases hidle : c.state = .idle
  · rw [hold_of_idle _ _ _ hidle]
    rfl
  by_cases hgoing : again = true ∧ c.state = .closing ∧ c.target = 0
  · obtain ⟨hagain, hstate, htarget⟩ := hgoing
    rw [hagain, hold_of_going_on _ _ hstate htarget, Channel.needsPump, hstate]
  · rw [hold_of_not hidle hgoing]
    unfold Channel.fall Channel.rampTo
    dsimp only
    split <;> rfl

theorem withChannels_of_held (v : Vdu) (rig : RigValues) (again : Bool) (now' : Word) :
    v.withChannels (mapAll v.channels fun c => c.hold rig again now') =
      { v with channels := mapAll v.channels fun c => c.hold rig again now', pumpEnable := false } := by
  have hpump : anyOf (mapAll v.channels fun c => c.hold rig again now') Channel.needsPump = false := by
    simp only [anyOf_false_iff, mapAll_get, needsPump_hold, implies_true]
  rw [Vdu.withChannels, hpump]

/-- The Valve Drive Unit after a line reset in HOLD mode. -/
theorem valveLineHold_spec (s : State) : ∃ channels, valveLineHold s = { s with
    vdu := { s.vdu with quiet := true, pumpEnable := false, channels := channels } }
    ∧ ∀ st : Station, channels[st] =
        (channelOf s st).hold s.psv.rig (windingDown s && s.vdu.quiet) s.tmb.fineTime := by
  refine ⟨mapAll s.vdu.channels fun c => c.hold s.psv.rig (windingDown s && s.vdu.quiet) s.tmb.fineTime, ?_,
    fun st => mapAll_get _ _ st⟩
  unfold valveLineHold holdChannels mapChannels
  rw [withChannels_of_held]
  rfl

end Sys2Proof.Machine
end

section
/-! PROOF. LINE_HOLD_NOTICE at the Wave Controller and the Feed Distributor, and the line reset (09 R168, R169). -/

namespace Sys2Proof.Machine

open Sys2Proof

theorem refreshLamps_assertReset (cause : ResetCause) (s : State) :
    refreshLamps (assertReset cause s) = assertReset cause s :=
  refreshLamps_of_lampsExact (lampsExact_refreshLamps _)

/-! ## LINE_HOLD_NOTICE at the Wave Controller (04 R78) -/

theorem setBit_resume (H : BitVec 6) : setBit H holdResume = H ||| 0x20#6 :=
  congrArg (H ||| ·) (by decide : bit 6 holdResume = 0x20#6)

/-- RESUME among the hold reasons. -/
def holdsResume (s : State) : State := { s with wvc := { s.wvc with holds := s.wvc.holds ||| 0x20#6 } }

theorem resumeJoined_eq (s : State) : resumeJoined s = holdsResume s := by
  rw [resumeJoined, setBit_resume, holdsResume]

theorem addHold_resume_eq (s : State) : addHold holdResume s =
    if s.wvc.climb = .dwell then setClimb .held (resumeJoined s) else resumeJoined s := rfl

section
variable {s : State} (hview : s.wvc.view ≠ .halted)
include hview

theorem waveLineHold_of_dwell (h : s.wvc.climb = .dwell) : waveLineHold s = { s with
    wvc := { s.wvc with holds := s.wvc.holds ||| 0x20#6, climb := .held }
    mail := s.mail ++ [.attentionSetRequest .hold] } := by
  have hadd : addHold holdResume s = { s with
      wvc := { s.wvc with holds := s.wvc.holds ||| 0x20#6, climb := .held }
      mail := s.mail ++ [.attentionSetRequest .hold] } := by
    rw [addHold_resume_eq, if_pos h, setClimb_eq, resumeJoined_eq, if_neg (by simp [holdsResume, h])]
    rfl
  refine (if_neg hview).trans ?_
  dsimp only
  rw [hadd]
  exact if_neg nofun

theorem waveLineHold_of_not {t : State} (hdwell : s.wvc.climb ≠ .dwell)
    (e : (if s.wvc.climb = .drive then windDown (resumeJoined s) else resumeJoined s) = t) : waveLineHold s = t := by
  refine (if_neg hview).trans ?_
  rw [addHold_resume_eq, if_neg hdwell]
  exact e

theorem waveLineHold_of_calm (h : s.wvc.climb = .held ∨ s.wvc.climb = .settle) : waveLineHold s = holdsResume s := by
  refine waveLineHold_of_not hview ?_ ?_
  · rcases h with h | h <;> rw [h] <;> decide
  · rw [if_neg, resumeJoined_eq]
    rcases h with h | h <;> rw [h] <;> decide

theorem waveLineHold_of_ending (h : s.wvc.climb = .drive) (hending : s.wvc.ending ≠ none) : waveLineHold s = holdsResume s := by
  refine waveLineHold_of_not hview (by rw [h]; decide) ?_
  rw [if_pos h, ← resumeJoined_eq]
  exact if_neg hending

theorem waveLineHold_of_drive (h : s.wvc.climb = .drive) (hending : s.wvc.ending = none) :
    waveLineHold s = beginDriveEnd true (holdsResume s) := by
  refine waveLineHold_of_not hview (by rw [h]; decide) ?_
  rw [if_pos h, ← resumeJoined_eq]
  exact if_pos hending

end

/-! ## LINE_HOLD_NOTICE at the Feed Distributor (07 R137) -/

/-- The feed paused. -/
def feedPaused (s : State) : State := { s with fds := { s.fds with paused := true } }

theorem feedLineHold_eq {s : State} (hview : s.fds.view ≠ .halted) : feedLineHold s = cutGate (feedPaused s) :=
  unlessHaltedFeed_of_live hview _

/-- Settles O28. -/
theorem lineResetHoldsThePartOrResetsIt : Obligations.LineResetHoldsThePartOrResetsIt := by
  refine ⟨fun s hacting c hc => ?_, fun s hacting => ?_, fun s hacting => ?_⟩
  · have hlead {t : State} (e : assertLine s = t) : leadsTo c s t := by
      rcases List.mem_cons.mp hc with rfl | hc
      · exact leadsTo_of_whileActing (exec_lineResetRestart s) hacting e
      · rw [List.mem_singleton.mp hc]
        exact leadsTo_of_whileActing (exec_lineResetHold s) hacting e
    refine ⟨fun hmode hbench hhalted hpower => hlead (assertLine_of_hold hmode hbench hhalted hpower),
      fun hmode hpower => hlead (assertLine_of_powerDown hmode hpower),
      fun hmode hactions => hlead (assertLine_of_actions hmode hactions), fun hreset => ?_⟩
    have hassert : assertLine s = assertReset .line s := by
      rcases hreset with ⟨hmode, hactions⟩ | ⟨hmode, hstill⟩
      · exact assertLine_of_restart hmode hactions
      · exact assertLine_of_still hmode hstill
    have hexec : exec c s = .next (assertReset .line s) :=
      (hlead hassert).trans (congrArg Host.Outcome.next (refreshLamps_assertReset .line s))
    obtain ⟨hpower, -, -, -, -, hmark, hline, -⟩ := heldFrom_assertReset .line s
    obtain ⟨hpump, hchannels, hgreen, hamber, hred, hregControl, hregState, hregAttn, hregMask, hregPace, hclimb, hdwell,
      hpermission, hitems⟩ := assertReset_shows .line s
    refine ⟨_, hexec, hpower, hmark, hline, hpump, hchannels, hgreen, hamber, hred, hregControl, hregState, hregAttn, hregMask,
      hregPace, hclimb, hdwell, hpermission, hitems, fun hcalm hno => ?_, fun hcalm hwave hview hdrains hwindows => ?_,
      fun hruns hcalm hwave => ?_⟩
    · obtain ⟨hrecords, -⟩ := assertReset_settles s .line hcalm fun hw => Bool.noConfusion (hno.symm.trans hw)
      refine table_ext fun x => (hrecords x).trans (if_neg ?_)
      rw [hno]
      exact Bool.false_ne_true
    · obtain ⟨hrecords, -, -, -, -, hanswered⟩ := assertReset_settles s .line hcalm fun _ => ⟨hview, hdrains, hwindows⟩
      exact ⟨fun x => (hrecords x).trans (if_pos hwave), fun hexc hcanonical => hanswered hwave hcanonical hexc⟩
    · have hcuts := assertReset_cuts .line hruns hcalm hwave
      generalize assertReset .line s = t at hcuts ⊢
      intro ran cut
      have hcut (g : GateRun) : g.resetAt (resetCut s g) = cut g := by
        unfold cut resetCut
        cases g.cut with
        | some v => rfl
        | none =>
          cases g.passed with
          | some v => rfl
          | none => rfl
      simp only [hcut] at hcuts
      exact hcuts
  · intro ssu vdu windingDown'
    have hssu {t : State} (e : strokeLineHold (took ssu s) = t) : leadsTo ssu s t :=
      leadsTo_of_taking (exec_lineHoldNotice .ssu s) hacting e
    have hwinding : windingDown (took ssu s) = true ↔ windingDown' := windingDown_iff s
    have hwinding' : windingDown (took vdu s) = true ↔ windingDown' := windingDown_iff s
    refine ⟨fun h => hssu (if_pos (hwinding.mpr h)), fun h => ?_, ?_⟩
    · obtain ⟨stations, hclear, hstations⟩ := clearStrays_spec (took ssu s)
      refine ⟨_, hssu ((if_neg fun hw => h (hwinding.mp hw)).trans hclear), rfl, rfl, rfl, rfl, rfl, hstations⟩
    · obtain ⟨channels, hheld, hchannels⟩ := valveLineHold_spec (took vdu s)
      refine ⟨_, leadsTo_of_taking (exec_lineHoldNotice .vdu s) hacting hheld, rfl, rfl, rfl, fun st => ?_⟩
      intro c a d falling
      have hc : channels[st] = c.hold s.psv.rig (windingDown (took vdu s) && s.vdu.quiet) s.tmb.fineTime := hchannels st
      have hgoing : (windingDown (took vdu s) && s.vdu.quiet) = true ∧ c.state = .closing ∧ c.target = 0 ↔ falling := by
        rw [Bool.and_eq_true, hwinding']
        exact ⟨fun ⟨⟨hw, hq⟩, hs, ht⟩ => ⟨hw, hs, hq, ht⟩, fun ⟨hw, hs, hq, ht⟩ => ⟨⟨hw, hq⟩, hs, ht⟩⟩
      refine ⟨fun hfalling => hc.trans ?_, fun hnot hstate => hc.trans ?_, fun hnot hidle hd => hc.trans ?_⟩
      · obtain ⟨hagain, hstate, htarget⟩ := hgoing.mpr hfalling
        rw [hagain]
        exact hold_of_going_on _ _ hstate htarget
      · by_cases hidle : c.state = .idle
        · exact hold_of_idle _ _ _ hidle
        · exact (hold_of_not hidle (mt hgoing.mp hnot)).trans (fall_of_duration_zero (hstate.resolve_left hidle))
      · exact (hold_of_not hidle (mt hgoing.mp hnot)).trans (fall_of_duration_ne_zero hd)
  · intro wvc fds resumed told ran
    refine ⟨fun hview => ?_, fun hview => ?_⟩
    · have hlead {t : State} (e : waveLineHold (took wvc s) = t) : leadsTo wvc s t :=
        leadsTo_of_taking (exec_lineHoldNotice .wvc s) hacting e
      refine ⟨fun h => hlead (waveLineHold_of_calm (s := took wvc s) hview h),
        fun h => hlead (waveLineHold_of_dwell (s := took wvc s) hview h),
        fun h hending => hlead (waveLineHold_of_ending (s := took wvc s) hview h hending), fun h hending => ?_⟩
      have htake := waveLineHold_of_drive (s := took wvc s) hview h hending
      have hps : participants s =
          takingPart (holdsResume (took wvc s)) := participants_of_drive h
      refine ⟨_, hlead htake, waveless_eq (waveless_beginDriveEnd _ _), fun st => itemOf_beginDriveEnd _ _ _,
        fun hsome => ?_, fun hnone hdrains => ?_⟩
      · rw [hps] at hsome ⊢
        rw [beginDriveEnd_of_drains (.inl hsome)]
        obtain ⟨-, -, -, -, hmail⟩ := driveEnded_spec true (holdsResume (took wvc s))
        exact ⟨driveEnded_wvc true (holdsResume (took wvc s)), hmail⟩
      · rw [hps] at hnone
        rw [beginDriveEnd_of_none hnone hdrains]
        obtain ⟨hwvc, hmail⟩ := finishDriveEnd_of_nobody true hnone
        refine ⟨hwvc.trans ?_, hmail⟩
        rw [← show s.wvc.ending = none from hending]
        rfl
    · have hlead {t : State} (e : cutGate (feedPaused (took fds s)) = t) : leadsTo fds s t :=
        leadsTo_of_taking (exec_lineHoldNotice .fds s) hacting ((feedLineHold_eq (s := took fds s) hview).trans e)
      refine ⟨fun h => hlead (cutGate_of_idle (s := feedPaused (took fds s)) h), fun k g hgate hopen => ?_,
        fun g cause r hgate hbatch => ?_⟩
      · intro v
        refine hlead ?_
        exact cutGate_of_open (s := feedPaused (took fds s)) hgate hopen
      · intro v r' settled
        refine hlead ?_
        rw [cutGate_of_waste (s := feedPaused (took fds s)) hgate, closeWaste_of_live (s := feedPaused (took fds s)) hbatch,
          settleBatch_eq]
        rfl

end Sys2Proof.Machine
end

section
/-! PROOF. The RESET command: the part is reset and released at once (09 R162, R168, log 16, log 75). -/

namespace Sys2Proof.Machine

open Sys2Proof

/-! ## RESET taken (09 R168, 10 R180) -/

section
variable {s : State}

theorem takeReset_of_not (h : inActions s = false) : takeReset s = resetNow s := if_neg (by simp [h])

theorem deferCommand_of_line {q : Psv} {r : Option Bool} (h : q.deferredReset = some (.line r)) : q.deferCommand = q := by
  rw [Psv.deferCommand, h]

theorem deferCommand_of_not {q : Psv} (h : ∀ r, q.deferredReset ≠ some (.line r)) :
    q.deferCommand = { q with deferredReset := some .command } := by
  unfold Psv.deferCommand
  split
  · next r hr => exact absurd hr (h r)
  · rfl

theorem takeReset_of_actions (h : inActions s = true) : takeReset s = { s with psv := { s.psv.deferCommand with
    control := ⟨4, .waiting, 0, true, false⟩ } } := if_pos h

/-! ## A reset that waited for the power-down actions (10 R180) -/

theorem takeDeferredReset_of_command (h : s.psv.deferredReset = some .command) : takeDeferredReset s = resetNow s := by
  rw [takeDeferredReset, h]

theorem takeDeferredReset_of_line (h : s.psv.deferredReset = some (.line none)) :
    takeDeferredReset s = assertReset .line s := by
  rw [takeDeferredReset, h]

theorem takeDeferredReset_of_released {high : Bool} (h : s.psv.deferredReset = some (.line (some high))) :
    takeDeferredReset s = release .line high (assertReset .line s) := by
  rw [takeDeferredReset, h]

/-- The part whose power-down actions are complete, the supply being alive. -/
def actionsDone (p : Psv) (s : State) : State := { s with psv := { p with
  monitor := .wait, waveDone := true, feedDone := true
  goodTimer := if p.supplyGood then some s.tmb.fineTime else none } }

theorem completeActions_resets (hwave : s.psv.waveDone = true) (hfeed : s.psv.feedDone = true) (hdying : s.psv.dying = false) :
    completeActions s = takeDeferredReset (actionsDone s.psv s) := by
  rw [completeActions_of_alive hdying, actionsDone]
  simp only [hwave, hfeed]

end

/-! ## The part as RESET holds it -/

/-- The part held in reset by RESET, before its release. -/
def heldByCommand (s : State) : State := assertReset .command (rereadStore s)

theorem resetNow_eq (s : State) : resetNow s = release .command (Config.strapHighAtReset s.resetReads) (heldByCommand s) := rfl

/-- The read of the job mark fails at the release of a RESET (log 75). -/
def rereadFails (s : State) (failure : StoreFailure) : Prop :=
  (s.psv.state = .halted ∧ Config.storeStillFails s.resetReads = true ∧ failure = .read)
    ∨ ((s.psv.state ≠ .halted ∨ Config.storeStillFails s.resetReads = false) ∧ s.storeFails = some failure)

theorem rereadFails_iff (s : State) (failure : StoreFailure) :
    rereadFails s failure ↔ (rereadStore s).storeFails = some failure := by
  have hstored : (rereadStore s).storeFails =
      if s.psv.state = .halted ∧ Config.storeStillFails s.resetReads = true then some .read else s.storeFails := rfl
  rw [hstored]
  by_cases h : s.psv.state = .halted ∧ Config.storeStillFails s.resetReads = true
  · rw [if_pos h]
    obtain ⟨hstate, hfails⟩ := h
    refine ⟨fun hr => ?_, fun hr => .inl ⟨hstate, hfails, (Option.some.inj hr).symm⟩⟩
    rcases hr with ⟨-, -, rfl⟩ | ⟨hno, -⟩
    · rfl
    · rcases hno with hne | hnot
      · exact absurd hstate hne
      · exact Bool.noConfusion (hfails.symm.trans hnot)
  · rw [if_neg h]
    refine ⟨fun hr => ?_, fun hr => .inr ⟨?_, hr⟩⟩
    · rcases hr with ⟨hstate, hfails, -⟩ | ⟨-, hr⟩
      · exact absurd ⟨hstate, hfails⟩ h
      · exact hr
    · rw [← Bool.not_eq_true]
      exact not_and_or.mp h

/-- What RESET finds at its release. -/
structure HeldByCommand (s h : State) : Prop where
  pending : h.pending = s.pending
  tmb : h.tmb = s.tmb
  store : ∀ failure, rereadFails s failure ↔ h.storeFails = some failure
  reads : h.resetReads = s.resetReads + 1
  jobMark : h.psv.jobMark = s.psv.jobMark
  lineMode : h.psv.lineMode = s.psv.lineMode
  rig : h.psv.rig = s.psv.rig
  climb : h.wvc.climb = .held
  dwell : h.wvc.dwell = 180000000
  permission : h.wvc.permission = false
  items : ∀ st, itemOf h st = WaveItem.clear
  attn : h.exc.attn = 0
  attnMask : h.exc.attnMask = 0x3F
  attnPace : h.exc.attnPace = 1
  attnLine : h.exc.attnLine = false

theorem heldByCommand_spec (s : State) : HeldByCommand s (heldByCommand s) := by
  obtain ⟨-, hpending, htmb, hstore, hreads, hmark, hline, hrig⟩ := heldFrom_assertReset .command (rereadStore s)
  obtain ⟨-, -, -, -, -, -, -, -, -, -, hclimb, hdwell, hpermission, hitems⟩ := assertReset_shows .command (rereadStore s)
  have hregisters (u : State) : (refreshLamps { loseVolatile u with power := .held .command }).exc.attn = 0
      ∧ (refreshLamps { loseVolatile u with power := .held .command }).exc.attnMask = 0x3F
      ∧ (refreshLamps { loseVolatile u with power := .held .command }).exc.attnPace = 1
      ∧ (refreshLamps { loseVolatile u with power := .held .command }).exc.attnLine = false := ⟨rfl, rfl, rfl, rfl⟩
  obtain ⟨hattn, hmask, hpace, hattnLine⟩ := hregisters (settleAtAssertion (rereadStore s))
  exact ⟨hpending, htmb, fun failure => (rereadFails_iff s failure).trans (by rw [heldByCommand, hstore]), hreads, hmark, hline,
    hrig, hclimb, hdwell, hpermission, hitems, hattn, hmask, hpace, hattnLine⟩

/-- Nothing that interferes with the settling of the wave in flight is on its way. -/
def calmWave (s : State) : Prop := settlingWaits s = false ∧ (inWave s = true →
  s.wvc.view ≠ .halted ∧ s.wvc.drains = [] ∧ s.wvc.recoveryWindows = [])

/-- The record of a station once RESET has settled the wave in flight. -/
def endedRecord (s : State) (st : Station) : StationRecord :=
  if inWave s = true then retiredRecord (settledRecord s st) else recordOf s st

theorem recordOf_heldByCommand {s : State} (h : calmWave s) (st : Station) : recordOf (heldByCommand s) st = endedRecord s st := by
  obtain ⟨hrecords, -⟩ := assertReset_settles (rereadStore s) .command h.1 h.2
  exact hrecords st

theorem answered_heldByCommand {s : State} (h : calmWave s) (hwave : inWave s = true) (hview : s.exc.view ≠ .halted)
    (hcanonical : windowCanonical s) {st : Station} {slot : OrderSlot} (hslot : (recordOf s st).retirePending = some slot) :
    answeredDone slot (heldByCommand s) := by
  obtain ⟨-, -, -, -, -, hanswered⟩ := assertReset_settles (rereadStore s) .command h.1 h.2
  exact hanswered hwave hcanonical hview st slot hslot

theorem answeredDone_congr {slot : OrderSlot} {s t : State} (himages : t.exc.orderImages = s.exc.orderImages)
    (hwindow : t.window = s.window) (h : answeredDone slot s) : answeredDone slot t := by
  obtain ⟨himage, hstate, houtcome, hdetail⟩ := h
  rw [← himages] at himage
  rw [← hwindow] at hstate houtcome hdetail
  exact ⟨himage, hstate, houtcome, hdetail⟩

end Sys2Proof.Machine
end

section
/-! PROOF. What the settling of a reset leaves of the exchange (08 R148, R150, R160, log 16). -/

namespace Sys2Proof.Machine

open Sys2Proof

/-- The status edition and the window outside the words a cold start frees are those of before. -/
structure ExchangeSettled (s t : State) : Prop where
  edition : t.exc.statusEdition = s.exc.statusEdition
  canonical : windowCanonical s → windowCanonical t
  bytes : windowCanonical s → ∀ a, ¬inClearedSlot a = true → readByte t.window a = readByte s.window a

theorem ExchangeSettled.of_same {s t : State} (hexc : t.exc = s.exc) (hwindow : t.window = s.window) : ExchangeSettled s t := by
  refine ⟨congrArg Exc.statusEdition hexc, fun h => ?_, fun _ a _ => ?_⟩
  · rwa [windowCanonical, hwindow]
  · rw [hwindow]

theorem ExchangeSettled.trans {s t u : State} (h : ExchangeSettled s t) (k : ExchangeSettled t u) : ExchangeSettled s u :=
  ⟨k.edition.trans h.edition, fun hs => k.canonical (h.canonical hs),
    fun hs a ha => (k.bytes (h.canonical hs) a ha).trans (h.bytes hs a ha)⟩

/-- What a block other than the Exchange Controller settles leaves the exchange as it is. -/
theorem ExchangeSettled.of_layerless {s t : State} (h : layerless t = layerless s) : ExchangeSettled s t := by
  rw [layerless_eq h]
  exact .of_same rfl rfl

theorem ExchangeSettled.of_feedless {s t : State} (h : feedless t = feedless s) : ExchangeSettled s t := by
  rw [feedless_eq h]
  exact .of_same rfl rfl

theorem ExchangeSettled.of_waveless {s t : State} (h : waveless t = waveless s) : ExchangeSettled s t := by
  rw [waveless_eq h]
  exact .of_same rfl rfl

theorem ExchangeSettled.of_strokeless {s t : State} (h : strokeless t = strokeless s) : ExchangeSettled s t := by
  rw [strokeless_eq h]
  exact .of_same rfl rfl

theorem exchangeSettled_writeBatchSlot (slot : BatchSlot) (state : Option BatchState) (r : BatchReport) (s : State) :
    ExchangeSettled s (writeBatchSlot slot state r s) := by
  refine ⟨?_, (keeps_writeBatchSlot slot state r s).window, fun hs a ha => readByte_writeBatchSlot hs slot state r ?_⟩
  · cases state with
    | none => rfl
    | some st => rw [writeBatchSlot_exc_some]
  · rw [inClearedSlot_iff] at ha
    have := slot.2
    simp only [batchBase]
    omega

theorem exchangeSettled_writeOrderSlot (slot : OrderSlot) (state : Option OrderState) (result : Option OrderOutcome)
    (detail : Word) (s : State) : ExchangeSettled s (writeOrderSlot slot state result detail s) := by
  refine ⟨?_, (keeps_writeOrderSlot slot state result detail s).window,
    fun hs a ha => readByte_writeOrderSlot hs slot state result detail ?_⟩
  · cases state with
    | none => rfl
    | some st => rw [writeOrderSlot_exc_some]
  · rw [inClearedSlot_iff] at ha
    have := slot.2
    simp only [orderBase]
    omega

theorem exchangeSettled_takeSlotWrite (w : SlotWrite) (s : State) : ExchangeSettled s (takeSlotWrite w s) := by
  unfold takeSlotWrite unlessHaltedExchange
  split
  · exact .of_same rfl rfl
  · cases w with
    | batch slot state report => exact exchangeSettled_writeBatchSlot _ _ _ _
    | order slot state result detail => exact exchangeSettled_writeOrderSlot _ _ _ _ _

theorem exchangeSettled_takeOrderOutcome (slot : OrderSlot) (answer : OrderAnswer) (s : State) :
    ExchangeSettled s (takeOrderOutcome slot answer s) := by
  unfold takeOrderOutcome unlessHaltedExchange
  split
  · exact .of_same rfl rfl
  · cases answer with
    | outcome result detail => exact exchangeSettled_writeOrderSlot _ _ _ _ _
    | taken => exact exchangeSettled_writeOrderSlot _ _ _ _ _

theorem exchangeSettled_settling {c : Instr} {f : State → State} (h : settling c = some f) (s : State) :
    ExchangeSettled s (f s) := by
  cases c with
  | countsChanged => cases h; exact .of_layerless (layerless_takeCountsChanged s)
  | placement => cases h; exact .of_layerless (layerless_takePlacement _ _ _ s)
  | placementAnswer => cases h; exact .of_feedless (feedless_takePlacementAnswer _ s)
  | exitNotice => cases h; exact .of_feedless (feedless_takeExitNotice _ _ _ s)
  | slotWriteRequest => cases h; exact exchangeSettled_takeSlotWrite _ s
  | orderOutcome => cases h; exact exchangeSettled_takeOrderOutcome _ _ s
  | drainQueue => cases h; exact .of_strokeless (strokeless_takeDrainQueue _ s)
  | drainAnswer => cases h; exact .of_waveless (waveless_takeDrainAnswer _ _ _ s)
  | climbDirective => cases h; exact .of_waveless (waveless_takeClimbDirective _ s)
  | flowDirective => cases h; exact .of_feedless (feedless_takeFlow _ s)
  | feedMaskDirective => cases h; exact .of_layerless (layerless_takeFeedMask _ s)
  | _ => cases h

theorem exchangeSettled_settleMail (n : Nat) (s : State) : ExchangeSettled s (settleMail n s) := by
  induction n generalizing s with
  | zero => exact .of_same rfl rfl
  | succ n ih =>
    unfold settleMail
    split
    · exact .of_same rfl rfl
    · split
      · exact .of_same rfl rfl
      · next c _ _ f hf =>
        have htook : ExchangeSettled s (took c s) := .of_same rfl rfl
        exact (htook.trans (exchangeSettled_settling hf _)).trans (ih _)

theorem exchangeSettled_settleWave (s : State) : ExchangeSettled s (settleWave s) := by
  unfold settleWave
  split
  · exact (ExchangeSettled.of_waveless (waveless_takeWavePowerDown s)).trans (exchangeSettled_settleMail _ _)
  · exact .of_same rfl rfl

theorem exchangeSettled_settleAtAssertion (s : State) : ExchangeSettled s (settleAtAssertion s) := by
  have hview : ExchangeSettled s (onFds (fun f => { f with view := if f.view = .halted then .halted else .powerDown }) s) :=
    .of_same rfl rfl
  have hsettled := (hview.trans (exchangeSettled_settleMail settleLimit _)).trans (exchangeSettled_settleWave _)
  unfold settleAtAssertion
  dsimp only
  split
  · exact hsettled.trans (.of_feedless (feedless_cutAtReset _))
  · exact hsettled

theorem exchangeSettled_heldByCommand (s : State) : ExchangeSettled s (heldByCommand s) := by
  obtain ⟨hedition, hcanonical, hbytes⟩ := exchangeSettled_settleAtAssertion (rereadStore s)
  exact ⟨hedition, hcanonical, hbytes⟩

theorem ExchangeSettled.slotsFreed {s t u : State} (h : ExchangeSettled s t) (hfreed : windowCanonical t → slotsFreed t u) :
    windowCanonical s → slotsFreed s u := by
  intro hs a ha
  rw [hfreed (h.canonical hs) a ha]
  by_cases hcleared : inClearedSlot a = true
  · rw [if_pos hcleared, if_pos hcleared]
  · rw [if_neg hcleared, if_neg hcleared, h.bytes hs a hcleared]

theorem ExchangeSettled.publicationBegun {s t u : State} (h : ExchangeSettled s t) (hbegun : publicationBegun t u) :
    publicationBegun s u := by
  obtain ⟨hpublication, hedition, hend, hwindow⟩ := hbegun
  rw [h.edition] at hpublication hedition hwindow
  exact ⟨hpublication, hedition, hend, fun hs => hwindow (h.canonical hs)⟩

end Sys2Proof.Machine
end

section
/-! PROOF. What the RESET command leaves (09 R162, R163, R168, R172). -/

namespace Sys2Proof.Machine

open Sys2Proof

/-! ## The blocks after a release -/

/-- The field blocks as a release starts them, and the attention registers as in reset. -/
def startedBlocks (t : State) : Prop := t.ssu.scan = .running ∧ t.ssu.position = .row 0 ∧ t.ssu.adopting = true
  ∧ (∀ st, ssuOf t st = SsuStation.reset)
  ∧ t.vdu.quiet = true ∧ t.vdu.pumpEnable = false ∧ (∀ st, channelOf t st = ⟨.idle, 0, 0, none, false, 0⟩)
  ∧ t.wvc.climb = .held ∧ (∀ st, readingOf t st = none)
  ∧ t.exc.attn = 0 ∧ t.exc.attnMask = 0x3F ∧ t.exc.attnPace = 1 ∧ t.exc.attnLine = false

/-- The Wave Controller at rest: the dwell at its end, no permission asked for, no station in a wave. -/
def waveAtRest (t : State) : Prop :=
  t.wvc.dwell = 180000000 ∧ t.wvc.permission = false ∧ ∀ st, itemOf t st = WaveItem.clear

/-- The records and the answers of the held part are those of the released one. -/
def tableCarried (h t : State) : Prop :=
  (∀ st, recordOf t st = recordOf h st) ∧ t.exc.orderImages = h.exc.orderImages ∧ t.window = h.window

section
variable {s h : State} (hheld : HeldByCommand s h) {high : Bool}
include hheld

/-! ## HALTED and BENCH -/

theorem HeldByCommand.halted (failure : StoreFailure) :
    let t := refreshLamps (haltedPart failure (releasedPart .command .config high h))
    t.psv.state = .halted ∧ t.psv.haltCause = some failure ∧ t.psv.jobMark = s.psv.jobMark ∧ t.ssu.scan = .stopped
      ∧ t.wvc.climb = .held ∧ t.exc.attn = 0x20 ∧ tableCarried h t ∧ waveAtRest t := by
  have hfault : (haltedPart failure (releasedPart .command .config high h)).exc.attn = 0x20 := by
    refine (Exc.halted_attn (e := { h.exc with view := .config }) nofun).trans ?_
    rw [hheld.attn]
    decide
  exact ⟨rfl, rfl, hheld.jobMark, rfl, rfl, hfault, ⟨fun _ => rfl, rfl, rfl⟩, hheld.dwell, rfl, hheld.items⟩

theorem HeldByCommand.benchBegun :
    let t := refreshLamps (benchBegun (releasedPart .command .bench high h))
    t.psv.state = .bench ∧ t.psv.bench = .running ∧ t.psv.benchPhase = .lampTest 0
      ∧ t.psv.jobMark = s.psv.jobMark ∧ t.psv.rig = s.psv.rig ∧ tableCarried h t ∧ waveAtRest t ∧ startedBlocks t :=
  ⟨rfl, rfl, rfl, hheld.jobMark, hheld.rig, ⟨fun _ => rfl, rfl, rfl⟩, ⟨hheld.dwell, hheld.permission, hheld.items⟩,
    rfl, rfl, rfl, fun st => replicate_get _ st, rfl, rfl, fun st => replicate_get _ st, hheld.climb,
    fun st => replicate_get _ st, hheld.attn, hheld.attnMask, hheld.attnPace, hheld.attnLine⟩

/-! ## A warm start -/

theorem HeldByCommand.warm :
    let t := refreshLamps (warmStart (releasedPart .command .recovery high h))
    t.psv.jobMark = s.psv.jobMark ∧ t.psv.rig = s.psv.rig
      ∧ ((∃ st, (recordOf t st).service = .active) → t.psv.state = .recovery
          ∧ t.psv.recoveryTimer = some ⟨0, 1000 * s.psv.rig.recoveryWindow⟩)
      ∧ ((∀ st, ¬(recordOf t st).service = .active) → t.psv.state = .run)
      ∧ t.wvc.holds.getLsbD 5 = true ∧ (∀ st, recordOf t st = retiredRecord (recordOf h st))
      ∧ t.exc.orderImages = h.exc.orderImages ∧ t.window = h.window
      ∧ (∀ st slot, (recordOf h st).retirePending = some slot → .orderOutcome slot (.outcome .done 0) ∈ t.mail)
      ∧ waveAtRest t ∧ startedBlocks t := by
  have hstarted := warmStarted_releasedPart .command high h
  generalize warmStart (releasedPart .command .recovery high h) = u at hstarted ⊢
  obtain ⟨hrecords, hactive, hinactive, hresume, hclimb, -, htold, ⟨hmark, hrig, -, -⟩, ⟨hdwell, hpermission, hwave⟩,
    ⟨hattn, hmask, hpace, hline⟩, himages, ⟨W, E, Q, m, hrest⟩⟩ := hstarted
  have htimer : (1000 * (releasedPart .command .recovery high h).psv.rig.recoveryWindow) = 1000 * s.psv.rig.recoveryWindow :=
    congrArg (fun r : RigValues => 1000 * r.recoveryWindow) hheld.rig
  rw [htimer] at hactive
  have hitems (st : Station) : itemOf u st = WaveItem.clear :=
    (congrArg (fun w : Table WaveItem 64 => w[st]) hwave).trans (hheld.items st)
  have hclimb' : u.wvc.climb = .held := hclimb hheld.climb
  refine ⟨hmark.trans hheld.jobMark, hrig.trans hheld.rig, hactive, hinactive, hresume, hrecords, himages, ?_, htold,
    ⟨hdwell.trans hheld.dwell, hpermission.trans hheld.permission, hitems⟩, ?_⟩
  · rw [hrest]
    rfl
  · refine ⟨?_, ?_, ?_, fun st => ?_, ?_, ?_, fun st => ?_, hclimb', fun st => ?_, hattn.trans hheld.attn,
      hmask.trans hheld.attnMask, hpace.trans hheld.attnPace, hline.trans hheld.attnLine⟩
    all_goals rw [hrest]
    case refine_4 => exact replicate_get _ st
    case refine_7 => exact replicate_get _ st
    case refine_8 => exact replicate_get _ st
    all_goals rfl

/-! ## A cold start -/

theorem HeldByCommand.cold (scan : Option Word) (publish : Option Timer) (window : Memory) :
    let t := refreshLamps (coldStarted scan publish window (releasedPart .command .config high h))
    t.psv.state = .config ∧ t.psv.jobMark = false ∧ t.psv.rig = RigValues.standby
      ∧ (∀ st, recordOf t st = StationRecord.blank) ∧ (∀ k, stackOf t k = []) ∧ t.fds.line = [] ∧ t.fds.flow = 0
      ∧ waveAtRest t ∧ startedBlocks t :=
  ⟨rfl, rfl, rfl, fun st => replicate_get _ st, fun k => replicate_get _ k, rfl, rfl,
    ⟨rfl, rfl, fun st => replicate_get _ st⟩,
    rfl, rfl, rfl, fun st => replicate_get _ st, rfl, rfl, fun st => replicate_get _ st, rfl,
    fun st => replicate_get _ st, hheld.attn, hheld.attnMask, hheld.attnPace, hheld.attnLine⟩

/-- Whatever its release finds, RESET leaves the Wave Controller at rest. -/
theorem HeldByCommand.waveAtRest_release : waveAtRest (release .command high h) := by
  cases hstore : h.storeFails with
  | some failure =>
    rw [release_of_failure hstore]
    obtain ⟨-, -, -, -, -, -, -, hrest⟩ := hheld.halted (high := high) failure
    exact hrest
  | none =>
    cases hhigh : high with
    | true =>
      rw [release_of_high hstore rfl]
      obtain ⟨-, -, -, -, -, -, hrest, -⟩ := hheld.benchBegun (high := true)
      exact hrest
    | false =>
      cases hjob : h.psv.jobMark with
      | true =>
        rw [release_of_job hstore rfl hjob]
        obtain ⟨-, -, -, -, -, -, -, -, -, hrest, -⟩ := hheld.warm (high := false)
        exact hrest
      | false =>
        obtain ⟨scan, publish, window, hcold, -, -⟩ := coldStart_does (releasedPart .command .config false h)
        rw [release_of_jobless hstore rfl hjob, hcold]
        obtain ⟨-, -, -, -, -, -, -, hrest, -⟩ := hheld.cold (high := false) scan publish window
        exact hrest

/-- A release that reads the store starts the field blocks and finds the attention registers as in reset. -/
theorem HeldByCommand.startedBlocks_release (hstore : h.storeFails = none) : startedBlocks (release .command high h) := by
  cases hhigh : high with
  | true =>
    rw [release_of_high hstore rfl]
    obtain ⟨-, -, -, -, -, -, -, hstarted⟩ := hheld.benchBegun (high := true)
    exact hstarted
  | false =>
    cases hjob : h.psv.jobMark with
    | true =>
      rw [release_of_job hstore rfl hjob]
      obtain ⟨-, -, -, -, -, -, -, -, -, -, hstarted⟩ := hheld.warm (high := false)
      exact hstarted
    | false =>
      obtain ⟨scan, publish, window, hcold, -, -⟩ := coldStart_does (releasedPart .command .config false h)
      rw [release_of_jobless hstore rfl hjob, hcold]
      obtain ⟨-, -, -, -, -, -, -, -, hstarted⟩ := hheld.cold (high := false) scan publish window
      exact hstarted

end

end Sys2Proof.Machine
end

section
/-! PROOF. The RESET command, and a reset that waits for the power-down actions (09 R168, 10 R180). -/

namespace Sys2Proof.Machine

open Sys2Proof

/-- Settles O17. -/
theorem resetCommandResetsThePart : Obligations.ResetCommandResetsThePart := by
  refine ⟨fun s hacting => ⟨fun hfree => ?_, ?_⟩, fun s hacting hactions hdying => ?_⟩
  · have hlead {t : State} (e : takeReset s = t) : leadsTo .reset s t := leadsTo_of_command (exec_reset s) hacting hfree e
    refine ⟨fun h => hlead (takeReset_of_not h), fun h hnone => hlead ?_, fun r h hr => hlead ?_⟩
    · rw [takeReset_of_actions h, deferCommand_of_not hnone]
    · rw [takeReset_of_actions h, deferCommand_of_line hr]
  · have hheld := heldByCommand_spec s
    have hreleased := releasedWith_release .command (Config.strapHighAtReset s.resetReads) (heldByCommand s)
    have hsettled := exchangeSettled_heldByCommand s
    have hatrest := hheld.waveAtRest_release (high := Config.strapHighAtReset s.resetReads)
    intro t high active calm ended answered fails
    have hcalm (h : calm) : ∀ st, recordOf (heldByCommand s) st = ended st := recordOf_heldByCommand h
    have ht : t = release .command high (heldByCommand s) := resetNow_eq s
    have hanswered (himages : t.exc.orderImages = (heldByCommand s).exc.orderImages)
        (hwindow : t.window = (heldByCommand s).window) : answered := fun h hwave hview hcanonical st slot hslot =>
      answeredDone_congr himages hwindow (answered_heldByCommand h hwave hview hcanonical hslot)
    have hfails (failure : StoreFailure) : fails failure ↔ (heldByCommand s).storeFails = some failure := hheld.store failure
    change releasedWith .command high (heldByCommand s) (release .command high (heldByCommand s)) at hreleased
    change waveAtRest (release .command high (heldByCommand s)) at hatrest
    rw [← ht] at hreleased hatrest
    clear_value t high
    generalize heldByCommand s = h at *
    obtain ⟨hpower, hpending, hstrap, hfine, hsite, hstored, hreads, hcontrol, hline, -⟩ := hreleased
    obtain ⟨hdwell, hpermission, hitems⟩ := hatrest
    refine ⟨hpower, hpending.trans hheld.pending, hstrap, hfine,
      hsite.trans (congrArg Tmb.siteSeconds hheld.tmb), hcontrol, hline.trans hheld.lineMode, hstored,
      hreads.trans hheld.reads, fun failure hf => ?_, hdwell, hpermission, hitems, fun hnone => ?_⟩
    · have hrelease := ht.trans (release_of_failure ((hfails failure).mp hf))
      obtain ⟨hstate, hcause, hmark, hscan, hclimb, hattn, ⟨hrecords, himages, hwindow⟩, -⟩ :=
        hheld.halted (high := high) failure
      rw [← hrelease] at hstate hcause hmark hscan hclimb hattn hrecords himages hwindow
      exact ⟨hstate, hcause, hmark, hscan, hclimb, hattn, fun hc st => (hrecords st).trans (hcalm hc st),
        hanswered himages hwindow⟩
    · have hstore : h.storeFails = none := by
        cases hs : h.storeFails with
        | none => rfl
        | some failure => exact absurd ((hfails failure).mpr hs) (hnone failure)
      have hblocks := hheld.startedBlocks_release (high := high) hstore
      rw [← ht] at hblocks
      refine ⟨fun hhigh => ?_, fun hlow hjob => ?_, fun hlow hjob => ?_, hblocks⟩
      · have hrelease := ht.trans (release_of_high hstore hhigh)
        obtain ⟨hstate, hbench, hphase, hmark, hrig, ⟨hrecords, himages, hwindow⟩, -⟩ := hheld.benchBegun (high := high)
        rw [← hrelease] at hstate hbench hphase hmark hrig hrecords himages hwindow
        exact ⟨hstate, hbench, hphase, hmark, hrig, fun hc st => (hrecords st).trans (hcalm hc st), hanswered himages hwindow⟩
      · have hrelease := ht.trans (release_of_job hstore hlow (hheld.jobMark.trans hjob))
        obtain ⟨hmark, hrig, hactive, hinactive, hresume, hrecords, himages, hwindow, htold, -⟩ := hheld.warm (high := high)
        rw [← hrelease] at hmark hrig hactive hinactive hresume hrecords himages hwindow htold
        refine ⟨hmark.trans hjob, hrig, hactive, hinactive, hresume, fun hc st => ?_, hanswered himages hwindow,
          fun hc hno st slot hslot => htold st slot ?_⟩
        · rw [hrecords, hcalm hc]
        · have hended : ended st = recordOf s st := if_neg (by rw [hno]; exact Bool.false_ne_true)
          rw [hcalm hc, hended, hslot]
      · obtain ⟨scan, publish, window, hcold, hfreed, hbegun⟩ := coldStart_does (releasedPart .command .config high h)
        have hrelease := (ht.trans (release_of_jobless hstore hlow (hheld.jobMark.trans hjob))).trans
          (congrArg refreshLamps hcold)
        obtain ⟨hstate, hmark, hrig, hrecords, hstack, hfeed, hflow, -⟩ := hheld.cold (high := high) scan publish window
        have hemptied := exchangeEmptied_of (s := s) (u := refreshLamps (coldStarted scan publish window
          (releasedPart .command .config high h))) (forgotten_forget h.exc) (hsettled.slotsFreed hfreed)
        have hpublished := hsettled.publicationBegun (u := refreshLamps (coldStarted scan publish window
          (releasedPart .command .config high h))) hbegun
        rw [← hrelease] at hstate hmark hrig hrecords hstack hfeed hflow hemptied hpublished
        exact ⟨hstate, hmark, hrig, hrecords, hstack, hfeed, hflow, hemptied, hpublished⟩
  · intro done
    have hdone {c : Instr} (h : settlingWaits (took c s) = false →
        ∀ t, takeDeferredReset (actionsDone s.psv (took c s)) = t → leadsTo c s t) : done c (took c s) := by
      intro hgone w
      refine ⟨fun hreset => h hgone _ (takeDeferredReset_of_command (s := actionsDone s.psv (took c s)) hreset), fun hreset => ?_,
        fun high hreset => h hgone _ (takeDeferredReset_of_released (s := actionsDone s.psv (took c s)) hreset)⟩
      have hline := h hgone _ (takeDeferredReset_of_line (s := actionsDone s.psv (took c s)) hreset)
      exact ⟨_, hline, hline, rfl⟩
    refine ⟨fun hfeed => hdone fun hgone t e => ?_, fun hwave => hdone fun hgone t e => ?_, fun hreset high => ?_,
      fun hreset high => ?_⟩
    · refine leadsTo_of_taking (exec_powerDownActionsDone s) hacting ((takeWaveDone_of_inActions (by exact hactions)).trans ?_)
      exact (judgeActions_of_complete rfl (by exact hfeed) (by exact hgone)).trans
        ((completeActions_resets rfl (by exact hfeed) (by exact hdying)).trans e)
    · refine leadsTo_of_taking (exec_feedStopped s) hacting ((takeFeedStopped_of_inActions (by exact hactions)).trans ?_)
      exact (judgeActions_of_complete (by exact hwave) rfl (by exact hgone)).trans
        ((completeActions_resets (by exact hwave) rfl (by exact hdying)).trans e)
    · rw [resetRelease_of_on ((acting_iff s).mp hacting), noteRelease_of_waiting hreset]
    · rw [resetRelease_of_on ((acting_iff s).mp hacting), noteRelease_of_not hreset]

end Sys2Proof.Machine
end
